-- ==== Sys2Proof/Word.lean ====
section
/-! DEFINITION. The word types of the tray and their plainest arithmetic. -/
namespace Sys2Proof

/-- A byte. -/
abbrev Byte := BitVec 8
/-- A 16-bit word. -/
abbrev W16 := BitVec 16
/-- A 32-bit word. -/
abbrev W32 := BitVec 32
/-- A 64-bit word. -/
abbrev W64 := BitVec 64
/-- The 512 bits of a vector register (R302). -/
abbrev V512 := BitVec 512

/-- `len` bits of `n` from bit `lo` up (R11: bit 0 is the least significant). -/
def bitsOf (n lo len : Nat) : Nat := (n >>> lo) % 2 ^ len

/-- Bit `i` of `n`. -/
def bitOf (n i : Nat) : Bool := n.testBit i

/-- A truth value as a bit. -/
def b2n (b : Bool) : Nat := if b then 1 else 0

/-- `n` with its `len` bits from `lo` replaced by `v`. -/
def setBits (n lo len v : Nat) : Nat :=
  n - (bitsOf n lo len) * 2 ^ lo + (v % 2 ^ len) * 2 ^ lo

/-- `n` read as a signed `w`-bit number. -/
def sgn (w n : Nat) : Int :=
  if 2 ^ (w - 1) ≤ n % 2 ^ w then (n % 2 ^ w : Nat) - (2 ^ w : Nat) else (n % 2 ^ w : Nat)

/-- `i` modulo `2 ^ w`, as a natural number. -/
def wrapInt (w : Nat) (i : Int) : Nat := (i % (2 ^ w : Nat)).toNat

/-- The quotient rounded up. -/
def ceilDiv (a b : Nat) : Nat := (a + b - 1) / b

end Sys2Proof
end

