-- ==== Sys2Proof/Syntax.lean ====
section
/-! DEFINITION. The commands of the tray and of its chips, whole: one constructor per row of the table. -/
namespace Sys2Proof

/-- The commands and events of the tray and its chips: one constructor per row of
spec/opcode_table.json, in the table's order, with the operands the row is given here. -/
inductive Instr where
  /-- TMC_START (R43): The TMC starts, puts the valid configuration copy in force and powers the chips of power_on_set in ascending index. -/
  | tmcStart
  /-- HELLO (R63): A management HELLO issues a new 48-byte challenge and withdraws any earlier one. -/
  | hello (n seq : Nat) (payload : List Nat)
  /-- AUTH (R63): A management AUTH verifies a signature over the challenge against a key and gives the session its role, or refuses it. -/
  | auth (n seq : Nat) (payload : List Nat)
  /-- GET_STATUS (R72): The TMC answers with the 72-byte tray status. -/
  | getStatus (n seq : Nat) (payload : List Nat)
  /-- GET_TELEMETRY (R71): The TMC returns the newest telemetry record of a chip's partition. -/
  | getTelemetry (n seq : Nat) (payload : List Nat)
  /-- SET_TRAY_CAP (R49): A management cap request is bounds-checked, then divided into shares that are applied only if every chip accepts. -/
  | setTrayCap (n seq : Nat) (payload : List Nat)
  /-- GET_TRAY_CAP (R71): The TMC returns the source caps, the effective cap and the per-chip shares. -/
  | getTrayCap (n seq : Nat) (payload : List Nat)
  /-- CHIP_POWER (R52): The TMC moves a chip to Active, Standby or Dormant, counting the floor before it enables any rails. -/
  | chipPower (n seq : Nat) (payload : List Nat)
  /-- CHIP_RESET (R111): The TMC resets a chip warm, cold or by side-band through the side-band. -/
  | chipReset (n seq : Nat) (payload : List Nat)
  /-- READ_LER (R71): The TMC returns up to 15 LER frames of a chip, as stored. -/
  | readLer (n seq : Nat) (payload : List Nat)
  /-- RELEASE_LER (R836): The TMC releases a chip's held LER windows and returns the release sequence. -/
  | releaseLer (n seq : Nat) (payload : List Nat)
  /-- FLASH_WRITE (R69): Data is written into an inactive flash slot; writes to an active slot or to region 0 are refused. -/
  | flashWrite (n seq : Nat) (payload : List Nat)
  /-- FLASH_COMMIT (R33): The TMC verifies a slot's signature and marks the slot active. -/
  | flashCommit (n seq : Nat) (payload : List Nat)
  /-- PLATE_SELECT (R71): The TMC writes a chip's base_plate byte as a new configuration copy. -/
  | plateSelect (n seq : Nat) (payload : List Nat)
  /-- CONFIG_READ (R71): The TMC returns the configuration copy in force. -/
  | configRead (n seq : Nat) (payload : List Nat)
  /-- CONFIG_WRITE (R39): The TMC checks a complete configuration copy, writes it into the other copy's place and puts it in force once it reads back valid. -/
  | configWrite (n seq : Nat) (payload : List Nat)
  /-- TWIN_CONTROL (R747): The TMC performs DETACH or REJOIN of a twin pair by writing TWIN.CTRL over the side-band. -/
  | twinControl (n seq : Nat) (payload : List Nat)
  /-- MGMT_BAD_FRAME (R61): A frame with a wrong magic, version or CRC, or an excess length, closes the session without a response. -/
  | mgmtBadFrame (n : Nat) (frame : List Nat)
  /-- MGMT_UNKNOWN_TYPE (R62): A request of an unlisted type is answered with BOUNDS. -/
  | mgmtUnknownType (n seq typ len : Nat)
  /-- MGMT_CONNECT (R60): A TCP connection to port 7720 opens a session, and a fifth concurrent one is closed. -/
  | mgmtConnect
  /-- MGMT_HEARTBEAT (R67): Every 5 s the TMC sends a HEARTBEAT event to each authenticated session. -/
  | mgmtHeartbeat
  /-- MGMT_SESSION_TIMEOUT (R68): A session silent for 30 s is closed and its write lease released. -/
  | mgmtSessionTimeout (n : Nat)
  /-- TMC_HEARTBEAT_CHECK (R44): Every 5 s the TMC reads each steward heartbeat and starts recovery when it has not advanced. -/
  | tmcHeartbeatCheck (c : Nat)
  /-- TMC_RECOVERY_STEP (R795): The TMC advances a stalled or halted chip through side-band reset, cold reset and finally rails off. -/
  | tmcRecoveryStep (c : Nat)
  /-- WAKE_ASSERT (R55): After 5 ms of debounce, the WAKE input wakes every chip of wake_set. -/
  | wakeAssert
  /-- WAKE_TIMER (R37): wake_timer_s after tray sleep begins, the TMC wakes the wake set. -/
  | wakeTimer
  /-- RAILS_POWER_GOOD (R56): When a power stage reports power good, the TMC drives the chip's WAKE_N low for 20 µs. -/
  | railsPowerGood (c : Nat)
  /-- RAILS_OFF (R124): A chip's main rails fall, its WAKE_N detector arms, and a wake waiting under R57 proceeds. -/
  | railsOff (c : Nat)
  /-- TRAY_SLEEP_ENTER (R74): Once every chip is Dormant, the TMC enters low power. -/
  | traySleepEnter
  /-- FAN_FAIL (R40): A fan failure drives the remaining fans at full speed, or lowers the fan-fault limit to the floor when two or more have failed. -/
  | fanFail (f : Nat)
  /-- FLASH_SWITCH_REQUEST (R35): A boot ROM or steward requests the flash switch, and the TMC grants it to one chip at a time in ascending index. -/
  | flashSwitchRequest (mask : Nat)
  /-- FLASH_SWITCH_END (R36): A grant ends, suspended flash programming resumes, and the next waiting chip is granted. -/
  | flashSwitchEnd (c : Nat)
  /-- PWR_FAIL_ASSERT (R58): The site pin or an input outside 38–64 V asserts PWR_FAIL_N to every chip and to the TMC. -/
  | pwrFailAssert (pin : Bool) (mv : Nat)
  /-- PWR_FAIL_RELEASE (R998): After 100 ms of good input with the pin released, PWR_FAIL_N rises and held wakes are served. -/
  | pwrFailRelease (mv : Nat)
  /-- WAKE_HOLD_DISCARD (R999): A wake held 60 s under PWR_FAIL_N is discarded with a WARN event. -/
  | wakeHoldDiscard
  /-- THERMAL_LIMIT_STEP (R888): The TMC lowers the thermal limit by 10 W each second while any die is hot, or raises it by 5 W every 10 s while every die is cool. -/
  | thermalLimitStep
  /-- INLET_DERATE (R1011): A rise of the inlet temperature lowers the thermal limit to the derated maximum within 1 s. -/
  | inletDerate (x : Int)
  /-- INLET_SHUTDOWN (R1012): After 10 s of inlet above 60 °C, every chip is taken to Dormant, and chips are woken after 5 min at or below 50 °C. -/
  | inletShutdown
  /-- FILTER_WARNING (R1015): After 10 min of high fan duty under light load and a cool inlet, the TMC warns of the filter. -/
  | filterWarning (duty draw : Nat)
  /-- TMC_DORMANT_POLL (R877): The TMC reads PWR.STATE every 1 ms and switches the rails off on DORMANT_READY. -/
  | tmcDormantPoll (c : Nat)
  /-- TMC_BOOT_POLL (R952): The TMC reads BOOT_STAGE every 5 ms and releases the start set once every chip waits. -/
  | tmcBootPoll
  /-- TMC_REQ_POLL (R934): The TMC reads STEWARD.TMC_REQ and serves a pending host cap or Dormant service. -/
  | tmcReqPoll (c : Nat)
  /-- HOST_PERST (R31): PERST# on HOST A resets the switch and holds every downstream link in reset. -/
  | hostPerst (asserted cableA cableB : Bool)
  /-- SB_ADDR (R105): A side-band ADDR sets the register pointer, unless its bits 31:24 are not zero. -/
  | sbAddr (addr off : Nat)
  /-- SB_DATA32_READ (R104): A side-band 4-byte register read returns the status and the value, then advances ADDR by 4. -/
  | sbData32Read (addr : Nat)
  /-- SB_DATA32_WRITE (R104): A side-band 4-byte register write is performed, then ADDR advances by 4. -/
  | sbData32Write (addr v : Nat)
  /-- SB_DATA64_READ (R104): A side-band 8-byte register read returns the status and the value, then advances ADDR by 8. -/
  | sbData64Read (addr : Nat)
  /-- SB_DATA64_WRITE (R104): A side-band 8-byte register write is performed, then ADDR advances by 8. -/
  | sbData64Write (addr v : Nat)
  /-- LER_FRAME (R103): The side-band selects the LER frame to read. -/
  | lerFrame (addr frame : Nat)
  /-- LER_READ (R838): The side-band returns the next 32 bytes of the selected frame, or BUSY while that slot is being written. -/
  | lerRead (addr : Nat)
  /-- LER_RELEASE (R836): A side-band LER release records LER_RELEASED and releases the held windows. -/
  | lerRelease (addr value : Nat)
  /-- SB_RESET (R112): A side-band RESET with kind and 0xA5 starts a warm, cold or side-band reset. -/
  | sbReset (addr kind key : Nat)
  /-- SB_STATUS (R113): A side-band STATUS read returns the chip state and heartbeat and clears byte 1. -/
  | sbStatus (addr : Nat)
  /-- SB_BAD_PEC (R109): A Block Write with a wrong PEC byte has that byte NACKed and is not performed. -/
  | sbBadPec (addr code : Nat)
  /-- RST_N_LOW (R118): RST_N low resets every domain except wake, after any LER frame write in flight. -/
  | rstNLow (c : Nat)
  /-- WAKE_N_PULSE (R879): A WAKE_N pulse in Dormant sets the wake latch; in any other state it is ignored and logged. -/
  | wakeNPulse (c ns : Nat)
  /-- POWER_ON_RESET (R942): The main rails come up and power-on reset samples the straps and starts the boot. -/
  | powerOnReset (c : Nat)
  /-- PWR_FAIL_N_FALL (R119): A falling PWR_FAIL_N seals the LER, raises WARN and refuses later plate loads. -/
  | pwrFailNFall (c : Nat)
  /-- PWR_FAIL_N_RISE (R955): PWR_FAIL_N rises at the chip; loads are allowed again and a boot load refused for power is retried once. -/
  | pwrFailNRise (c : Nat)
  /-- TICK_IN_EDGE (R199): A TICK_IN edge is stamped and, if late enough, starts a tick of each partition that takes TICK_IN. -/
  | tickInEdge
  /-- UNIT_BLOCK_ACCESS_IDLE (R102): A register access to a unit block while fc is stopped starts fc and completes within 20 µs. -/
  | unitBlockAccessIdle (c a off size : Nat)
  /-- REGISTER_WRITE (R966): A write to a register that has no row of its own is checked in order and takes effect by its access codes. -/
  | registerWrite (c a off size v : Nat)
  /-- TIME_LOW_READ (R982): A 4-byte read of TIME bits 31:0 latches bits 63:32 for the requesting agent. -/
  | timeLowRead (c a : Nat)
  /-- PLATE_LOAD (R162): LOAD starts copying the plate into the staging region. -/
  | plateLoad (c a : Nat)
  /-- PLATE_VALIDATE (R169): Once the copy completes, the loader validates the staged plate step by step and stops at the first failure. -/
  | plateValidate (c code : Nat) (data : List Nat)
  /-- PLATE_APPLY (R165): A valid base plate is applied: stores are zeroed, content installed and partitions started. -/
  | plateApply (c : Nat)
  /-- PLATE_UNLOAD (R167): UNLOAD lets ticks finish, retires jobs, fences units, zeroes stores and returns the chip to READY_FOR_PLATE. -/
  | plateUnload (c a : Nat)
  /-- PLATE_CANCEL (R185): CANCEL withdraws a partition's pending overlay. -/
  | plateCancel (c a p : Nat)
  /-- OVERLAY_APPLY (R175): At an allowed boundary a pending overlay aborts epochs, bumps generations and installs the partition's new content. -/
  | overlayApply (c p : Nat)
  /-- FALLBACK_APPLY (R234): A pending fallback applies at the boundary, retires jobs with FIT and withdraws any other pending overlay. -/
  | fallbackApply (c p : Nat)
  /-- FALLBACK_TIMEOUT (R235): With a needed fallback unapplied 2 s after acceptance, fc is lowered anyway and ERROR raised. -/
  | fallbackTimeout (c : Nat)
  /-- TICK_START (R197): A partition's tick starts on TIME or an accepted source, starting parked cores and laying out its slots. -/
  | tickStart (c p : Nat)
  /-- SUBSTITUTE_TICK (R200): With no accepted edge or message by the limit, a substitute tick starts and SUBST is set. -/
  | substituteTick (c p : Nat)
  /-- TICK_DEADLINE (R222): An incomplete tick at its deadline overruns and follows its policy. -/
  | tickDeadline (c p : Nat)
  /-- EXTENDED_DEADLINE (R227): An extended tick still incomplete at its moved deadline is stopped as under skip. -/
  | extendedDeadline (c p : Nat)
  /-- TICK_COMPLETE (R221): The tick completes when the last coded core has executed tend and no command is in flight. -/
  | tickComplete (c p : Nat)
  /-- ADMIT_JOB (R213): A host ADMIT_JOB is tested against the ceiling and at fc_adm, and admitted or refused with FIT. -/
  | admitJob (c p : Nat)
  /-- RETIRE_JOB (R217): A host RETIRE_JOB is accepted and waits for the end of the tick. -/
  | retireJob (c p : Nat)
  /-- SYNC_POST (R917): A host command posts to a COUNTER or sets an EVENT. -/
  | syncPost (c p : Nat)
  /-- HOST_NOP (R914): A host NOP completes at acceptance. -/
  | hostNop (c p : Nat)
  /-- HOST_FENCE (R914): A host FENCE completes once every earlier command of the ring has completed. -/
  | hostFence (c p : Nat)
  /-- CLR_OVERRUNS (R240): A write of PART.CTRL.CLR_OVERRUNS sets PART.OVERRUNS to 0. -/
  | clrOverruns (c a p : Nat)
  /-- PWR_OFFER (R882): The chip tests an offered share at its fc and answers OK, FIT, BOUNDS or BUSY within 1 ms. -/
  | pwrOffer (c share : Nat)
  /-- PWR_COMMIT (R883): COMMIT accepts the held share: fc changes, or fallbacks become pending. -/
  | pwrCommit (c : Nat)
  /-- PWR_ABANDON (R883): ABANDON drops the held offer and changes nothing. -/
  | pwrAbandon (c : Nat)
  /-- OFFER_EXPIRY (R883): A held offer is abandoned 10 ms after it was answered. -/
  | offerExpiry (c : Nat)
  /-- FC_CHANGE_DONE (R885): fc and its supply voltage reach the committed value and FC_PENDING clears. -/
  | fcChangeDone (c : Nat)
  /-- THERMAL_TRIP (R889): After 10 ms of a die at 105 °C or more, fc is forced to 600 MHz and THROTTLED is set. -/
  | thermalTrip (c : Nat)
  /-- THERMAL_CLEAR (R889): After 1 s of a die at 95 °C or less, THROTTLED clears and fc returns to the committed value. -/
  | thermalClear (c : Nat)
  /-- IDLE_ENTRY (R869): Once the idle conditions have held for IDLE_DELAY_MS, fc stops. -/
  | idleEntry (c : Nat)
  /-- IDLE_EXIT (R871): A job, doorbell, access, remote request or scrub ends Idle, and fc runs within 20 µs. -/
  | idleExit (c : Nat) (scrub : Bool)
  /-- PWR_CTRL_STANDBY (R873): An accepted STANDBY absorbs ticks and waits for running ticks to end. -/
  | pwrCtrlStandby (c a : Nat)
  /-- STANDBY_ENTRY_DONE (R873): After the last tick, fc stops, DRAM self-refreshes, links are parked and the chip is in Standby. -/
  | standbyEntryDone (c : Nat)
  /-- PWR_CTRL_ACTIVE (R875): ACTIVE in Standby wakes DRAM, starts fc and retrains the parked links. -/
  | pwrCtrlActive (c a : Nat)
  /-- PWR_CTRL_DORMANT (R877): A side-band DORMANT starts Dormant entry: ticks are absorbed and running ticks allowed to end. -/
  | pwrCtrlDormant (c a : Nat)
  /-- DORMANT_READY (R877): After the last tick, fc stops, the LER is sealed, the steward is held and the state reads DORMANT_READY. -/
  | dormantReady (c : Nat)
  /-- MMA (R457): The array accepts and checks an MMA command. -/
  | mma (c p : Nat)
  /-- DRAIN (R474): The array accepts and checks a DRAIN command. -/
  | drain (c p : Nat)
  /-- LOAD_ACC (R482): The array accepts and checks an expert LOAD_ACC command. -/
  | loadAcc (c p : Nat)
  /-- ARRAY_CMD_BEGIN (R467): An accepted array command begins after earlier commands on its banks, testing bank states. -/
  | arrayCmdBegin (c p : Nat) (mac : Bool)
  /-- ARRAY_CMD_COMPLETE (R471): An array command completes with its tile or output-stage status. -/
  | arrayCmdComplete (c p : Nat) (mac : Bool)
  /-- SOFTMAX (R520): The row engine accepts a soft-maximum command. -/
  | softmax (c k : Nat)
  /-- ROWSTAT (R514): The row engine accepts a row-statistics command. -/
  | rowstat (c k : Nat)
  /-- NORM (R518): The row engine accepts a normalisation command. -/
  | norm (c k : Nat)
  /-- ROW_CMD_COMPLETE (R523): A row command completes with its row status word. -/
  | rowCmdComplete (c k : Nat) (far : List (Nat × Nat × List Nat))
  /-- SE_CLAIM (R532): A core takes a free stream context. -/
  | seClaim (c p : Nat)
  /-- SE_RELEASE (R533): A context is stopped, cleared, freed and its generation incremented. -/
  | seRelease (c p n : Nat) (far : List (Nat × Nat × List Nat))
  /-- SE_RUN (R554): A context runs one descriptor, kept when PERSIST is set. -/
  | seRun (c p : Nat)
  /-- SE_ATTACH (R546): A ring is bound to an idle context. -/
  | seAttach (c p : Nat)
  /-- SE_TAIL (R547): The context's tail counter is set, making descriptors pending. -/
  | seTail (c p : Nat)
  /-- SE_ARM (R554): The persistent descriptor is re-run with new bases. -/
  | seArm (c p : Nat)
  /-- SE_CTX_ARM_WRITE (R555): A far-base write to POD.SE_CTX_ARM by the owner acts as ARM. -/
  | seCtxArmWrite (c k p x far : Nat)
  /-- SE_CANCEL (R533): The context is stopped and cleared and left IDLE and held. -/
  | seCancel (c p n : Nat) (far : List (Nat × Nat × List Nat))
  /-- SWAP (R570): Pod-store pages are written to and read from the pod's spill slice. -/
  | swap (c p : Nat)
  /-- CHAIN (R557): A chain of READ, MMA, DRAIN, ROW and WRITE stages is accepted and run per tile. -/
  | chain (c p : Nat)
  /-- CHAIN_STAGE_START (R561): A chain stage begins once its hand-over conditions hold. -/
  | chainStageStart (c p x stage : Nat) (far : List (Nat × Nat × List Nat))
  /-- CAROUSEL_ARM (R574): A carousel ring of cores is armed. -/
  | carouselArm (c p : Nat) (far : List (Nat × Nat × List Nat))
  /-- ROTATE (R575): A ring core announces step s of the carousel. -/
  | rotate (c p : Nat)
  /-- CAROUSEL_TRANSFER (R576): A shard transfer between ring positions begins when its conditions hold. -/
  | carouselTransfer (c p st i : Nat)
  /-- CAROUSEL_TRANSFER_DONE (R577): A shard transfer completes and releases the waiting ROTATE. -/
  | carouselTransferDone (c p st i : Nat)
  /-- CAROUSEL_DISARM (R579): The carousel is disarmed and waiting ROTATEs complete with GEN_STALE. -/
  | carouselDisarm (c p : Nat)
  /-- SE_RING_FETCH (R548): The stream engine fetches a 512-byte group of ring slots. -/
  | seRingFetch (c p x : Nat) (far : List (Nat × Nat × List Nat))
  /-- SE_DESCRIPTOR_BEGIN (R542): A descriptor begins with the hull check of its far and near ranges. -/
  | seDescriptorBegin (c p x : Nat) (far : List (Nat × Nat × List Nat))
  /-- SE_DESCRIPTOR_COMPLETE (R540): A descriptor's writes are performed and its completion queued. -/
  | seDescriptorComplete (c p x : Nat) (far : List (Nat × Nat × List Nat))
  /-- SE_DESCRIPTOR_TIMEOUT (R544): A descriptor still running after stream_desc_us stops with TIMEOUT. -/
  | seDescriptorTimeout (c p x n : Nat) (far : List (Nat × Nat × List Nat))
  /-- BUCKET_REFILL (R565): Every 1,000 ns of TIME, each partition's token buckets are refilled. -/
  | bucketRefill (c : Nat)
  /-- CU_CLAIM (R587): A core takes a free coder unit. -/
  | cuClaim (c x : Nat)
  /-- CU_RELEASE (R589): After earlier commands, sessions close, the generation increments and the CU is freed. -/
  | cuRelease (c x : Nat)
  /-- ENC_OPEN (R596): An encoding session is opened on a buffer. -/
  | encOpen (c x : Nat)
  /-- ENC_STATIC (R596): Static symbol records are range-coded. -/
  | encStatic (c x : Nat)
  /-- ENC_PARAM (R611): Parametric records are mapped to subtables and coded. -/
  | encParam (c x : Nat)
  /-- ENC_FLUSH (R602): The encoder terminates, pads the line with zeros and closes. -/
  | encFlush (c x : Nat)
  /-- DEC_OPEN (R597): A decoding session reads its first four bytes. -/
  | decOpen (c x : Nat)
  /-- DEC_STATIC (R617): Static records are decoded, confirming or rolling back speculation. -/
  | decStatic (c x : Nat)
  /-- DEC_PARAM (R612): Parametric records are decoded into INT32 values. -/
  | decParam (c x : Nat)
  /-- DEC_CLOSE (R600): The session closes and checks bytes consumed against the length. -/
  | decClose (c x : Nat)
  /-- SEAL (R622): An Amzal stream frame is assembled with its header, substreams and CRC. -/
  | seal (c x : Nat)
  /-- CHECK (R624): A frame is checked in order and its substream offsets written. -/
  | check (c x : Nat)
  /-- RUNAHEAD_SPECULATE (R615): An idle CU decodes ahead under the last distribution, saving checkpoints. -/
  | runaheadSpeculate (c x : Nat) (far : List (Nat × Nat × List Nat))
  /-- CU_CMD_COMPLETE (R593): A coder command completes in acceptance order. -/
  | cuCmdComplete (c x : Nat) (far : List (Nat × Nat × List Nat))
  /-- TE_CLAIM (R642): A core takes a free tree engine. -/
  | teClaim (c x : Nat)
  /-- TE_RELEASE (R642): The tree engine is freed after earlier commands, keeping its store. -/
  | teRelease (c x : Nat)
  /-- TE_LOAD (R644): A model image is copied into the tree store and checked. -/
  | teLoad (c x : Nat)
  /-- SCORE (R650): Samples are walked through the forest, summed and linked. -/
  | score (c x : Nat)
  /-- GATHER (R658): Shard partials are combined in list order and linked. -/
  | gather (c x : Nat)
  /-- TE_CMD_COMPLETE (R647): A tree-engine command completes in acceptance order. -/
  | teCmdComplete (c x : Nat) (far : List (Nat × Nat × List Nat))
  /-- STATS (R711): A profile's per-channel adaptation state is written out. -/
  | stats (c n : Nat) (far : List (Nat × Nat × List Nat))
  /-- ADAPT_RESET (R712): A profile's adaptation offsets and counts are reset. -/
  | adaptReset (c n : Nat)
  /-- FLIT_RECEIVE (R670): A flit is accepted in order or discarded with a NAK; a received NAK triggers a replay. -/
  | flitReceive (c n fec : Nat) (flit : List Nat)
  /-- ACK_TIMER (R672): A receiver acknowledges within 200 ns of accepting a flit. -/
  | ackTimer (c n : Nat)
  /-- REPLAY_TIMER (R672): A flit unacknowledged for 1 µs causes a replay, retraining or bringing the link down at the limits. -/
  | replayTimer (c n : Nat)
  /-- RETRAIN_DONE (R674): A retrain completes and held flits are re-sent. -/
  | retrainDone (c n : Nat) (ok : Bool)
  /-- LINK_TRAINING_DONE (R681): Training completes and the identity records decide UP or HELD. -/
  | linkTrainingDone (c n : Nat) (ok : Bool) (serial chip link flags : Nat)
  /-- FRESH_TRAINING (R676): Every second the steward retries training of a down link. -/
  | freshTraining (c n : Nat)
  /-- LINK_FORCE_DOWN (R716): LINK.CTRL FORCE_DOWN takes the link down and holds it. -/
  | linkForceDown (c a n : Nat)
  /-- LINK_CTRL_RETRAIN (R716): LINK.CTRL RETRAIN starts a fresh training. -/
  | linkCtrlRetrain (c a n : Nat)
  /-- REMOTE_REQUEST_SERVE (R687): The far chip checks a window request against its plate and performs it. -/
  | remoteRequestServe (c n p win off len : Nat) (write : Bool) (data : List Nat)
  /-- REMOTE_RESPONSE (R692): A remote response completes the request at the requester. -/
  | remoteResponse (c id code : Nat) (data : List Nat)
  /-- REMOTE_TIMEOUT (R690): A remote request unanswered within msg_wait_us completes with TIMEOUT. -/
  | remoteTimeout (c id : Nat)
  /-- NARROW_BLOCK_RECEIVE (R702): A whole narrowed block is received, checked and widened to FP32. -/
  | narrowBlockReceive (c n p win : Nat) (whole : Bool) (desc rec blk : List Nat)
  /-- TWIN_TICK_MSG (R198): A tick message from the twin starts the follower's tick and sets its index. -/
  | twinTickMsg (c p index : Nat)
  /-- TWIN_PAIR (R720): A received PAIR is compared, and the pair enters PAIRED or MISMATCH. -/
  | twinPair (c baseId twinPlate mode mask contract : Nat) (parts : List (Nat × Nat × Nat)) (index : List Nat)
  /-- TWIN_HEARTBEAT_SEND (R717): Link logic sends HEARTBEAT every 1 ms. -/
  | twinHeartbeatSend (c : Nat)
  /-- TWIN_HEARTBEAT_MSG (R717): A twin HEARTBEAT updates the twin's heartbeat, boot count and SB_AGE. -/
  | twinHeartbeatMsg (c hb boot age : Nat)
  /-- TWIN_HEARTBEAT_LOSS (R742): No HEARTBEAT for 20 ms triggers takeover. -/
  | twinHeartbeatLoss (c : Nat)
  /-- PROOF_GO (R730): A reconstruction is posted to a proof slot in a role. -/
  | proofGo (c a p v : Nat)
  /-- PROOF_DIGEST_DONE (R731): The engine finishes the CRC-64 of a post and sends DIGEST. -/
  | proofDigestDone (c p i : Nat)
  /-- TWIN_DIGEST (R732): A received digest lets the slot be decided. -/
  | twinDigest (c p index i : Nat) (dec key : Bool) (len crc : Nat) (intra : Bool)
  /-- PROOF_CUTOFF (R732): At deadline minus 200 µs, undecided slots are decided LATE. -/
  | proofCutoff (c p : Nat)
  /-- CKPT_COPY_DONE (R739): When every byte is performed at the twin, CKPT_DONE is sent. -/
  | ckptCopyDone (c p : Nat)
  /-- CKPT_DONE (R739): The standby records CKPT_TICK and the half and marks itself ready. -/
  | ckptDone (c p index half : Nat)
  /-- OVERLAY_READY (R725): The twin reports a pending overlay for a protected partition. -/
  | overlayReady (c p applyTick : Nat)
  /-- OVERLAY_COMMIT (R725): The leader's commit or abort decides the overlay at apply_tick. -/
  | overlayCommit (c p applyTick : Nat) (commit : Bool)
  /-- FALLBACK_AT (R727): The leader names the tick at which both twins apply the fallback. -/
  | fallbackAt (c p t : Nat)
  /-- TWIN_FAIL (R742): A FAIL message triggers takeover for the named partitions. -/
  | twinFail (c mask cause : Nat)
  /-- TWIN_DETACH_MSG (R747): The twin's DETACH message separates the pair. -/
  | twinDetachMsg (c : Nat)
  /-- TWIN_REJOIN_MSG (R749): The twin's REJOIN message re-runs pairing. -/
  | twinRejoinMsg (c : Nat)
  /-- TWIN_SWITCH_MSG (R746): SWITCH moves the active role at tick T when the checkpoint is complete. -/
  | twinSwitchMsg (c mask t : Nat)
  /-- RESET_REQ (R753): The twin's reset request causes a warm reset when the boot count and SB_AGE match. -/
  | resetReq (c count : Nat)
  /-- TWIN_RESET_REQ_SEND (R752): The steward sends RESET_REQ once the twin has been silent for 10 s. -/
  | twinResetReqSend (c : Nat)
  /-- TWIN_CTRL_DETACH (R747): TWIN.CTRL DETACH starts separating the pair. -/
  | twinCtrlDetach (c a : Nat)
  /-- DETACH_DRAIN_END (R747): After in-flight work or 10 ms, both chips enter DETACHED. -/
  | detachDrainEnd (c : Nat)
  /-- TWIN_CTRL_REJOIN (R749): TWIN.CTRL REJOIN re-pairs the chips. -/
  | twinCtrlRejoin (c a : Nat)
  /-- TWIN_CTRL_SWITCH (R746): TWIN.CTRL SWITCH starts moving the active role. -/
  | twinCtrlSwitch (c a mask : Nat)
  /-- CONFIRM (R745): CONFIRM clears PROVISIONAL after a link-only takeover. -/
  | confirm (c a mask : Nat)
  /-- RELINQUISH (R745): RELINQUISH returns the active role to the former chip. -/
  | relinquish (c a mask : Nat)
  /-- CORE_FAULT_RECLAIM (R767): The steward requests a reclaim of a faulted core within 1 ms. -/
  | coreFaultReclaim (c k : Nat)
  /-- CORE_UNFENCE_AFTER_TICK (R770): After the tick ends, the reclaimed core is unfenced to PARKED. -/
  | coreUnfenceAfterTick (c k : Nat)
  /-- PARTITION_RECOVERY (R772): The steward stops the tick, reclaims cores, reinstalls units and unfences them. -/
  | partitionRecovery (c p : Nat)
  /-- UNIT_INTERNAL_UNCORR (R774): A unit with an uncorrectable error in its own state is fenced. -/
  | unitInternalUncorr (c kind n : Nat)
  /-- UNIT_REINSTALL (R775): The steward reinstalls a fenced unit's plate content and unfences it. -/
  | unitReinstall (c kind n : Nat)
  /-- RECLAIM_SET_AGENT (R777): An EVT.RECLAIM write with OP 0 sets AGENT only. -/
  | reclaimSetAgent (c a agent : Nat)
  /-- RECLAIM_FENCE (R777): The reclaim engine fences an agent. -/
  | reclaimFence (c a agent : Nat)
  /-- RECLAIM (R778): The reclaim engine fences an agent and returns its resources with new generations. -/
  | reclaim (c a agent : Nat)
  /-- RECLAIM_UNFENCE (R777): The reclaim engine returns a core to PARKED or a unit to service. -/
  | reclaimUnfence (c a agent : Nat)
  /-- STEWARD_WDG_EXPIRY (R783): The steward watchdog expires and the steward is restarted, reloading its image when the digest fails. -/
  | stewardWdgExpiry (c : Nat)
  /-- STW_KICK (R782): The steward reloads the steward watchdog. -/
  | stwKick (c a : Nat)
  /-- WDG_KICK (R788): A kick of the expected alternating value restarts stage 1; any other value counts as bad. -/
  | wdgKick (c a v : Nat)
  /-- WDG_PERIOD_WRITE (R787): The first in-range write sets and locks the chip watchdog period. -/
  | wdgPeriodWrite (c a v : Nat)
  /-- CHIP_WDG_STAGE1 (R789): Stage 1 expiry raises FATAL, interrupts the steward and starts stage 2. -/
  | chipWdgStage1 (c : Nat)
  /-- CHIP_WDG_STAGE2 (R790): Stage 2 expiry sends FAIL, lets the LER seal and performs a warm reset. -/
  | chipWdgStage2 (c : Nat)
  /-- CLOCK_MONITOR_TRIP (R792): Loss or drift of WOSC moves the chip watchdog onto the REFCLK backup. -/
  | clockMonitorTrip (c cause hz : Nat)
  /-- STW_DBG_HALT (R804): The steward is halted and both watchdogs freeze. -/
  | stwDbgHalt (c a : Nat)
  /-- STW_DBG_RESUME (R804): The steward resumes and the watchdogs resume their counts. -/
  | stwDbgResume (c a : Nat)
  /-- HBM_STACK_FAIL (R793): An HBM stack fails at run time and the chip halts on FATAL. -/
  | hbmStackFail (c stack : Nat)
  /-- INTERNAL_UNCORR (R793): An uncorrectable error in steward memory, reset controller or management network halts the chip. -/
  | internalUncorr (c what : Nat)
  /-- VLOG_CLEAR (R799): EVT.VLOG_CTRL CLEAR empties the violation log. -/
  | vlogClear (c a : Nat)
  /-- CORE_FAULT_CLEAR (R395): Writing 1 to CORE.FAULT.VALID clears the fault records. -/
  | coreFaultClear (c a k : Nat)
  /-- LER_FLUSH_AGE (R819): A buffer whose oldest entry has waited FLUSH × 10 ms is closed and written. -/
  | lerFlushAge (c : Nat)
  /-- LER_FRAME_WRITE_DONE (R820): A frame write to MRAM completes and the next closed buffer starts. -/
  | lerFrameWriteDone (c : Nat)
  /-- LER_CTRL_FLUSH (R819): LER_CTRL.FLUSH closes the filling buffer. -/
  | lerCtrlFlush (c a : Nat)
  /-- LER_CTRL_RELEASE (R836): LER_CTRL.RELEASE records LER_RELEASED and releases held windows. -/
  | lerCtrlRelease (c a : Nat)
  /-- FATAL_ACK (R840): The side-band acknowledges the oldest unread FATAL entry. -/
  | fatalAck (c : Nat)
  /-- EVENT_FORWARD (R924): The steward forwards staged entries to the chip and partition event rings in order. -/
  | eventForward (c : Nat)
  /-- STEWARD_HEARTBEAT_TICK (R100): The steward increments STEWARD.HEARTBEAT at least every 10 ms. -/
  | stewardHeartbeatTick (c : Nat)
  /-- SLOT_START (R844): A stipple slot begins and holds the partition's agents and limits. -/
  | slotStart (c p : Nat)
  /-- SLOT_END (R844): A stipple slot ends and the partition's agents resume. -/
  | slotEnd (c p : Nat)
  /-- BG_STEP (R848): A background step of at most 4 µs starts in a slot or idle time. -/
  | bgStep (c : Nat)
  /-- DRAM_PATROL_LINE (R854): The patrol reads a DRAM line and writes back a corrected line unless it was written meanwhile. -/
  | dramPatrolLine (c : Nat) (errs : List (Nat × Bool))
  /-- SRAM_SCRUB_STEP (R855): The scrub engine checks and corrects SRAM lines, leaving uncorrectable ones reported. -/
  | sramScrubStep (c kind n line : Nat) (errs : List (Nat × Bool))
  /-- THERMAL_SAMPLE (R852): The steward reads the thermal sensors every 100 ms. -/
  | thermalSample (c die stack power energy : Nat)
  /-- DROOP_CALIBRATION (R852): A test pattern on a pod's array adjusts its guardband. -/
  | droopCalibration (c d : Nat)
  /-- SERDES_ADAPTATION (R858): Each lane's equaliser is re-adapted in mission, and low margin is reported. -/
  | serdesAdaptation (c n : Nat) (low : Bool)
  /-- HBM_CALIBRATION (R852): One pseudo-channel of a stack is recalibrated. -/
  | hbmCalibration (c stack : Nat)
  /-- LER_PATROL (R856): The LER patrol reads a slot and refreshes corrected cells in place. -/
  | lerPatrol (c slot : Nat) (bad : Bool)
  /-- CMD_TAIL (R912): The host advances the command ring's producer counter. -/
  | cmdTail (c fn p v : Nat)
  /-- CPL_HEAD (R912): The host advances the completion ring's consumer counter. -/
  | cplHead (c fn p v : Nat)
  /-- EVT_HEAD (R912): The host advances an event ring's consumer counter. -/
  | evtHead (c fn p v : Nat)
  /-- TLM_HEAD (R912): The host advances the telemetry ring's consumer counter. -/
  | tlmHead (c fn p v : Nat)
  /-- CMD_FETCH (R913): The device fetches up to eight commands in ring order. -/
  | cmdFetch (c p code : Nat) (data : List Nat)
  /-- MSIX_DEFERRED (R927): A firing held back by CPL_MOD is delivered when the interval ends. -/
  | msixDeferred (c fn vec : Nat)
  /-- GET_INFO (R932): The mailbox returns firmware version, boot count and chip state. -/
  | getInfo (c : Nat)
  /-- MB_LER_READ (R933): The mailbox writes LER frames to host memory. -/
  | mbLerRead (c : Nat)
  /-- MB_LER_RELEASE (R836): The mailbox releases the held LER windows. -/
  | mbLerRelease (c : Nat)
  /-- SET_HOST_CAP (R935): The host cap is passed to the TMC through TMC_REQ. -/
  | setHostCap (c : Nat)
  /-- MB_GET_TRAY_CAP (R932): The tray cap state is fetched from the TMC. -/
  | mbGetTrayCap (c : Nat)
  /-- REQ_DORMANT (R935): A Dormant request is passed to the TMC. -/
  | reqDormant (c : Nat)
  /-- TMC_RSP_WRITE (R984): A matching word-0 write delivers the TMC's answer and clears VALID. -/
  | tmcRspWrite (c i v : Nat)
  /-- TMC_REQ_TIMEOUT (R934): With no TMC answer within 1 s, the service is answered TIMEOUT. -/
  | tmcReqTimeout (c : Nat)
  /-- HOST_LINK_RESET (R937): PERST#, link down or hot reset resets functions and HOSTQ registers. -/
  | hostLinkReset (c kind : Nat)
  /-- FLR (R938): A Function Level Reset resets a function and retires its partition's jobs. -/
  | flr (c fn : Nat)
  /-- BAR4_ACCESS (R903): A host BAR4 access reaches DRAM or is refused. -/
  | bar4Access (c fn off len : Nat) (write : Bool) (data : List Nat)
  /-- HOST_REFUSED_ACCESS (R905): A refused host access returns all ones or is discarded, and is recorded. -/
  | hostRefusedAccess (c fn bar off len : Nat) (write : Bool) (v : Nat)
  /-- HOST_MEM_COMPLETION (R907): The host's completion of a device request maps to an agent code. -/
  | hostMemCompletion (c id code : Nat) (data : List Nat)
  /-- CHIP_RESET_PERFORM (R943): After its seal, a reset is performed with the preservations of its kind. -/
  | chipResetPerform (c : Nat)
  /-- BOOT_RESET_DONE (R946): Internal reset ends and the boot ROM starts reading firmware. -/
  | bootResetDone (c : Nat)
  /-- FW_READ_DONE (R947): The firmware image is read and verified. -/
  | fwReadDone (c : Nat)
  /-- BOOT_RELEASE (R951): A side-band RELEASE lets the chip leave WAIT_RELEASE. -/
  | bootRelease (c v : Nat)
  /-- RELEASE_TIMEOUT (R953): After 500 ms at WAIT_RELEASE, the chip proceeds without a plate slot. -/
  | releaseTimeout (c : Nat)
  /-- HBM_TRAIN_DONE (R946): Stack training ends and self-test begins. -/
  | hbmTrainDone (c : Nat) (failed : List Nat)
  /-- SELF_TEST_DONE (R950): Self-test ends, or halts the chip on a failed unit. -/
  | selfTestDone (c : Nat) (failed : List Nat)
  /-- LER_SCAN (R832): The LER scan finds the newest frame, sets sequence and boot count and reholds windows. -/
  | lerScan (c : Nat)
  /-- BOOT_PLATE_LOAD (R954): At READY_FOR_PLATE, BOOT is raised and the selected plate is read and loaded. -/
  | bootPlateLoad (c : Nat)
  /-- PCIE_LINK_UP (R956): The endpoint completes link initialisation at the first tick or after staying ready. -/
  | pcieLinkUp (c : Nat)
  /-- DBG_HALT (R383): A halt request stops the core at its next boundary in DEBUG. -/
  | dbgHalt (c a k : Nat)
  /-- DBG_RESUME (R381): The core leaves DEBUG with its frozen limits. -/
  | dbgResume (c a k : Nat)
  /-- DBG_STEP (R387): The core executes one instruction and halts again. -/
  | dbgStep (c a k : Nat)
  /-- DBG_HALT_PART (R385): Every running or waiting core of the partition is halted. -/
  | dbgHaltPart (c a k : Nat)
  /-- DBG_RESUME_PART (R385): The partition's halted cores resume together. -/
  | dbgResumePart (c a k : Nat)
  /-- DBG_REGDATA_ACCESS (R386): The debugger reads or writes the selected core register. -/
  | dbgRegdataAccess (c a k : Nat) (write : Bool) (v : Nat)
  /-- DBG_MDATA_ACCESS (R386): The debugger reads or writes 8 bytes of core store. -/
  | dbgMdataAccess (c a k : Nat) (write : Bool) (v : Nat)
  /-- BREAKPOINT_HIT (R387): A breakpoint halts the core before the instruction. -/
  | breakpointHit (c k : Nat)
  /-- TAP_DBG_DATA_UPDATE (R391): Update-DR performs one 8-byte register access through the test access port. -/
  | tapDbgDataUpdate (irs drs pins : List Nat)
  /-- TAP_RESET (R389): TRST_N resets the test access port. -/
  | tapReset
  /-- FETCH_FAULT (R308): A fetch at a bad or unreadable PC raises a FETCH fault. -/
  | fetchFault (c k : Nat)
  /-- ILLEGAL_INSTR_WORD (R310): An unlisted opcode or reserved field raises ILLEGAL_INSTR. -/
  | illegalInstrWord (c k : Nat) (w : W64)
  /-- POSTED_STORE_ERROR (R371): An error response to a posted store raises an imprecise fault, or only an event after a tick stop. -/
  | postedStoreError (c id : Nat)
  /-- CORE_WATCHDOG_EXPIRY (R380): The core watchdog reaches 0 and raises WATCHDOG. -/
  | coreWatchdogExpiry (c k : Nat)
  /-- CWAIT_TIMEOUT (R346): A cwait or cwtag that waited stream_desc_us returns TIMEOUT. -/
  | cwaitTimeout (c k : Nat)
  /-- MESSAGE_ARRIVAL (R417): A message reaches its receive port, is queued or discarded, and releases a waiting recv. -/
  | messageArrival (c id : Nat) (errs : List (Nat × Nat))
  /-- CREDIT_RETURN (R410): A credit returns to the sender and releases a waiting send. -/
  | creditReturn (c id : Nat)
  /-- SEND_TIMEOUT (R412): A send waiting msg_wait_us for a credit completes with TIMEOUT. -/
  | sendTimeout (c k : Nat)
  /-- RECV_TIMEOUT (R413): A recv waiting msg_wait_us completes with TIMEOUT. -/
  | recvTimeout (c k : Nat)
  /-- SYNC_WAIT_TIMEOUT (R422): A sop WAIT waiting msg_wait_us completes with TIMEOUT. -/
  | syncWaitTimeout (c k : Nat)
  /-- ADD (R314): sD = sA + sB modulo 2^64. -/
  | add (c k : Nat) (w : W64)
  /-- SUB (R314): sD = sA − sB. -/
  | sub (c k : Nat) (w : W64)
  /-- MUL (R314): Low 64 bits of the product. -/
  | mul (c k : Nat) (w : W64)
  /-- MULH (R314): High 64 bits of the signed product. -/
  | mulh (c k : Nat) (w : W64)
  /-- MULHU (R314): High 64 bits of the unsigned product. -/
  | mulhu (c k : Nat) (w : W64)
  /-- DIV (R315): Signed quotient truncated toward zero. -/
  | div (c k : Nat) (w : W64)
  /-- DIVU (R315): Unsigned quotient. -/
  | divu (c k : Nat) (w : W64)
  /-- REM (R315): Signed remainder. -/
  | rem (c k : Nat) (w : W64)
  /-- REMU (R315): Unsigned remainder. -/
  | remu (c k : Nat) (w : W64)
  /-- AND (R314): Bitwise and. -/
  | and (c k : Nat) (w : W64)
  /-- OR (R314): Bitwise or. -/
  | or (c k : Nat) (w : W64)
  /-- XOR (R314): Bitwise exclusive or. -/
  | xor (c k : Nat) (w : W64)
  /-- ANDN (R314): sA and not sB. -/
  | andn (c k : Nat) (w : W64)
  /-- SHL (R314): Shift left by sB. -/
  | shl (c k : Nat) (w : W64)
  /-- SHR (R314): Logical shift right by sB. -/
  | shr (c k : Nat) (w : W64)
  /-- SAR (R314): Arithmetic shift right by sB. -/
  | sar (c k : Nat) (w : W64)
  /-- ROL (R314): Rotate left by sB. -/
  | rol (c k : Nat) (w : W64)
  /-- MIN (R314): Signed minimum. -/
  | min (c k : Nat) (w : W64)
  /-- MAX (R314): Signed maximum. -/
  | max (c k : Nat) (w : W64)
  /-- MINU (R314): Unsigned minimum. -/
  | minu (c k : Nat) (w : W64)
  /-- MAXU (R314): Unsigned maximum. -/
  | maxu (c k : Nat) (w : W64)
  /-- SLT (R314): Set if signed less. -/
  | slt (c k : Nat) (w : W64)
  /-- SLTU (R314): Set if unsigned less. -/
  | sltu (c k : Nat) (w : W64)
  /-- SEQ (R314): Set if equal. -/
  | seq (c k : Nat) (w : W64)
  /-- SEL (R314): sD = sA when sC is not 0, otherwise sB. -/
  | sel (c k : Nat) (w : W64)
  /-- CLZ (R314): Count of leading zeros. -/
  | clz (c k : Nat) (w : W64)
  /-- CTZ (R314): Count of trailing zeros. -/
  | ctz (c k : Nat) (w : W64)
  /-- POPC (R314): Count of set bits. -/
  | popc (c k : Nat) (w : W64)
  /-- ADDI (R314): sD = sA + imm. -/
  | addi (c k : Nat) (w : W64)
  /-- ANDI (R314): sD = sA and imm. -/
  | andi (c k : Nat) (w : W64)
  /-- ORI (R314): sD = sA or imm. -/
  | ori (c k : Nat) (w : W64)
  /-- XORI (R314): sD = sA xor imm. -/
  | xori (c k : Nat) (w : W64)
  /-- SHLI (R314): Shift left by an immediate. -/
  | shli (c k : Nat) (w : W64)
  /-- SHRI (R314): Logical shift right by an immediate. -/
  | shri (c k : Nat) (w : W64)
  /-- SARI (R314): Arithmetic shift right by an immediate. -/
  | sari (c k : Nat) (w : W64)
  /-- SLTI (R314): Set if signed less than imm. -/
  | slti (c k : Nat) (w : W64)
  /-- SLTUI (R314): Set if unsigned less than imm. -/
  | sltui (c k : Nat) (w : W64)
  /-- MULI (R314): Low 64 bits of sA × imm. -/
  | muli (c k : Nat) (w : W64)
  /-- LI (R314): sD = IMM48 sign-extended. -/
  | li (c k : Nat) (w : W64)
  /-- LIH (R314): Set bits 63:48 of sD. -/
  | lih (c k : Nat) (w : W64)
  /-- BEQ (R316): Branch if equal. -/
  | beq (c k : Nat) (w : W64)
  /-- BNE (R316): Branch if not equal. -/
  | bne (c k : Nat) (w : W64)
  /-- BLT (R316): Branch if signed less. -/
  | blt (c k : Nat) (w : W64)
  /-- BGE (R316): Branch if signed greater or equal. -/
  | bge (c k : Nat) (w : W64)
  /-- BLTU (R316): Branch if unsigned less. -/
  | bltu (c k : Nat) (w : W64)
  /-- BGEU (R316): Branch if unsigned greater or equal. -/
  | bgeu (c k : Nat) (w : W64)
  /-- JAL (R316): Link and jump by an offset. -/
  | jal (c k : Nat) (w : W64)
  /-- JALR (R316): Link and jump to sA + OFF. -/
  | jalr (c k : Nat) (w : W64)
  /-- BPANY (R316): Branch if any predicate bit is set. -/
  | bpany (c k : Nat) (w : W64)
  /-- BPNONE (R316): Branch if no predicate bit is set. -/
  | bpnone (c k : Nat) (w : W64)
  /-- LD8 (R319): Load a sign-extended byte. -/
  | ld8 (c k : Nat) (w : W64)
  /-- LD8U (R319): Load a zero-extended byte. -/
  | ld8u (c k : Nat) (w : W64)
  /-- LD16 (R319): Load a sign-extended halfword. -/
  | ld16 (c k : Nat) (w : W64)
  /-- LD16U (R319): Load a zero-extended halfword. -/
  | ld16u (c k : Nat) (w : W64)
  /-- LD32 (R319): Load a sign-extended word. -/
  | ld32 (c k : Nat) (w : W64)
  /-- LD32U (R319): Load a zero-extended word. -/
  | ld32u (c k : Nat) (w : W64)
  /-- LD64 (R319): Load 8 bytes. -/
  | ld64 (c k : Nat) (w : W64)
  /-- ST8 (R370): Store a byte, or a speculative byte in an epoch. -/
  | st8 (c k : Nat) (w : W64)
  /-- ST16 (R370): Store a halfword. -/
  | st16 (c k : Nat) (w : W64)
  /-- ST32 (R370): Store a word. -/
  | st32 (c k : Nat) (w : W64)
  /-- ST64 (R370): Store 8 bytes. -/
  | st64 (c k : Nat) (w : W64)
  /-- AMOADD (R359): Atomic fetch and add. -/
  | amoadd (c k : Nat) (w : W64)
  /-- AMOSWAP (R359): Atomic swap. -/
  | amoswap (c k : Nat) (w : W64)
  /-- AMOCAS (R359): Atomic compare and swap. -/
  | amocas (c k : Nat) (w : W64)
  /-- AMOMAX (R359): Atomic signed maximum. -/
  | amomax (c k : Nat) (w : W64)
  /-- VLDB (R321): Vector load of 8-bit lanes. -/
  | vldb (c k : Nat) (w : W64)
  /-- VLDH (R321): Vector load of 16-bit lanes. -/
  | vldh (c k : Nat) (w : W64)
  /-- VLDW (R321): Vector load of 32-bit lanes. -/
  | vldw (c k : Nat) (w : W64)
  /-- VLDD (R321): Vector load of 64-bit lanes. -/
  | vldd (c k : Nat) (w : W64)
  /-- VSTB (R321): Vector store of 8-bit lanes. -/
  | vstb (c k : Nat) (w : W64)
  /-- VSTH (R321): Vector store of 16-bit lanes. -/
  | vsth (c k : Nat) (w : W64)
  /-- VSTW (R321): Vector store of 32-bit lanes. -/
  | vstw (c k : Nat) (w : W64)
  /-- VSTD (R321): Vector store of 64-bit lanes. -/
  | vstd (c k : Nat) (w : W64)
  /-- VGTHW (R322): Gather of 32-bit words from the core store. -/
  | vgthw (c k : Nat) (w : W64)
  /-- VSCTW (R323): Scatter of 32-bit words to the core store. -/
  | vsctw (c k : Nat) (w : W64)
  /-- VADD (R327): Lane-wise integer add. -/
  | vadd (c k : Nat) (w : W64)
  /-- VSUB (R327): Lane-wise integer subtract. -/
  | vsub (c k : Nat) (w : W64)
  /-- VMUL (R327): Lane-wise integer multiply. -/
  | vmul (c k : Nat) (w : W64)
  /-- VMULH (R327): High half of the signed lane product. -/
  | vmulh (c k : Nat) (w : W64)
  /-- VMULHU (R327): High half of the unsigned lane product. -/
  | vmulhu (c k : Nat) (w : W64)
  /-- VAND (R327): Lane-wise and. -/
  | vand (c k : Nat) (w : W64)
  /-- VOR (R327): Lane-wise or. -/
  | vor (c k : Nat) (w : W64)
  /-- VXOR (R327): Lane-wise xor. -/
  | vxor (c k : Nat) (w : W64)
  /-- VSHL (R327): Lane-wise shift left. -/
  | vshl (c k : Nat) (w : W64)
  /-- VSHR (R327): Lane-wise logical shift right. -/
  | vshr (c k : Nat) (w : W64)
  /-- VSAR (R327): Lane-wise arithmetic shift right. -/
  | vsar (c k : Nat) (w : W64)
  /-- VMIN (R327): Lane-wise signed minimum. -/
  | vmin (c k : Nat) (w : W64)
  /-- VMAX (R327): Lane-wise signed maximum. -/
  | vmax (c k : Nat) (w : W64)
  /-- VMINU (R327): Lane-wise unsigned minimum. -/
  | vminu (c k : Nat) (w : W64)
  /-- VMAXU (R327): Lane-wise unsigned maximum. -/
  | vmaxu (c k : Nat) (w : W64)
  /-- VICMP (R328): Lane-wise integer compare into a predicate. -/
  | vicmp (c k : Nat) (w : W64)
  /-- VSEL (R327): Lane select by predicate. -/
  | vsel (c k : Nat) (w : W64)
  /-- VSUM (R327): Sum of active lanes into sD. -/
  | vsum (c k : Nat) (w : W64)
  /-- VDOT4 (R327): Four-byte dot product accumulated per 32-bit lane. -/
  | vdot4 (c k : Nat) (w : W64)
  /-- VNARROW (R333): Saturating narrow into a packed half. -/
  | vnarrow (c k : Nat) (w : W64)
  /-- VWIDEN (R333): Widen a packed half. -/
  | vwiden (c k : Nat) (w : W64)
  /-- VFADD (R260): IEEE add per lane. -/
  | vfadd (c k : Nat) (w : W64)
  /-- VFSUB (R260): IEEE subtract per lane. -/
  | vfsub (c k : Nat) (w : W64)
  /-- VFMUL (R260): IEEE multiply per lane. -/
  | vfmul (c k : Nat) (w : W64)
  /-- VFDIV (R260): IEEE divide per lane. -/
  | vfdiv (c k : Nat) (w : W64)
  /-- VFSQRT (R260): IEEE square root per lane. -/
  | vfsqrt (c k : Nat) (w : W64)
  /-- VFMA (R261): Fused A × B + C. -/
  | vfma (c k : Nat) (w : W64)
  /-- VFMS (R261): Fused A × B − C. -/
  | vfms (c k : Nat) (w : W64)
  /-- VFNMA (R261): Fused −(A × B) + C. -/
  | vfnma (c k : Nat) (w : W64)
  /-- VFMIN (R260): IEEE minimum. -/
  | vfmin (c k : Nat) (w : W64)
  /-- VFMAX (R260): IEEE maximum. -/
  | vfmax (c k : Nat) (w : W64)
  /-- VFMINN (R260): IEEE minimumNumber. -/
  | vfminn (c k : Nat) (w : W64)
  /-- VFMAXN (R260): IEEE maximumNumber. -/
  | vfmaxn (c k : Nat) (w : W64)
  /-- VFCMP (R332): Floating compare into a predicate. -/
  | vfcmp (c k : Nat) (w : W64)
  /-- VFCLASS (R332): Class code per lane. -/
  | vfclass (c k : Nat) (w : W64)
  /-- VFSUM (R262): Fixed-order horizontal sum into lane 0. -/
  | vfsum (c k : Nat) (w : W64)
  /-- VFRND (R260): roundToIntegral in mode RM. -/
  | vfrnd (c k : Nat) (w : W64)
  /-- VFSCB (R1017): scaleB by the integer lanes of B. -/
  | vfscb (c k : Nat) (w : W64)
  /-- VFLGB (R1017): logB as integer lanes. -/
  | vflgb (c k : Nat) (w : W64)
  /-- VFSGN (R261): Copy, negate, abs or copySign. -/
  | vfsgn (c k : Nat) (w : W64)
  /-- VFTOT (R260): totalOrder into a predicate. -/
  | vftot (c k : Nat) (w : W64)
  /-- VFCVT (R334): Conversion between floating formats. -/
  | vfcvt (c k : Nat) (w : W64)
  /-- VFCVTI (R273): Floating to integer conversion. -/
  | vfcvti (c k : Nat) (w : W64)
  /-- VICVTF (R260): Integer to floating conversion. -/
  | vicvtf (c k : Nat) (w : W64)
  /-- PAND (R312): Predicate and. -/
  | pand (c k : Nat) (w : W64)
  /-- POR (R312): Predicate or. -/
  | por (c k : Nat) (w : W64)
  /-- PXOR (R312): Predicate xor. -/
  | pxor (c k : Nat) (w : W64)
  /-- PANDN (R312): Predicate and-not. -/
  | pandn (c k : Nat) (w : W64)
  /-- PNOT (R312): Predicate not. -/
  | pnot (c k : Nat) (w : W64)
  /-- PSET (R313): Set the first sA predicate bits. -/
  | pset (c k : Nat) (w : W64)
  /-- PCNT (R313): Count the set predicate bits. -/
  | pcnt (c k : Nat) (w : W64)
  /-- PFROM (R312): Predicate from a scalar. -/
  | pfrom (c k : Nat) (w : W64)
  /-- PTO (R312): Scalar from a predicate. -/
  | pto (c k : Nat) (w : W64)
  /-- VMOV (R312): Vector move of active lanes. -/
  | vmov (c k : Nat) (w : W64)
  /-- VBCAST (R312): Broadcast a scalar to active lanes. -/
  | vbcast (c k : Nat) (w : W64)
  /-- VEXT (R313): Extract a lane into a scalar. -/
  | vext (c k : Nat) (w : W64)
  /-- VINS (R313): Insert a scalar into a lane. -/
  | vins (c k : Nat) (w : W64)
  /-- VPERM (R313): Permute lanes. -/
  | vperm (c k : Nat) (w : W64)
  /-- VSLIDE (R313): Slide lanes by sB. -/
  | vslide (c k : Nat) (w : W64)
  /-- SFU (R499): D = f(A) through a table or burin program. -/
  | sfu (c k : Nat) (w : W64)
  /-- SFUBA (R499): D = f(A + B) × C. -/
  | sfuba (c k : Nat) (w : W64)
  /-- SFUG (R499): D = A × f(B). -/
  | sfug (c k : Nat) (w : W64)
  /-- CMD (R340): Send a 64-byte command to a unit with a tag. -/
  | cmd (c k : Nat) (w : W64)
  /-- CWAIT (R344): Pop the oldest completion, waiting if needed. -/
  | cwait (c k : Nat) (w : W64)
  /-- CWTAG (R344): Pop the oldest completion of a tag, waiting if needed. -/
  | cwtag (c k : Nat) (w : W64)
  /-- CPOLL (R345): Pop the oldest completion without waiting. -/
  | cpoll (c k : Nat) (w : W64)
  /-- SEND (R411): Send a message on a channel, waiting for a credit. -/
  | send (c k : Nat) (w : W64)
  /-- RECV (R413): Receive a message, waiting for one. -/
  | recv (c k : Nat) (w : W64)
  /-- TSEND (R412): Send without waiting. -/
  | tsend (c k : Nat) (w : W64)
  /-- TRECV (R413): Receive without waiting. -/
  | trecv (c k : Nat) (w : W64)
  /-- SOP_READ (R421): Read an object or committed length. -/
  | sopRead (c k : Nat) (w : W64)
  /-- SOP_POST (R424): Post to an object and release waiters. -/
  | sopPost (c k : Nat) (w : W64)
  /-- SOP_WAIT (R1019): Wait on an object, queued in arrival order. -/
  | sopWait (c k : Nat) (w : W64)
  /-- SOP_TRY (R421): As WAIT, but BUSY at once. -/
  | sopTry (c k : Nat) (w : W64)
  /-- SOP_CLEAR (R421): Clear an EVENT. -/
  | sopClear (c k : Nat) (w : W64)
  /-- SOP_SET (R451): Expert set of a counter or sequence. -/
  | sopSet (c k : Nat) (w : W64)
  /-- ABIND (R443): Bind an append region. -/
  | abind (c k : Nat) (w : W64)
  /-- ATAIL (R447): Set the youngest epoch's mark in a region. -/
  | atail (c k : Nat) (w : W64)
  /-- AADV (R449): Advance a region's committed length. -/
  | aadv (c k : Nat) (w : W64)
  /-- ATRUNC (R449): Expert truncation of the committed length. -/
  | atrunc (c k : Nat) (w : W64)
  /-- AUNBIND (R449): Unbind an append region. -/
  | aunbind (c k : Nat) (w : W64)
  /-- EOPEN (R433): Open a speculative epoch. -/
  | eopen (c k : Nat) (w : W64)
  /-- ECOMMIT (R439): Commit an epoch and all older ones. -/
  | ecommit (c k : Nat) (w : W64)
  /-- EABORT (R440): Abort an epoch and all younger ones. -/
  | eabort (c k : Nat) (w : W64)
  /-- TEND (R350): Drain stores, abort epochs and park the core. -/
  | tend (c k : Nat) (w : W64)
  /-- FENCE (R352): Wait for stores, loads or commands as directed. -/
  | fence (c k : Nat) (w : W64)
  /-- CRD (R353): Read a control register. -/
  | crd (c k : Nat) (w : W64)
  /-- CWR (R353): Write a control register. -/
  | cwr (c k : Nat) (w : W64)
  /-- WDK (R379): Reload the core watchdog. -/
  | wdk (c k : Nat) (w : W64)
  /-- TRAP (R368): Raise a TRAP fault with a code. -/
  | trap (c k : Nat) (w : W64)
  /-- BKPT (R376): Debug halt, or a BREAK fault when debug is off. -/
  | bkpt (c k : Nat) (w : W64)
  /-- NOP (R352): No operation. -/
  | nop (c k : Nat) (w : W64)
  /-- STEWARD_RESUME (R783): The restarted steward firmware resumes at its recovery entry, drains the held notification queue in order, requests the reclaims of cores that faulted meanwhile and runs each overdue firmware task once. -/
  | stewardResume (c : Nat)
  /-- STANDBY_EXIT_DONE (R875): DRAM leaves self-refresh and fc runs, PWR.STATE goes from EXITING to ACTIVE and the parked links begin retraining. -/
  | standbyExitDone (c : Nat)
  /-- MB_UNKNOWN_SERVICE (R932): A mailbox GO naming an unlisted service, or carrying a bad payload, is answered with BOUNDS and logged; a GO while BUSY is discarded and sets OVERRUN. -/
  | mbUnknownService (c : Nat)
  /-- SMB_ALERT_N (R840): SMB_ALERT_N falls at a FATAL entry, and the TMC reads EVT.FATAL_ENTRY and relays the entry to its sessions in an EVENT frame. -/
  | smbAlertN (c : Nat)
  /-- PCIE_CONFIG_WRITE (R899): A configuration write sets VF Enable, NumVFs, Bus Master Enable or the D-state, moving ring ownership between the PF and the VFs and gating device requests. -/
  | pcieConfigWrite (c fn field v : Nat)
  /-- LINK_OUT_MODULE_INSERT (R1007): A cable or module is inserted in or removed from a LINK OUT cage; the TMC powers a module of at most 3.5 W or reports it unsupported, and the port state changes. -/
  | linkOutModuleInsert (k : Nat) (present passive : Bool) (mw : Nat)
  deriving DecidableEq, Repr

end Sys2Proof
end

