-- ==== Sys2Proof/Decode.lean ====
section
/-! DEFINITION. The decoder of table words. The command table gives no row any bits: its commands are register accesses, protocol
requests and events, and each stands in the queue as itself. -/
namespace Sys2Proof

/-- The command that a word spells by the table's bits: the table gives none of its rows bits, so no word spells one. -/
def decodeTableWord (_nbits _w : Nat) : Option Instr := none

end Sys2Proof
end

