-- ==== Sys2Proof/Config.lean ====
section
/-! DEFINITION. What the spec leaves open: constants with no body, so that no proof can use a value of one. -/
namespace Sys2Proof.Config

/-- A value the spec leaves undefined, the `n`-th the machine draws (DESIGN CHOICE, log entry 3). -/
opaque freeValue : Nat → W64

/-- What vfcvt gives where an integer does not fit its integer destination: source and destination format, rounding mode,
saturation, and the source element (DESIGN CHOICE, log entry 21). -/
opaque convInt : Nat → Nat → Nat → Bool → Nat → W64

/-- A byte of a transaction's header on a link, by kind, fields and offset: the spec gives no layout (R692; DESIGN CHOICE, log
entry 25). -/
opaque transByte : Nat → List Nat → Nat → Byte

/-- A byte the spec leaves undefined, the `i`-th of the `n`-th draw (DESIGN CHOICE, log entry 3). -/
opaque freeByte : Nat → Nat → Byte

/-- The HBM4 stack that holds a DRAM line under the chip's unpublished hash (R82): a stack number. -/
opaque dramStack : Nat → Nat → Nat

/-- Whether a WAKE_N pulse of 2 to 10 us sets the latch (R879): the `n`-th such pulse. -/
opaque shortPulseLatches : Nat → Bool

/-- The 48 bytes of the `n`-th management challenge (R63), one natural number below 2^384. -/
opaque challenge : Nat → Nat

/-- The finite FP32 bits of a coefficient of a built-in table of the arithmetic contract: table id,
segment 0 to 255, coefficient 0 to 2. The spec prints none but those of R496 (DEDUCED, log entry 6). -/
opaque contractCoef : Nat → Nat → Nat → W32

/-- The altitude, network and key defaults a factory configuration holds (R38): byte `i` of the factory copy. -/
opaque factoryByte : Nat → Byte

/-- A Holtad firmware or plate key digest held in the boot ROM or steward firmware (R160, R947): 384 bits. -/
opaque holtadKeyDigest : Nat → Nat

end Sys2Proof.Config
end

