-- ==== Sys2Proof/Machine/State.lean ====
section
/-! DEFINITION. The state of the tray and its chips, plain data: every register, store, queue, buffer,
counter, mode and pin the spec names, the queue of waiting commands, and the state right after reset. -/
namespace Sys2Proof.Machine

/-! ## Variants -/

/-- The three chip variants (R4). -/
inductive Variant where
  | ha720 | ha716 | ha708
  deriving DecidableEq, Repr, Inhabited

/-- The two trays (R1): an ST4 has four chips, an ST2 two. -/
inductive TrayType where
  | st4 | st2
  deriving DecidableEq, Repr, Inhabited

/-! ## Events, violations and the last-events record (R761, R811, R807) -/

/-- An event entry (R811); `cls` is bits 1:0 of the class byte, `summary` its bit 2. -/
structure Entry where
  time : Nat := 0
  id : Nat := 0
  cls : Nat := 0
  summary : Bool := false
  agent : Nat := 0xFF
  part : Nat := 0xFF
  code : Nat := 0
  level : Nat := 0
  tick : Nat := 0
  reps : Nat := 0
  arg1 : Nat := 0
  arg0 : Nat := 0
  deriving DecidableEq, Repr, Inhabited

/-- An entry of the violation log (R761). -/
structure Violation where
  time : Nat := 0
  addr : Nat := 0
  code : Nat := 0
  agent : Nat := 0
  part : Nat := 0xFF
  kind : Nat := 0
  detail : Nat := 0
  count : Nat := 0
  tick : Nat := 0
  deriving DecidableEq, Repr, Inhabited

/-- An occupied place of the staging FIFO (R817): its entry, and which consumers have taken it (R822). -/
structure FifoItem where
  entry : Entry := {}
  forwarded : Bool := false
  recorded : Bool := false
  /-- the LER controller has taken the entry into a frame buffer; an excluded entry (R821) never is (R813) -/
  buffered : Bool := false
  deriving DecidableEq, Repr, Inhabited

/-- A frame of the record (R807): its entries and the header fields that vary. -/
structure Frame where
  entries : List Entry := []
  flags : Nat := 0
  sequence : Nat := 0
  time : Nat := 0
  bootCount : Nat := 0
  deriving DecidableEq, Repr, Inhabited

/-- What a written MRAM slot holds: a valid frame, or bytes that fail R810 (a torn frame, R831).
`unreadable` says the MRAM cannot correct them (R838). -/
inductive Slot where
  | frame (f : Frame)
  | torn (unreadable : Bool)
  deriving DecidableEq, Repr, Inhabited

/-- An open summary of coalesced events (R823). -/
structure Summary where
  count : Nat := 0
  first : Nat := 0
  last : Nat := 0
  deriving DecidableEq, Repr, Inhabited

/-- The LER controller, the staging FIFO and the record's registers (R806 to R842). -/
structure Record where
  /-- the staging FIFO, oldest first (R817) -/
  fifo : List FifoItem := []
  /-- the filling buffer, oldest first (R819) -/
  filling : List Entry := []
  /-- TIME at which the filling buffer took its oldest entry (R819) -/
  fillSince : Nat := 0
  /-- a closed buffer waiting for its write (R820) -/
  closed : Option Frame := none
  /-- the frame write in flight: its slot and frame (R820) -/
  writing : Option (Nat × Frame) := none
  /-- writes that must complete before the seal in progress is complete; 0 while no seal is (R826, R827) -/
  sealWrites : Nat := 0
  /-- highest occupancy of the FIFO since reset (R842) -/
  high : Nat := 0
  /-- written MRAM slots, ascending (R806) -/
  mram : List (Nat × Slot) := []
  nextSeq : Nat := 1
  nextSlot : Nat := 0
  /-- EVT.LER_SEQ: sequence of the newest frame written -/
  newestSeq : Nat := 0
  /-- slot of the newest frame written -/
  newestSlot : Nat := 0
  bootCount : Nat := 0
  scanDone : Bool := false
  /-- the torn slot the scan found, to be named by the next frame (R833) -/
  repaired : Option Nat := none
  /-- held windows: sequence and slot of the HOLD frame (R834, R835) -/
  held : List (Nat × Nat) := []
  freezeLost : Nat := 0
  lerCfg : Nat := 0xA00
  /-- open summaries, INFO, WARN, ERROR, FATAL (R823, R825) -/
  sums : List (Option Summary) := [none, none, none, none]
  /-- EVT.COALESCED per class -/
  coalesced : List Nat := [0, 0, 0, 0]
  /-- EVT.RECENT, newest first, at most 64 (R840) -/
  recent : List Entry := []
  recentCount : Nat := 0
  /-- FATAL entries the TMC has not acknowledged, oldest first (R840) -/
  fatals : List Entry := []
  deriving DecidableEq, Repr, Inhabited

/-- The violation log and the reclaim and recovery registers of the EVT block (R799). -/
structure Recovery where
  /-- EVT.VLOG entries, newest first, at most 128 -/
  vlog : List Violation := []
  vlogHead : Nat := 0
  overwritten : Nat := 0
  violTotal : Nat := 0
  reclaimCode : Nat := 0
  reclaimAgent : Nat := 0
  stwRestarts : Nat := 0
  /-- EVT.CORR_HBM[n] -/
  corrHbm : List Nat := List.replicate 8 0
  /-- EVT.CORR_CORE[c] -/
  corrCore : List Nat := List.replicate 64 0
  deriving DecidableEq, Repr, Inhabited

/-- The run state of the steward (R783, R785, R804). -/
inductive StewardState where
  | running | restarting | held | dbgHalted
  deriving DecidableEq, Repr, Inhabited

/-- The watchdogs, the clock monitor and the steward (R782 to R798). -/
structure Watchdogs where
  periodMs : Nat := 1000
  locked : Bool := false
  stage2 : Bool := false
  /-- the next expected kick is 0xA5A5 -/
  next : Bool := false
  badKicks : Nat := 0
  frozen : Bool := false
  backup : Bool := false
  /-- WOSC cycles left in the stage: PERIOD_MS x 32 at its start (R786) -/
  left : Nat := 32000
  /-- fraction of a WOSC cycle that has passed, in 1/10^9 cycles -/
  phase : Nat := 0
  woscHz : Nat := 0
  tripped : Bool := false
  tripCause : Nat := 0
  tripTime : Nat := 0
  stwPeriodMs : Nat := 100
  /-- ns left on the steward watchdog -/
  stwLeft : Nat := 100000000
  steward : StewardState := .running
  /-- TIME of the steward restarts of the last 600 s (R785) -/
  restarts : List Nat := []
  /-- notifications a restart holds back, oldest first, at most 256 (R784) -/
  notify : List Nat := []
  heartbeat : Nat := 0
  /-- the chip has halted on FATAL (R793) -/
  fatalHalt : Bool := false
  deriving DecidableEq, Repr, Inhabited

/-! ## Cores (R302 to R404) -/

/-- CORE.STATE.STATE (R394). -/
inductive RunState where
  | halted | running | waiting | parked | faulted | debug | fenced
  deriving DecidableEq, Repr, Inhabited

/-- What a WAITING core waits for. `blocked` is an instruction that has had no effect yet and issues
again: a `cmd` at 32 outstanding (R343), a store at 16 posted (R372), a fence (R352), tend (R350). -/
inductive Wait where
  | anyCompletion (rd since : Nat)
  | tagged (rd tag since : Nat)
  | blocked (since : Nat)
  | remote (id since : Nat)
  | send (rd chan addr since : Nat)
  | recv (rd chan addr since : Nat)
  | sync (rd obj operand since : Nat)
  /-- the outcome of a wait that ended while the debugger held the core -/
  | answered (rd word : Nat)
  /-- the data of a remote load came while the debugger held the core: the bytes it read, as address and length (R387) -/
  | loaded (ranges : List (Nat × Nat))
  deriving DecidableEq, Repr, Inhabited

/-- A completion in a core's queue (R344). -/
structure Completion where
  value : Nat := 0
  unit : Nat := 0
  code : Nat := 0
  tag : Nat := 0
  deriving DecidableEq, Repr, Inhabited

/-- A posted store whose response is outstanding (R371, R372). -/
structure Posted where
  id : Nat := 0
  pc : Nat := 0
  addr : Nat := 0
  /-- it carries ORD = SEQ: nothing of the core is performed before it is (R358) -/
  seq : Bool := false
  deriving DecidableEq, Repr, Inhabited

/-- The state of a speculative epoch (R433). -/
inductive EpochState where
  | closed | openE | doomed
  deriving DecidableEq, Repr, Inhabited

/-- A speculative epoch of a core: its generation, the committed bytes of each line it wrote, newest first,
and its append marks (region, end before) (R434, R448). -/
structure Epoch where
  state : EpochState := .closed
  gen : Nat := 0
  lines : List (Nat × List Nat) := []
  marks : List (Nat × Nat) := []
  /-- saved lines whose shadow copy has an uncorrectable error (R855) -/
  bad : List Nat := []
  deriving DecidableEq, Repr, Inhabited

/-- CORE.FAULT, FAULT_PC and FAULT_ADDR (R395). -/
structure FaultRec where
  valid : Bool := false
  imprecise : Bool := false
  multi : Bool := false
  code : Nat := 0
  cause : Nat := 0
  pc : Nat := 0
  addr : Nat := 0
  deriving DecidableEq, Repr, Inhabited

/-- The debug registers of a core (R396 to R399). `skip` lets the instruction at a breakpoint execute
after RESUME or STEP; `resumeTo` is the state the core was halted from, `since` the TIME from which its limits are frozen (R381);
`request` is a halt request that waits for the core's next instruction (R383). -/
structure CoreDbg where
  reason : Nat := 0
  index : Nat := 0
  en : Bool := false
  partStop : Bool := false
  regsel : Nat := 0
  maddr : Nat := 0
  bkpt : List Nat := [0, 0, 0, 0]
  wpt : List Nat := [0, 0]
  wptCfg : List Nat := [0, 0]
  skip : Bool := false
  stepping : Bool := false
  request : Bool := false
  resumeTo : RunState := .halted
  since : Nat := 0
  deriving DecidableEq, Repr, Inhabited

/-- A unit command a core has issued: the core, its tag, QUIET and the 64 bytes (R338 to R343). -/
structure UnitCmd where
  /-- the model's own number of the command -/
  id : Nat := 0
  unit : Nat := 0
  core : Nat := 0
  tag : Nat := 0
  quiet : Bool := false
  bytes : List Nat := []
  /-- ACW of the issuing core at the cmd (R286, R340, R473) -/
  acw : Nat := 0
  /-- posted stores of the core that were outstanding at the cmd (R360) -/
  after : List Nat := []
  /-- 0, or one more than the stream context whose chain issued the command (R562) -/
  chain : Nat := 0
  /-- the number of that CHAIN, so that a stage of a chain that was cut completes for no later one (R561) -/
  chainId : Nat := 0
  /-- TIME at which it reached its unit (R347) -/
  time : Nat := 0
  deriving DecidableEq, Repr, Inhabited

/-- One core. -/
structure Core where
  /-- s0 to s31 (R302) -/
  s : List W64 := List.replicate 32 0
  /-- v0 to v31 -/
  v : List V512 := List.replicate 32 0
  /-- p0 to p7 -/
  p : List W64 := List.replicate 8 0
  /-- PC, 18 bits -/
  pc : Nat := 0
  acw : W32 := 0x11
  /-- IEEE flags raised since the core last read or wrote ACW, which merge after the next write (R404) -/
  late : Nat := 0
  state : RunState := .halted
  wait : Option Wait := none
  /-- queued completions, oldest first -/
  cq : List Completion := []
  /-- outstanding commands: unit and tag, oldest first (R343) -/
  outst : List (Nat × Nat) := []
  posted : List Posted := []
  /-- the instruction image the plate installed (R307), as words -/
  image : List W64 := []
  entryPc : Nat := 0
  hasCode : Bool := false
  /-- 64-byte lines of its instruction memory, by offset, whose error is uncorrectable, and correctable (R308, R855) -/
  badCode : List Nat := []
  softCode : List Nat := []
  /-- it has started a tick under the plate or overlay in force (R305) -/
  ran : Bool := false
  /-- a tick stop stopped it (R223) -/
  stopped : Bool := false
  /-- it has executed tend, or counts as having done so, in the running tick (R221, R769) -/
  ended : Bool := true
  tcycles : Nat := 0
  retired : Nat := 0
  /-- instructions retired since the core started this tick (R353) -/
  tretired : Nat := 0
  wdgPeriod : Nat := 0
  wdgLeft : Nat := 0
  ldpri : Nat := 0
  /-- row commands its SFU has accepted, oldest first (R511) -/
  rowq : List UnitCmd := []
  /-- lines of its running row command that have their tokens, by bucket (R566) -/
  rowPaid : List Nat := []
  /-- SFU.ROW_STATUS (R523) -/
  rowStatus : Nat := 0
  /-- its SFU is fenced, TIMEs of its fences, kept fenced (R774, R776) -/
  sfuFenced : Bool := false
  sfuFences : List Nat := []
  sfuKept : Bool := false
  fault : FaultRec := {}
  dbg : CoreDbg := {}
  epochs : List Epoch := List.replicate 4 {}
  /-- open epochs in the order they were opened -/
  epochOrder : List Nat := []
  /-- work ticks in a row in which the core faulted, and the tick of the newest (R771) -/
  faultRun : Nat := 0
  faultTick : Nat := 0
  /-- the steward's recovery of this core is due (R767) -/
  recover : Bool := false
  /-- it has faulted and not yet started a tick since (R768) -/
  inRec : Bool := false
  /-- the steward's recovery has reclaimed it and unfences it after the tick (R770) -/
  reclaimed : Bool := false
  deriving DecidableEq, Repr, Inhabited

/-! ## The plate's content (R131 to R157) -/

/-- A code entry (R142). -/
structure CodeEntry where
  core : Nat := 0
  entryPc : Nat := 0
  image : List W64 := []
  deriving DecidableEq, Repr, Inhabited

/-- A channel entry (R139). -/
structure ChanEntry where
  id : Nat := 0
  srcCore : Nat := 0
  srcPort : Nat := 0
  dstCore : Nat := 0
  dstPort : Nat := 0
  route : Nat := 0
  depth : Nat := 0
  msgBytes : Nat := 0
  deriving DecidableEq, Repr, Inhabited

/-- A sync_objects entry (R141). -/
structure SyncEntry where
  obj : Nat := 0
  kind : Nat := 0
  initial : Nat := 0
  deriving DecidableEq, Repr, Inhabited

/-- An SFU table (R145): 256 segments of three FP32 coefficients, first to last. -/
structure SfuTable where
  id : Nat := 0
  interp : Nat := 0
  coef : List Nat := []
  deriving DecidableEq, Repr, Inhabited

/-- A coder table (R148); the body as bytes. -/
structure CoderTable where
  id : Nat := 0
  kind : Nat := 0
  bins : Nat := 0
  body : List Nat := []
  deriving DecidableEq, Repr, Inhabited

/-- A narrowing profile (R151). -/
structure Profile where
  id : Nat := 0
  link : Nat := 0
  format : Nat := 0
  tensor : Nat := 0
  flags : Nat := 0
  clipHigh : Nat := 0
  channels : Nat := 0
  scales : List Nat := []
  zeros : List Nat := []
  deriving DecidableEq, Repr, Inhabited

/-- The plate content of one partition, after AUTO and defaults (R131 to R151). -/
structure PartPlate where
  podMask : Nat := 0
  cls : Nat := 0
  source : Nat := 0
  policy : Nat := 0
  period : Nat := 0
  phase : Nat := 0
  stipple : Nat := 4
  expert : Bool := false
  tickOut : Bool := false
  cuMask : Nat := 0
  teMask : Nat := 0
  linkMask : Nat := 0
  bwRead : Nat := 0
  bwWrite : Nat := 0
  bwRemote : Nat := 0
  peer0 : Nat := 0xFF
  peer1 : Nat := 0xFF
  dramBase : Nat := 0
  dramSize : Nat := 0
  spill : Nat := 0
  workCycles : Nat := 0
  fixedUs : Nat := 0
  podBytes : Nat := 0
  coreBytes : Nat := 0
  msgWaitUs : Nat := 200
  streamUs : Nat := 1000
  coreWdg : Nat := 5600000
  deriving DecidableEq, Repr, Inhabited

/-- The tables and objects of one partition's plate content. -/
structure PartTables where
  chans : List ChanEntry := []
  syncs : List SyncEntry := []
  code : List CodeEntry := []
  preload : List (Nat × List Nat) := []
  sfu : List SfuTable := []
  burin : List (Nat × List Nat) := []
  coder : List CoderTable := []
  narrow : List Profile := []
  deriving DecidableEq, Repr, Inhabited

/-- One partition's complete content as a plate, an overlay or a fallback gives it. -/
structure Content where
  plate : PartPlate := {}
  tables : PartTables := {}
  deriving DecidableEq, Repr, Inhabited

/-- A validated overlay that waits for its boundary (R174). `bytes` is B of R177. -/
structure Pending where
  content : Content := {}
  applyTick : Nat := 0
  bytes : Nat := 0
  /-- its fallback, followed by that one's own fallback, and so on (R155) -/
  fallback : List Content := []
  deriving DecidableEq, Repr, Inhabited

/-- PLATE.STATE.STATE (R188). -/
inductive LoadState where
  | empty | copying | validating | applying | loaded
  deriving DecidableEq, Repr, Inhabited

/-- What the loader does: a load from a boot, the host or the side-band (R161 to R163), UNLOAD, and the wait for the first tick starts of a
base plate that has been applied (R165). -/
inductive LoadKind where
  | none | boot | base | overlay | unload | starting
  deriving DecidableEq, Repr, Inhabited

/-- The loader and the PLATE block (R183 to R190). -/
structure Loader where
  src : Nat := 0
  len : Nat := 0
  state : LoadState := .empty
  /-- PLATE.RESULT as a word (R189) -/
  result : Nat := 0xFFFFFF0000
  baseId : Nat := 0
  /-- bytes 0 to 15 of the base plate's digest -/
  baseDigest : List Nat := []
  /-- what the load in progress is -/
  kind : LoadKind := .none
  /-- the state a refused load returns to -/
  back : LoadState := .empty
  /-- the staged copy (R162) -/
  staged : List Nat := []
  /-- the decoded base plate waiting for PLATE_APPLY: partitions with their content and fallbacks -/
  ready : List (Nat × Content × List Content) := []
  /-- pending overlays, per partition (R174) -/
  pending : List (Option Pending) := List.replicate 8 none
  /-- twin section: mode, protected mask, twin plate id (R153) -/
  twinMode : Nat := 0
  protectedMask : Nat := 0
  twinPlateId : Nat := 0
  linkReplayMax : Nat := 8
  linkRetrainMax : Nat := 3
  stewardWdgMs : Nat := 100
  chipWdgMs : Nat := 1000
  /-- the built-in SFU tables have been installed since reset (R528) -/
  builtins : Bool := false
  /-- the copy's source is host memory, and the code of a copy that its source refused (R162) -/
  fromHost : Bool := false
  copyCode : Nat := 0
  /-- UNLOAD waits for the running ticks (R167) -/
  unloading : Bool := false
  /-- plate id, digest, mode, mask, twin id and timeouts of the base plate being applied -/
  newPlateId : Nat := 0
  newDigest : List Nat := []
  newTwin : List Nat := []
  newTimes : List Nat := []
  /-- PWR_FAIL_N ended a boot-time load: retry once (R955) -/
  retry : Bool := false
  /-- the boot-time load in progress is that retry -/
  retried : Bool := false
  deriving DecidableEq, Repr, Inhabited

/-- A fetched host command that is not complete: opcode, flags, cmd_id and fields (R913). -/
structure HostCmd where
  opcode : Nat := 0
  flags : Nat := 0
  cmdId : Nat := 0
  /-- its position in the ring: the consumer counter at its fetch -/
  seq : Nat := 0
  bytes : List Nat := []
  deriving DecidableEq, Repr, Inhabited

/-- What the steward decides one at a time: an ADMIT_JOB or RETIRE_JOB of a partition, a share offer in W (R218). -/
inductive Decision where
  | admission (p : Nat) (x : HostCmd)
  | retire (p : Nat) (x : HostCmd)
  | offer (share : Nat)
  deriving DecidableEq, Repr, Inhabited

/-- An admitted job (R212, R915). -/
structure Job where
  slot : Nat := 0
  handle : Nat := 0
  cycles : Nat := 0
  us : Nat := 0
  /-- produces a tick completion at each tick end (R918) -/
  tickCpl : Bool := false
  cmdId : Nat := 0
  /-- its work has begun (R217) -/
  begun : Bool := false
  /-- RETIRE_JOBs that wait for the end of the tick (R217) -/
  retire : List HostCmd := []
  deriving DecidableEq, Repr, Inhabited

/-- One stipple slot of a tick (R843): start and end after the tick start in ns, whether it has begun, TIME at which it began,
and whether it has ended. -/
structure StippleSlot where
  start : Nat := 0
  stop : Nat := 0
  begun : Bool := false
  since : Nat := 0
  ended : Bool := false
  deriving DecidableEq, Repr, Inhabited

/-- What the telemetry record of a tick will say (R859): its start, index, kind of start, work time once complete, slot
time taken, bytes per class, violations and events, and the chip's counters at its start. -/
structure TickRec where
  start : Nat := 0
  index : Nat := 0
  absorbed : Bool := false
  overrun : Bool := false
  short : Bool := false
  workUs : Option Nat := none
  slotUs : Nat := 0
  rd : Nat := 0
  wr : Nat := 0
  outB : Nat := 0
  inB : Nat := 0
  violations : Nat := 0
  events : Nat := 0
  corrected : Nat := 0
  replays : Nat := 0
  busy : List Nat := []
  deriving DecidableEq, Repr, Inhabited

/-- Adaptation state of one channel of a narrowing profile (R707): a as a signed 8-bit number, quiet ticks, coded and clipped
elements of the tick, the largest finite magnitude as FP32 bits. -/
structure LnuChan where
  a : Int := 0
  q : Nat := 0
  n : Nat := 0
  clipped : Nat := 0
  m : Nat := 0
  deriving DecidableEq, Repr, Inhabited

/-- The carousel of a partition (R573 to R579): the ring of cores, the slots, the last step each position has issued, the
transfers (step, position) done and in flight, the ROTATEs and DISARMs that wait. -/
structure Carousel where
  armed : Bool := false
  gen : Nat := 0
  ring : List Nat := []
  slot0 : Nat := 0
  slot1 : Nat := 0
  bytes : Nat := 0
  last : List (Option Nat) := []
  done : List (Nat × Nat) := []
  moving : List (Nat × Nat) := []
  /-- ROTATEs that wait, with their position and step -/
  waiting : List (UnitCmd × Nat × Nat) := []
  disarms : List UnitCmd := []
  deriving DecidableEq, Repr, Inhabited

/-- One partition: what the plate gives it, its tick and its jobs (R195 to R245). -/
structure Part where
  isDefined : Bool := false
  plate : PartPlate := {}
  tables : PartTables := {}
  /-- the fallback, followed by that one's own fallback, and so on (R155) -/
  fallback : List Content := []
  tickIndex : Nat := 0
  tickStart : Nat := 0
  /-- a tick has started under the base plate in force -/
  ticked : Bool := false
  /-- no tick has started under the content in force (R197, R202) -/
  fresh : Bool := false
  /-- expert_unlock as it is in force (R182) -/
  expert : Bool := false
  /-- the next tick start is absorbed by an extension (R225) -/
  absorbNext : Bool := false
  /-- a boundary of an overlay or fallback has come while a tick ran, whose end it waits for (R175) -/
  applyDue : Bool := false
  /-- TIME at which the content applied (R197, R202) -/
  appliedAt : Nat := 0
  /-- a tick is running -/
  running : Bool := false
  /-- TIME at which the running tick, or the last, started its work -/
  workStart : Nat := 0
  /-- its deadline on TIME -/
  deadline : Nat := 0
  overrunBit : Bool := false
  prevSkipped : Bool := false
  extended : Bool := false
  prevExtended : Bool := false
  subst : Bool := false
  onFallback : Bool := false
  recovery : Bool := false
  /-- a partition recovery is in progress (R772) -/
  recovering : Bool := false
  overruns : Nat := 0
  lastWork : Nat := 0
  jobs : List Job := []
  admissions : Nat := 0
  /-- a needed fallback waits for the boundary (R234) -/
  fbPending : Bool := false
  halted : Bool := false
  coreRecoveries : Nat := 0
  partRecoveries : Nat := 0
  lastCore : Nat := 0
  /-- TIME at which partition recoveries began, newest first (R771) -/
  recTimes : List Nat := []
  slots : List StippleSlot := []
  /-- the next tick's PREV_SKIPPED (R225) -/
  skipNext : Bool := false
  /-- an overlay or fallback has applied at a boundary: its first tick starts now (R175) -/
  startNow : Bool := false
  /-- every job is retired at the end of the running tick (R938) -/
  retireAll : Bool := false
  /-- what the telemetry record of the tick will say (R859) -/
  tel : TickRec := {}
  /-- the running tick overran, so its job completions carry TICK_OVERRUN (R225) -/
  overran : Bool := false
  workIndex : Nat := 0
  /-- the token buckets: read, write, remote outbound, remote inbound (R565) -/
  tokRead : Nat := 0
  tokWrite : Nat := 0
  tokOut : Nat := 0
  tokIn : Nat := 0
  /-- the links of peer windows 0 and 1, as formed at the tick start (R688, R689) -/
  spread0 : List Nat := []
  spread1 : List Nat := []
  carousel : Carousel := {}
  /-- adaptation state per narrowing profile id (R707) -/
  lnu : List (Nat × List LnuChan) := []
  deriving DecidableEq, Repr, Inhabited

/-! ## Channels, synchronisation objects and append regions (R407 to R450) -/

/-- A message queued or in flight: its payload bytes, generation and sequence (R407 to R418). -/
structure Msg where
  gen : Nat := 0
  seq : Nat := 0
  payload : List Nat := []
  /-- its receive store slot has an uncorrectable error (R81, R855) -/
  bad : Bool := false
  deriving DecidableEq, Repr, Inhabited

/-- A channel (R139, R407, R452). -/
structure Chan where
  id : Nat := 0
  part : Nat := 0
  srcCore : Nat := 0
  srcPort : Nat := 0
  dstCore : Nat := 0
  dstPort : Nat := 0
  depth : Nat := 0
  msgBytes : Nat := 0
  gen : Nat := 0
  credits : Nat := 0
  txSeq : Nat := 0
  rxSeq : Nat := 0
  /-- messages in flight, oldest first -/
  flight : List Msg := []
  /-- messages queued at the receive port, oldest first -/
  queue : List Msg := []
  /-- credits on their way back to the sender: the generation, and the sequence number of the message whose slot is free (R415) -/
  returning : List (Nat × Nat) := []
  stale : Nat := 0
  deriving DecidableEq, Repr, Inhabited

/-- A synchronisation object (R419 to R426, R454). -/
structure SyncObj where
  obj : Nat := 0
  part : Nat := 0
  kind : Nat := 0
  value : Nat := 0
  limit : Nat := 0
  initial : Nat := 0
  gen : Nat := 0
  /-- the core that holds a mutex -/
  owner : Option Nat := none
  /-- waiting cores in arrival order, with the operand they wait with -/
  waiters : List (Nat × Nat) := []
  deriving DecidableEq, Repr, Inhabited

/-- An append-only region (R443 to R450). -/
structure Region where
  bound : Bool := false
  part : Nat := 0
  base : Nat := 0
  size : Nat := 0
  /-- committed lines of 64 bytes -/
  committed : Nat := 0
  gen : Nat := 0
  deriving DecidableEq, Repr, Inhabited

/-! ## Unit commands and remote requests -/

/-- What a remote or host request does when its response comes. -/
inductive ReqKind where
  | load (core rd size : Nat) (signed : Bool)
  | vload (core rd width pg : Nat)
  | store (core : Nat)
  | other (agent : Nat)
  deriving DecidableEq, Repr, Inhabited

/-- A request to another chip or to host memory that has no response yet (R690, R907). -/
structure Remote where
  id : Nat := 0
  kind : ReqKind := .other 0
  agent : Nat := 0
  part : Nat := 0xFF
  addr : Nat := 0
  len : Nat := 0
  write : Bool := false
  data : List Nat := []
  link : Nat := 0
  since : Nat := 0
  /-- data flits of its link that have yet to leave up to its last, at which its limit starts (R690) -/
  behind : Nat := 0
  superseded : Bool := false
  /-- the code that its response carries, for a store that this chip refuses (R371) -/
  code : Nat := 0
  deriving DecidableEq, Repr, Inhabited

/-- What a chip or the TMC has sent outwards: the model's own record of outputs. -/
inductive Output where
  /-- bytes written to host memory by function `fn` at a bus address -/
  | hostWrite (fn addr : Nat) (bytes : List Nat)
  | msix (fn vec : Nat)
  /-- the answer to a host read: value bytes, and poisoned or not -/
  | hostRead (fn : Nat) (bytes : List Nat) (poisoned : Bool)
  | unsupported (fn : Nat)
  /-- a host memory read the chip has issued -/
  | hostFetch (fn addr len : Nat)
  /-- a side-band Block Read answer -/
  | sideBand (bytes : List Nat)
  | sideBandNack
  /-- the command OPERATION sent to the power stage at a PMBus address: on or off (R22, R42) -/
  | pmbus (addr : Nat) (on : Bool)
  /-- the bits that a TAP's selected data register captured and shifts out (R389) -/
  | tap (captured : Nat)
  /-- a message on the LINK[0] management lane: kind and fields -/
  | twin (kind : Nat) (fields : List Nat)
  /-- a remote request or response: link, kind and fields -/
  | link (n kind : Nat) (fields : List Nat)
  | pin (name : Nat) (level : Bool)
  /-- what the configuration space of function `fn` of the endpoint below downstream port `device` states of it (R29, R896) -/
  | identity (device fn : Nat) (ids : List Nat)
  /-- a management frame, as its bytes (R60) -/
  | mgmt (session : Nat) (frame : List Nat)
  /-- a management session is closed -/
  | mgmtClose (session : Nat)
  /-- a register value returned to a requester -/
  | value (agent code val : Nat)
  deriving DecidableEq, Repr, Inhabited

/-! ## Pods: arrays, stream engines, carousel -/

/-- The state of an accumulator bank (R463). -/
inductive BankState where
  | empty | fp32 | int32
  deriving DecidableEq, Repr, Inhabited

/-- An accumulator bank: the accumulators that are not 0 by position row x 512 + column, rising, as FP32 bits or
as an INT32 modulo 2^32; the events recorded since it was cleared (R463, R472); its tile status (R471). -/
structure Bank where
  state : BankState := .empty
  acc : List (Nat × Nat) := []
  ovf : Bool := false
  sat : Bool := false
  status : Nat := 0
  deriving DecidableEq, Repr, Inhabited

/-- The state of a stream context (R585). -/
inductive CtxState where
  | free | idle | running | persist | error
  deriving DecidableEq, Repr, Inhabited

/-- A CHAIN that runs: its command, its template of five slots, the stages started and completed so far (READ, MMA, DRAIN,
ROW, WRITE), the groups whose last stage completed, and the first failure as (iteration, stage, code) (R557 to R563). -/
structure ChainRun where
  cmd : UnitCmd := {}
  tmpl : List (List Nat) := []
  started : List Nat := [0, 0, 0, 0, 0]
  done : List Nat := [0, 0, 0, 0, 0]
  groups : Nat := 0
  fail : Option (Nat × Nat × Nat) := none
  deriving DecidableEq, Repr, Inhabited

/-- Work of a stream context that has not begun, in the order of acceptance (R534): a RUN with its PERSIST bit, an ARM with
the far and near bases that it sets, a ring descriptor by its counter with the TAIL that made it pending, a SWAP, a CHAIN
and, while a chain runs, the READ of an iteration and the WRITE of a group. -/
inductive SeItem where
  | run (u : UnitCmd) (persist : Bool)
  | arm (u : UnitCmd) (far near : Nat)
  | ring (u : UnitCmd) (counter : Nat)
  | swap (u : UnitCmd)
  | chain (r : ChainRun)
  | chainRead (u : UnitCmd) (i : Nat)
  | chainWrite (u : UnitCmd) (g : Nat)
  deriving DecidableEq, Repr, Inhabited

/-- A descriptor that has begun: its item, its 64 bytes, the source bytes it has read, the code that ends it, OK while
nothing has gone wrong, and where the access stands that it stopped at (R542 to R545, R553). -/
structure SeWork where
  item : SeItem := .run {} false
  desc : List Nat := []
  data : List Nat := []
  code : Nat := 0
  stop : Nat := 0
  deriving DecidableEq, Repr, Inhabited

/-- A stream context (R530 to R555). -/
structure SeCtx where
  state : CtxState := .free
  owner : Nat := 0
  gen : Nat := 0
  /-- code of the failing descriptor while in ERROR -/
  code : Nat := 0
  /-- run-ahead depth in force -/
  depth : Nat := 0
  /-- the ring of the last ATTACH: base and size, size 0 for none -/
  ringBase : Nat := 0
  ringN : Nat := 0
  head : Nat := 0
  tail : Nat := 0
  q : List SeItem := []
  begun : List SeWork := []
  /-- fetched ring descriptors by counter: the code of the fetch and the bytes (R548) -/
  fetched : List (Nat × Nat × List Nat) := []
  /-- the persistent descriptor and its RUN (R554) -/
  persist : Option (UnitCmd × List Nat) := none
  /-- TIME since which the current descriptor is current (R544) -/
  since : Nat := 0
  /-- lines that have their tokens, by bucket, while others of the same transfer wait; empty while none waits (R566) -/
  paid : List Nat := []
  deriving DecidableEq, Repr, Inhabited

/-- One pod: its matrix array and its stream engine (R456 to R488, R530 to R585). -/
structure Pod where
  fenced : Bool := false
  /-- TIMEs of its fences under R774, newest first, and kept fenced (R776) -/
  fences : List Nat := []
  kept : Bool := false
  gen : Nat := 0
  bank0 : Bank := {}
  bank1 : Bank := {}
  /-- accepted array commands, oldest first; the flag says it has begun (R466, R469) -/
  arrq : List (UnitCmd × Bool) := []
  /-- POD.ARR_OSTATUS -/
  ostatus : Nat := 0
  mmaCount : Nat := 0
  busyCycles : Nat := 0
  duty : Nat := 0
  ctxs : List SeCtx := List.replicate 32 {}
  seBytesRd : Nat := 0
  seBytesWr : Nat := 0
  seBytesRem : Nat := 0
  seWait : Nat := 0
  psCorrected : Nat := 0
  deriving DecidableEq, Repr, Inhabited

/-- The state of a coder session (R635). -/
inductive SessState where
  | closed | enc | dec | error
  deriving DecidableEq, Repr, Inhabited

/-- A speculated symbol: the identity it was guessed under, the symbol, and the decoder's state after it (R614, R615). -/
structure Spec where
  ident : Nat × Nat × Nat := (0, 0, 0)
  sym : Nat := 0
  code : Nat := 0
  range : Nat := 0
  pos : Nat := 0
  deriving DecidableEq, Repr, Inhabited

/-- A coder session: the range coder's state (R596, R597), its buffers, and its run-ahead. -/
structure Session where
  state : SessState := .closed
  /-- code that put it in ERROR -/
  err : Nat := 0
  low : Nat := 0
  range : Nat := 0
  cache : Nat := 0
  cached : Bool := false
  pending : Nat := 0
  code : Nat := 0
  /-- output or input position -/
  pos : Nat := 0
  /-- dst or src -/
  addr : Nat := 0
  /-- capacity or length -/
  len : Nat := 0
  depth : Nat := 0
  clamped : Nat := 0
  spec : List Spec := []
  /-- identity of the session's last record: table, k, p (R614) -/
  last : Option (Nat × Nat × Nat) := none
  deriving DecidableEq, Repr, Inhabited

/-- One coder unit (R586 to R635). -/
structure CoderUnit where
  fenced : Bool := false
  /-- TIMEs of its fences under R774, newest first, and kept fenced (R776) -/
  fences : List Nat := []
  kept : Bool := false
  gen : Nat := 0
  owner : Option Nat := none
  /-- accepted commands, oldest first -/
  q : List UnitCmd := []
  sess : List Session := List.replicate 8 {}
  /-- the session that speculates -/
  speculating : Option Nat := none
  /-- lines of its running command that have their tokens, by bucket (R566) -/
  paid : List Nat := []
  symbols : Nat := 0
  bytesOut : Nat := 0
  bytesIn : Nat := 0
  raHits : Nat := 0
  raRollbacks : Nat := 0
  deriving DecidableEq, Repr, Inhabited

/-- One tree engine (R636 to R667). -/
structure TreeEngine where
  fenced : Bool := false
  /-- TIMEs of its fences under R774, newest first, and kept fenced (R776) -/
  fences : List Nat := []
  kept : Bool := false
  gen : Nat := 0
  owner : Option Nat := none
  /-- accepted commands, oldest first -/
  q : List UnitCmd := []
  /-- TIME since which a read of its running command waits for tokens (R656) -/
  since : Nat := 0
  /-- lines of its running command that have their tokens, by bucket (R566) -/
  paid : List Nat := []
  /-- the tree store: its bytes that are not 0 -/
  store : List Host.Cell := []
  status : Nat := 0
  samples : Nat := 0
  visits : Nat := 0
  streamBytes : Nat := 0
  deriving DecidableEq, Repr, Inhabited

/-- The state of a chip link (R715). -/
inductive LinkState where
  | down | training | up | held | retraining
  deriving DecidableEq, Repr, Inhabited

/-- A numbered flit a sender holds: sequence number, type, its payload as far as it is used, and the TIME it was last sent
(R668, R671, R672). -/
structure Flit where
  seq : Nat := 0
  typ : Nat := 1
  payload : List Nat := []
  sent : Nat := 0
  deriving DecidableEq, Repr, Inhabited

/-- One chip link with its LNU's counters (R668 to R682, R714 to R716). -/
structure Link where
  state : LinkState := .down
  /-- FORCE_DOWN holds it down (R716) -/
  forced : Bool := false
  fenced : Bool := false
  /-- TIMEs of its fences under R774, newest first, and kept fenced (R776) -/
  fences : List Nat := []
  kept : Bool := false
  gen : Nat := 0
  farSerial : Nat := 0
  farChip : Nat := 0
  farLink : Nat := 0
  replays : Nat := 0
  retrains : Nat := 0
  downs : Nat := 0
  fecCorrected : Nat := 0
  crcErrors : Nat := 0
  txBytes : Nat := 0
  rxBytes : Nat := 0
  /-- replays in the current episode (R673) -/
  episode : Nat := 0
  /-- retrains since the last interval of 1 s in UP (R675) -/
  recent : Nat := 0
  /-- TIME at which it entered UP -/
  upSince : Nat := 0
  /-- TIME at which its training began -/
  trainSince : Nat := 0
  /-- TIME at which it went down -/
  downSince : Nat := 0
  /-- seq of the last flit accepted; 255 before the first -/
  rxLast : Nat := 255
  nakSent : Bool := false
  /-- flits accepted and not yet acknowledged -/
  unacked : Nat := 0
  txSeq : Nat := 0
  /-- the replay buffer, oldest first -/
  held : List Flit := []
  /-- flits that wait for a place in the replay buffer, oldest first: type and payload -/
  waiting : List (Nat × List Nat) := []
  /-- data flits sent since the last management flit (R677) -/
  sinceMgmt : Nat := 7
  /-- the flits that the link has put on its lanes, oldest first: 256 bytes each (R668) -/
  wire : List (List Nat) := []
  coded : Nat := 0
  escapes : Nat := 0
  clipped : Nat := 0
  rawBlocks : Nat := 0
  deriving DecidableEq, Repr, Inhabited

/-- A post to a proof slot: role, KEY, length, CRC-64 and its sender's INTRA_DUE (R730 to R732). -/
structure Post where
  dec : Bool := false
  key : Bool := false
  len : Nat := 0
  crc : Nat := 0
  intra : Bool := false
  deriving DecidableEq, Repr, Inhabited

/-- PROOF_SLOT.OUTCOME (R755). -/
inductive Proof where
  | empty | pending | matched | mismatch | late | unchecked | error
  deriving DecidableEq, Repr, Inhabited

/-- A proof slot (R730 to R738): its outcome, the post in progress with its bytes' address, and both digests. -/
structure ProofSlot where
  outcome : Proof := .empty
  code : Nat := 0
  reason : Nat := 0
  event : Nat := 0xFFFF
  addr : Nat := 0
  post : Post := {}
  posting : Bool := false
  /-- lines of the post that have their tokens, by bucket (R566, R731) -/
  paid : List Nat := []
  mine : Option Post := none
  theirs : Option Post := none
  deriving DecidableEq, Repr, Inhabited

/-- A checkpoint copy in progress (R739): its work index, its packed bytes, the lines that it has read, and those that have their tokens, by
bucket (R566). -/
structure Copy where
  index : Nat := 0
  bytes : List Nat := []
  lines : Nat := 0
  paid : List Nat := []
  deriving DecidableEq, Repr, Inhabited

/-- A SWITCH in progress (R746): its tick, how often it has moved, and whether this chip becomes active. -/
structure Switch where
  tick : Nat := 0
  moves : Nat := 0
  toMe : Bool := false
  deriving DecidableEq, Repr, Inhabited

/-- TWIN.PART[p] and what the twin engine keeps for a partition (R717 to R756). -/
structure TwinPart where
  active : Bool := false
  takeover : Bool := false
  provisional : Bool := false
  ckptValid : Bool := false
  ckptSel : Nat := 0
  ready : Bool := false
  intraDue : Bool := false
  proofAddr : Nat := 0
  proofLen : Nat := 0
  slots : List ProofSlot := List.replicate 8 {}
  ckptList : Nat := 0
  ckptCount : Nat := 0
  ckptEvent : Nat := 0
  ckptDst : Nat := 0
  ckptHalf : Nat := 0
  ckptTick : Nat := 0
  ckptSkips : Nat := 0
  mismatches : Nat := 0
  late : Nat := 0
  /-- a takeover trigger waits for the next tick start: its cause, and whether LINK[0] alone gave it (R742, R745) -/
  trigger : Option (Nat × Bool) := none
  /-- local digests of the tick that ended, by slot, with its work index (R738) -/
  kept : List (Nat × Post) := []
  keptIndex : Nat := 0
  copy : Option Copy := none
  /-- work index of the last CKPT_DONE sent (R746) -/
  sent : Option Nat := none
  switch : Option Switch := none
  /-- apply_tick of the twin's OVERLAY_READY (R725) -/
  ovReady : Option Nat := none
  /-- apply_tick and commit of the OVERLAY_COMMIT sent or received (R725) -/
  ovCommit : Option (Nat × Bool) := none
  /-- tick at which the fallback applies on both chips (R727) -/
  fbAt : Option Nat := none
  /-- index to take at the next tick start (R728) -/
  nextIndex : Option Nat := none
  deriving DecidableEq, Repr, Inhabited

/-- TWIN.STATE.PAIR (R722). -/
inductive PairState where
  | unpaired | pairing | paired | mismatch | degraded | detached
  deriving DecidableEq, Repr, Inhabited

/-- The body of a PAIR message (R717): BASE_ID, twin_plate_id, mode, protected_mask, ARITH_CONTRACT, for each protected
partition its period, source and LINK[0] bit, and the tick indices that R728 compares. -/
structure PairMsg where
  baseId : Nat := 0
  twinPlate : Nat := 0
  mode : Nat := 0
  mask : Nat := 0
  contract : Nat := 0
  parts : List (Nat × Nat × Nat) := []
  index : List Nat := []
  deriving DecidableEq, Repr, Inhabited

/-- The twin engine (R717 to R756). -/
structure Twin where
  pair : PairState := .unpaired
  /-- the twin's PAIR, once received under the plate in force -/
  peer : Option PairMsg := none
  /-- the pairing that runs is a REJOIN (R749) -/
  rejoin : Bool := false
  twinPlate : Nat := 0
  hbTime : Nat := 0
  takeovers : Nat := 0
  resetsSent : Nat := 0
  parts : List TwinPart := List.replicate 8 {}
  /-- the twin's STEWARD.HEARTBEAT, boot count and SB_AGE as last carried, and TIME at which the heartbeat last advanced -/
  hbValue : Nat := 0
  hbBoot : Nat := 0
  hbAge : Nat := 0
  hbSince : Nat := 0
  /-- TIME of the HEARTBEAT that it last sent (R717) -/
  hbSent : Option Nat := none
  /-- a HEARTBEAT has been received since the pair formed, and its loss has triggered -/
  hbLost : Bool := false
  /-- boot count of the twin for which RESET_REQ has been sent (R752) -/
  resetFor : Option Nat := none
  /-- TIME at which DETACH was written or received, until the pair is DETACHED (R747) -/
  detaching : Option Nat := none
  deriving DecidableEq, Repr, Inhabited

/-- A management session (R60, R63 to R68): the challenge it holds, by the number of its draw, its failed AUTHs, its role (0 none,
1 OBSERVER, 2 OPERATOR), and the tray uptime in ns at which its last frame arrived. -/
structure Mgmt where
  isOpen : Bool := false
  challenge : Option Nat := none
  fails : Nat := 0
  role : Nat := 0
  last : Nat := 0
  deriving DecidableEq, Repr, Inhabited

/-- A management request whose action is not complete (R70): its session, sequence and type, the chip, the tray uptime at which the
action began, and its payload where it has yet to be carried out (R36). -/
structure MgmtWait where
  session : Nat := 0
  seq : Nat := 0
  typ : Nat := 0
  chip : Nat := 0
  since : Nat := 0
  payload : List Nat := []
  /-- uptime at which the chip's main rails were enabled, for a request for Active (R71) -/
  enabledAt : Option Nat := none
  deriving DecidableEq, Repr, Inhabited

/-- A cap request that waits for its turn (R50, R887): its source (0 the host, 1 a management client, 2 a limit of the TMC), the cap,
and whom to answer: a chip's mailbox or a session, with the sequence. -/
structure CapReq where
  source : Nat := 0
  cap : Nat := 0
  dest : Nat := 0
  seq : Nat := 0
  deriving DecidableEq, Repr, Inhabited

/-- A wake that R999 holds: chips, and the tray uptime at which it was asked for. -/
structure WakeHold where
  mask : Nat := 0
  since : Nat := 0
  deriving DecidableEq, Repr, Inhabited

/-- What the TMC keeps of a chip's steward (R44, R795): the heartbeat last read and the uptime at which it last advanced, none before
the watch begins; the step of the recovery taken (2 side-band reset, 3 cold reset) and its uptime; uptimes of the cold resets;
failed and held off. -/
structure ChipWatch where
  beat : Option (Nat × Nat) := none
  step : Nat := 0
  stepAt : Nat := 0
  cold : List Nat := []
  failed : Bool := false
  deriving DecidableEq, Repr, Inhabited

/-- The TMC, the tray flash, the flash switch, the tray's sensors and connectors (R32 to R75, R993 to R1015). -/
structure Tmc where
  /-- the TMC has started (R43) -/
  up : Bool := false
  /-- ns since it started -/
  uptime : Nat := 0
  /-- the tray flash by offset: its bytes that are not 0 (R32) -/
  flash : List Host.Cell := []
  /-- the slots marked active: TMC firmware, steward firmware, plate store by bit (R33) -/
  tmcSlot : Nat := 0
  fwSlot : Nat := 0
  plates : Nat := 0
  /-- the configuration copy in force, 4,096 bytes, and where it stands: copy 0 or 1, 2 the factory copy (R38) -/
  config : List Nat := []
  copyNo : Nat := 2
  /-- the network settings in force: bytes 27 and 40 to 111 of the copy as the TMC started (R39) -/
  net : List Nat := []
  /-- uptime at which the main rails of each chip were last enabled (R71) -/
  railsAt : List Nat := [0, 0, 0, 0]
  sessions : List Mgmt := List.replicate 4 {}
  /-- the session that holds the write lease (R66) -/
  lease : Option Nat := none
  /-- challenges issued (R63) -/
  challenges : Nat := 0
  /-- uptime of the last HEARTBEAT (R67) -/
  beatAt : Nat := 0
  waits : List MgmtWait := []
  /-- the caps that the host and a management client ask for, and the thermal limit, in W (R45) -/
  hostCap : Nat := 760
  mgmtCap : Nat := 760
  thermal : Nat := 760
  /-- the effective cap in force -/
  cap : Nat := 760
  caps : List CapReq := []
  /-- uptime of the last step of the thermal limit (R888) -/
  thermalAt : Nat := 0
  /-- commits whose draw counts as the former share: chip, uptime (R887) -/
  commits : List (Nat × Nat) := []
  /-- shares that waking chips have yet to be offered (R52) -/
  wakeShare : List (Nat × Nat) := []
  /-- failed fans by bit, and the duty in percent at which the TMC drives the others (R40, R41) -/
  fanFault : Nat := 0
  fanDuty : Nat := 0
  /-- inlet temperature in 1/16 degree; uptimes since which it has been above the shutdown limit, and at or below the return limit;
  the chips that the shutdown took to Dormant (R1011, R1012) -/
  inlet : Int := 0
  hotSince : Option Nat := none
  coolSince : Option Nat := none
  inletDown : Nat := 0
  /-- filter warning, and the uptime since which its conditions have held (R1015) -/
  filter : Bool := false
  filterSince : Option Nat := none
  inputMv : Nat := 48000
  /-- the PWR_FAIL pin is asserted; PWR_FAIL_N is low; uptime since which the input has been good (R58, R998) -/
  pinFail : Bool := false
  pwrFail : Bool := false
  goodSince : Option Nat := none
  held : List WakeHold := []
  /-- chips to wake once their rails are off (R57) -/
  afterOff : Nat := 0
  /-- start sets that wait for their release (R952) -/
  sets : List (List Nat) := []
  watch : List ChipWatch := List.replicate 4 {}
  /-- chips to which DORMANT has been written (R877) -/
  dormant : Nat := 0
  /-- tray sleep, and the uptime at which it began (R74, R37) -/
  sleeping : Bool := false
  sleepAt : Nat := 0
  /-- the wake timer has run out in this sleep (R37) -/
  timerDone : Bool := false
  /-- the flash switch: the chip it is granted to, and the chips that wait, in the order of their grants (R35) -/
  holder : Option Nat := none
  asking : List Nat := []
  /-- the LINK OUT cages: 0 empty, 1 a cable or a module that is served, 2 an unsupported module (R1007) -/
  ports : List Nat := List.replicate 8 0
  /-- the model's own: free values drawn -/
  free : Nat := 0
  /-- the model's own: what the TMC has sent outwards, newest first -/
  out : List Output := []
  deriving DecidableEq, Repr, Inhabited

/-! ## Power, start-up, the host interface, the side-band and the test port -/

/-- PWR.STATE.STATE (R893). -/
inductive PowerState where
  | active | idle | enteringStandby | standby | exiting | dormantEntry | dormantReady
  deriving DecidableEq, Repr, Inhabited

/-- The power controller (R866 to R894). -/
structure Power where
  state : PowerState := .active
  throttled : Bool := false
  /-- fc in force, in MHz -/
  fc : Nat := 1400
  /-- committed fc -/
  target : Nat := 1400
  share : Nat := 0
  /-- PWR.OFFER_RESULT: DONE, CODE, PART, SHARE_W -/
  offerDone : Bool := false
  offerCode : Nat := 0
  offerPart : Nat := 0xFF
  offerShare : Nat := 0
  /-- the held offer: share, fc and the TIME it was answered (R883) -/
  held : Option (Nat × Nat × Nat) := none
  autoIdle : Bool := true
  idleDelay : Nat := 10
  powerMw : Nat := 0
  /-- signed 16-bit temperatures in 1/16 degree, as stored in PWR.TEMP -/
  dieTemp : Nat := 0
  stackTemp : Nat := 0
  energyMj : Nat := 0
  /-- TIME since which the idle conditions have held (R869) -/
  idleSince : Option Nat := none
  /-- TIME since which the die has read 105 degrees or more, and 95 or less (R889) -/
  hotSince : Option Nat := none
  coolSince : Option Nat := none
  /-- partitions whose fallback an accepted share waits for, and when it was accepted (R234, R235) -/
  needFallback : List Nat := []
  acceptedAt : Nat := 0
  /-- the WAKE_N detector (R879) -/
  armed : Bool := false
  latched : Bool := false
  rails : Bool := false
  powerGood : Bool := false
  /-- PWR_FAIL_N is low at the chip (R119) -/
  pwrFail : Bool := false
  /-- Idle was left for an SRAM scrub pass, after which it is entered again without the delay (R871) -/
  scrubRun : Bool := false
  /-- the seal of a Dormant entry has begun (R877) -/
  dormSeal : Bool := false
  deriving DecidableEq, Repr, Inhabited

/-- CHIP.BOOT_STAGE.STAGE (R946). -/
inductive Stage where
  | reset | fwRead | fwVerify | waitRelease | hbmTrain | selfTest | lerScan | ready | plateLoad | running | failed
  deriving DecidableEq, Repr, Inhabited

/-- A reset kind (R942). -/
inductive ResetKind where
  | powerOn | warm | cold | sideband | pin | watchdog | twin | wake
  deriving DecidableEq, Repr, Inhabited

/-- The state of the PCIe endpoint's link (R956). -/
inductive PcieState where
  | down | training | up
  deriving DecidableEq, Repr, Inhabited

/-- Start-up (R942 to R962). -/
structure Boot where
  stage : Stage := .reset
  fwSlot : Nat := 0
  released : Bool := false
  plateSlot : Nat := 0xF
  /-- the plate slot that the release carried (R951) -/
  bootSlot : Nat := 0xF
  cause : ResetKind := .powerOn
  fwVersion : Nat := 0
  fwDigest : List Nat := []
  /-- TIME at which the stage began, and at which stage RESET ended -/
  since : Nat := 0
  resetEnd : Nat := 0
  /-- the other steward slot has been read (R948) -/
  triedOther : Bool := false
  /-- the stacks kept their contents and retrain (R944) -/
  retrain : Bool := false
  /-- a reset that waits for its seal (R827, R945) -/
  pendingReset : Option ResetKind := none
  pcie : PcieState := .down
  /-- TIME at which the endpoint began training, and whether in the first case of R956 -/
  pcieSince : Nat := 0
  pcieFirst : Bool := false
  /-- the tray serial number, as the steward read the tray configuration at boot (R680) -/
  serial : Nat := 0
  /-- plate-key digests of the tray configuration as read at boot, as numbers (R39, R160) -/
  plateKeys : List Nat := []
  /-- BOOT has been raised in this boot (R954) -/
  raised : Bool := false
  /-- the flash switch has been granted for the read in progress (R35) -/
  granted : Bool := false
  /-- CHIP_INDEX straps as sampled (R115) -/
  straps : Nat := 0
  deriving DecidableEq, Repr, Inhabited

/-- One PCIe function: the fields of its configuration space that a rule reads (R895 to R901). -/
structure HostFn where
  bme : Bool := false
  d3hot : Bool := false
  /-- memory space enable: its BARs answer -/
  mem : Bool := false
  deriving DecidableEq, Repr, Inhabited

/-- A completion entry waiting to be written (R919). -/
structure Cpl where
  cmdId : Nat := 0
  opcode : Nat := 0
  code : Nat := 0
  sub : Nat := 0
  /-- UNSOLICITED and TICK, as flags bits 1 and 2 -/
  flags : Nat := 0
  value : Nat := 0
  tick : Nat := 0
  time : Nat := 0
  /-- raise the completion vector (R927) -/
  irq : Bool := false
  deriving DecidableEq, Repr, Inhabited

/-- The rings of one partition (R908 to R927, R940). -/
structure Rings where
  cmdBase : Nat := 0
  sizes : Nat := 0
  en : Nat := 0
  cplMod : Nat := 0
  cplBase : Nat := 0
  evtBase : Nat := 0
  tlmBase : Nat := 0
  err : Nat := 0
  errCode : Nat := 0
  cmdTail : Nat := 0
  cmdCons : Nat := 0
  cplProd : Nat := 0
  cplHead : Nat := 0
  evtProd : Nat := 0
  evtHead : Nat := 0
  tlmProd : Nat := 0
  tlmHead : Nat := 0
  droppedCpl : Nat := 0
  droppedEvt : Nat := 0
  /-- fetched commands not yet taken, oldest first (R913) -/
  fetched : List HostCmd := []
  /-- ring positions of the commands accepted and not completed, oldest first: what a FENCE waits for (R914) -/
  live : List Nat := []
  /-- FENCEs that wait, each with the positions of the commands before it that it waits for (R914) -/
  fences : List (HostCmd × List Nat) := []
  /-- completions that wait for space, in the order in which they were made (R922) -/
  waiting : List Cpl := []
  deriving DecidableEq, Repr, Inhabited

/-- HOSTQ.FN_ERR[f] (R941). -/
structure FnErr where
  valid : Bool := false
  multi : Bool := false
  offset : Nat := 0
  bar : Nat := 0
  code : Nat := 0
  deriving DecidableEq, Repr, Inhabited

/-- An MSI-X vector that has fired: its function, number, the TIME it last fired, and a held-back firing (R927). -/
structure Vector where
  fn : Nat := 0
  vec : Nat := 0
  last : Nat := 0
  deferred : Bool := false
  deriving DecidableEq, Repr, Inhabited

/-- The host interface of a chip (R895 to R941). -/
structure HostIf where
  fns : List HostFn := List.replicate 9 {}
  numVfs : Nat := 0
  vfEnable : Bool := false
  /-- log2 of the BAR4 sizes of the PF and of the VFs (R901) -/
  pfBar4 : Nat := 34
  vfBar4 : Nat := 32
  rings : List Rings := List.replicate 8 {}
  chipEvtBase : Nat := 0
  chipEvtCtrl : Nat := 0
  chipEvtProd : Nat := 0
  chipEvtHead : Nat := 0
  chipEvtErr : Bool := false
  fnErr : List FnErr := List.replicate 9 {}
  bar4Base : Nat := 0
  vectors : List Vector := []
  deriving DecidableEq, Repr, Inhabited

/-- The steward mailbox and the TMC exchange (R928 to R936, R983, R984). -/
structure Mailbox where
  done : Bool := false
  busy : Bool := false
  overrun : Bool := false
  /-- a GO arrived while the steward did not run: it serves it after resuming (R936) -/
  goHeld : Bool := false
  code : Nat := 0
  seq : Nat := 0
  /-- MB_REQ and MB_RSP, 4 KiB each, as the listed bytes of them that are not 0 -/
  req : List Host.Cell := []
  rsp : List Host.Cell := []
  /-- STEWARD.TMC_REQ -/
  tmcValid : Bool := false
  tmcService : Nat := 0
  tmcSeq : Nat := 0
  tmcArg : Nat := 0
  /-- TIME at which the request for the TMC was placed (R934) -/
  tmcSince : Nat := 0
  /-- STEWARD.TMC_RSP words 1 to 7 -/
  tmcRsp : List Nat := List.replicate 8 0
  deriving DecidableEq, Repr, Inhabited

/-- A register write that was performed (R971): its agent, offset, bytes and value, its TIME, and whether it locked WDG.PERIOD. -/
structure RegWrite where
  agent : Nat := 0
  off : Nat := 0
  size : Nat := 0
  v : Nat := 0
  at' : Nat := 0
  locks : Bool := false
  deriving DecidableEq, Repr, Inhabited

/-- The side-band target (R103 to R113). -/
structure SideBand where
  addr : Nat := 0
  frame : Nat := 0
  /-- read position in the frame, in 32-byte steps -/
  pos : Nat := 0
  lastError : Nat := 0
  /-- TIME at which it last served a transaction (R717, SB_AGE) -/
  served : Nat := 0
  deriving DecidableEq, Repr, Inhabited

/-- The test access port (R389 to R392): the instruction selected, DBG_ADDR, the data and code of the last register access, and the
update latches of the boundary cells. -/
structure Tap where
  ir : Nat := 0x02
  dbgAddr : Nat := 0
  dbgWrite : Bool := false
  data : Nat := 0
  code : Nat := 0
  cells : Nat := 0
  deriving DecidableEq, Repr, Inhabited

/-- Background work (R843 to R865). -/
structure Background where
  cfg : Nat := 0x18100AAA
  cfg2 : Nat := 0xAFF
  dramPos : Nat := 0
  passes : Nat := 0
  /-- lines corrected in the pass, and its hours (R862, R864) -/
  passCorrected : Nat := 0
  passHours : Nat := 24
  /-- TIME at which thermal sampling last ran, and droop calibration per pod, SerDes adaptation per link, HBM calibration per
  stack (R852, R857) -/
  lastThermal : Nat := 0
  lastDroop : List Nat := List.replicate 8 0
  lastSerdes : List Nat := List.replicate 6 0
  lastHbm : List Nat := List.replicate 8 0
  telemDropped : Nat := 0
  overdue : Nat := 0
  /-- BG_PART[p]: TAKEN_US and DROPPED_US -/
  takenUs : List Nat := List.replicate 8 0
  droppedUs : List Nat := List.replicate 8 0
  /-- telemetry records that wait for the steward to run: partition, TIME since which one is due, newest record (R857) -/
  telemWait : List (Nat × Nat × List Nat) := []
  /-- newest telemetry record per partition, as bytes (R861) -/
  telemetry : List (List Nat) := List.replicate 8 []
  telemSeq : List Nat := List.replicate 8 0
  deriving DecidableEq, Repr, Inhabited


/-! ## A chip and the tray -/

/-- One Amzal chip. -/
structure Chip where
  variant : Variant := .ha720
  /-- the tray's type, which gives the wiring of the links (R23, R24) -/
  tray : TrayType := .st4
  /-- the CHIP_INDEX strap pins of the board (R96) -/
  strapPins : Nat := 0
  /-- TIME up to which TICK_OUT is high (R133, R207) -/
  tickOutUntil : Nat := 0
  /-- TIME in ns (R10, R981); the register shows it modulo 2^64 -/
  time : Nat := 0
  /-- fabric-clock phase, in 1/1000 cycles (R9) -/
  phase : Nat := 0
  /-- agents whose previous CHIP access was the low read of TIME, with the bits it latched (R982) -/
  timeLatch : List (Nat × Nat) := []
  /-- register writes of the cycle of the newest, oldest first (R971) -/
  regLog : List RegWrite := []
  /-- DRAM, pod stores and core stores by device address (R84): the listed bytes that are not 0 -/
  mem : List Host.Cell := []
  /-- 64-byte lines whose error is uncorrectable, and correctable, by line address (R81, R855) -/
  badLines : List Nat := []
  softLines : List Nat := []
  cores : List Core := []
  pods : List Pod := []
  cus : List CoderUnit := []
  tes : List TreeEngine := []
  links : List Link := []
  parts : List Part := []
  chans : List Chan := []
  syncs : List SyncObj := []
  regions : List Region := []
  /-- generations of channels (kind 0) and synchronisation objects (kind 1) that an overlay has released, by id (R428) -/
  oldGens : List ((Nat × Nat) × Nat) := []
  /-- unit commands sent by cores that no unit has accepted yet, oldest first (R347) -/
  arriving : List UnitCmd := []
  remotes : List Remote := []
  nextReq : Nat := 0
  /-- decisions that wait for the steward to run, oldest first (R218) -/
  decisions : List Decision := []
  loader : Loader := {}
  ler : Record := {}
  rcv : Recovery := {}
  wdg : Watchdogs := {}
  pwr : Power := {}
  boot : Boot := {}
  host : HostIf := {}
  mbox : Mailbox := {}
  sb : SideBand := {}
  tap : Tap := {}
  twin : Twin := {}
  bg : Background := {}
  /-- the model's own: how many free values the chip has drawn -/
  free : Nat := 0
  /-- the model's own: what the chip has sent outwards, newest first -/
  out : List Output := []
  deriving DecidableEq, Repr, Inhabited

/-- Why a step stops with a fault. -/
inductive Fault where
  /-- raised by every meaning whose command names a chip the tray does not hold; safe: no such chip exists (R1). -/
  | noSuchChip (c : Nat)
  deriving DecidableEq, Repr, Inhabited

/-- Why a step refuses a command. -/
inductive Refusal where
  /-- raised by exec's arm of a command that has no meaning yet; safe. -/
  | notModelled (mnemonic : String)
  deriving DecidableEq, Repr, Inhabited

/-- The host connectors and the switch's upstream port: which connectors are cabled, and whether PERST# on HOST A is asserted (R27, R31). -/
structure HostPort where
  cableA : Bool := true
  cableB : Bool := true
  perst : Bool := false
  deriving DecidableEq, Repr, Inhabited

/-- The state of a tray: its TMC, its host connectors, its chips, and the commands that wait, first in, first out. -/
structure State where
  trayType : TrayType
  port : HostPort := {}
  tmc : Tmc
  chips : List Chip
  pending : List Instr
  deriving DecidableEq, Repr

/-! ## Reset -/

/-- The PCI device ID of a variant's PF (R4, R896). -/
def Variant.deviceId : Variant → Nat
  | .ha720 => 0x0720 | .ha716 => 0x0716 | .ha708 => 0x0708

/-- Cores a variant has (R4, R77). -/
def Variant.cores : Variant → Nat
  | .ha708 => 32 | _ => 64

/-- Pods a variant has. -/
def Variant.pods : Variant → Nat
  | .ha708 => 4 | _ => 8

/-- Coder units a variant has. -/
def Variant.cus : Variant → Nat
  | .ha720 => 4 | _ => 2

/-- Tree engines a variant has. -/
def Variant.tes : Variant → Nat
  | .ha720 => 2 | _ => 0

/-- Chip links a variant has. -/
def Variant.links : Variant → Nat
  | .ha720 => 6 | .ha716 => 4 | .ha708 => 2

/-- PWR.SHARE.MAX_W of a variant (R867, R893). -/
def Variant.maxShare : Variant → Nat
  | .ha720 => 150 | .ha716 => 130 | .ha708 => 80

/-- A chip right after reset, as R985 to R990 give its registers. -/
def Chip.reset (v : Variant) (index : Nat) : Chip :=
  { variant := v
    cores := List.replicate v.cores {}
    pods := List.replicate v.pods {}
    cus := List.replicate v.cus {}
    tes := List.replicate v.tes {}
    links := List.replicate v.links {}
    parts := List.replicate 8 {}
    regions := List.replicate 64 {}
    pwr := { share := v.maxShare, armed := true }
    strapPins := index
    boot := { straps := index } }

/-- The machine right after reset: an ST4 with four HA720 (R1, R3), each chip at its reset values,
no command waiting. -/
def State.reset : State :=
  { trayType := .st4
    tmc := {}
    chips := [Chip.reset .ha720 0, Chip.reset .ha720 1, Chip.reset .ha720 2, Chip.reset .ha720 3]
    pending := [] }

end Sys2Proof.Machine
end

