-- ==== Sys2Proof/Machine/Ops.lean ====
section
/-! DEFINITION. The operations shared by every family: error codes, finding and changing a part of the state,
memory by device address, events and the record's FIFO, violations, completions. -/
namespace Sys2Proof.Machine

/-! ## Error codes (R757) -/

abbrev cOK : Nat := 0x00
abbrev cBOUNDS : Nat := 0x01
abbrev cPERM : Nat := 0x02
abbrev cALIGN : Nat := 0x03
abbrev cABSENT : Nat := 0x04
abbrev cTIMEOUT : Nat := 0x05
abbrev cFENCED : Nat := 0x06
abbrev cGENSTALE : Nat := 0x07
abbrev cFIT : Nat := 0x08
abbrev cOVERRUN : Nat := 0x09
abbrev cLINKDOWN : Nat := 0x0A
abbrev cECC : Nat := 0x0B
abbrev cSPECABORT : Nat := 0x0C
abbrev cPLATEBAD : Nat := 0x0D
abbrev cBUSY : Nat := 0x0E
abbrev cMISMATCH : Nat := 0x0F

/-! ## Variants -/

/-- CHIP.CAP0 (R94). -/
def Variant.cap0 : Variant → Nat
  | .ha720 => 0xFFFFFFF1 | .ha716 => 0xFF3F3C31 | .ha708 => 0x0F0F0C30

/-- CHIP.CAP1 (R94). -/
def Variant.cap1 : Variant → Nat
  | .ha720 => 0x30200400 | .ha716 => 0x24200400 | .ha708 => 0x18100400

/-- The variant number of CHIP_ID (R979). -/
def Variant.number : Variant → Nat
  | .ha720 => 0x0720 | .ha716 => 0x0716 | .ha708 => 0x0708

/-- CHIP_ID (R979). -/
def Variant.chipId (v : Variant) : Nat := 0x48410000 + v.number

/-- CAP1.DRAM_GIB. -/
def Variant.dramGib (v : Variant) : Nat := bitsOf v.cap1 22 10

/-- DRAM bytes of a variant (R84). -/
def Variant.dramBytes (v : Variant) : Nat := v.dramGib * 2 ^ 30

/-- CAP1.MAX_PARTITIONS. -/
def Variant.maxParts (v : Variant) : Nat := bitsOf v.cap1 18 4

/-- HBM4 stacks of a variant (R4). -/
def Variant.stacks : Variant → Nat
  | .ha720 => 8 | .ha716 => 6 | .ha708 => 4

/-- FP64 in the vector units (R4, CAP0 bit 0). -/
def Variant.fp64 (v : Variant) : Bool := bitOf v.cap0 0

/-- The pod of a core (R76). -/
def podOf (core : Nat) : Nat := (core / 8 / 2) * 2 + (core % 8) / 4

/-! ## Finding and changing parts -/

/-- Core `k` of a chip. -/
def Chip.core (ch : Chip) (k : Nat) : Core := ch.cores.getD k {}

/-- Change core `k`. -/
def Chip.modCore (ch : Chip) (k : Nat) (f : Core → Core) : Chip := { ch with cores := ch.cores.modify k f }

/-- Partition `p` of a chip. -/
def Chip.part (ch : Chip) (p : Nat) : Part := ch.parts.getD p {}

/-- Change partition `p`. -/
def Chip.modPart (ch : Chip) (p : Nat) (f : Part → Part) : Chip := { ch with parts := ch.parts.modify p f }

/-- Pod `p` of a chip. -/
def Chip.pod (ch : Chip) (p : Nat) : Pod := ch.pods.getD p {}

/-- Change pod `p`. -/
def Chip.modPod (ch : Chip) (p : Nat) (f : Pod → Pod) : Chip := { ch with pods := ch.pods.modify p f }

/-- Coder unit `u` of a chip. -/
def Chip.cu (ch : Chip) (u : Nat) : CoderUnit := ch.cus.getD u {}

/-- Change coder unit `u`. -/
def Chip.modCu (ch : Chip) (u : Nat) (f : CoderUnit → CoderUnit) : Chip := { ch with cus := ch.cus.modify u f }

/-- Tree engine `u` of a chip. -/
def Chip.te (ch : Chip) (u : Nat) : TreeEngine := ch.tes.getD u {}

/-- Change tree engine `u`. -/
def Chip.modTe (ch : Chip) (u : Nat) (f : TreeEngine → TreeEngine) : Chip := { ch with tes := ch.tes.modify u f }

/-- Link `n` of a chip. -/
def Chip.link (ch : Chip) (n : Nat) : Link := ch.links.getD n {}

/-- Change link `n`. -/
def Chip.modLink (ch : Chip) (n : Nat) (f : Link → Link) : Chip := { ch with links := ch.links.modify n f }

/-- The rings of partition `p`. -/
def Chip.ring (ch : Chip) (p : Nat) : Rings := ch.host.rings.getD p {}

/-- Change the rings of partition `p`. -/
def Chip.modRing (ch : Chip) (p : Nat) (f : Rings → Rings) : Chip :=
  { ch with host := { ch.host with rings := ch.host.rings.modify p f } }

/-- The defined partition that holds a pod. -/
def Chip.partOfPod (ch : Chip) (pod : Nat) : Option Nat :=
  (List.range 8).find? fun p => (ch.part p).isDefined && bitOf (ch.part p).plate.podMask pod

/-- The defined partition that holds a core (R195). -/
def Chip.partOfCore (ch : Chip) (k : Nat) : Option Nat := ch.partOfPod (podOf k)

/-- The partition of a core as a field, 0xFF for none. -/
def Chip.partNo (ch : Chip) (k : Nat) : Nat := (ch.partOfCore k).getD 0xFF

/-- The cores of partition `p`, ascending. -/
def Chip.coresOf (ch : Chip) (p : Nat) : List Nat :=
  (List.range ch.cores.length).filter fun k => bitOf (ch.part p).plate.podMask (podOf k)

/-- The pods of partition `p`, ascending. -/
def Chip.podsOf (ch : Chip) (p : Nat) : List Nat :=
  (List.range ch.pods.length).filter fun d => bitOf (ch.part p).plate.podMask d

/-- Apply `f` for each number of a list, in order. -/
def Chip.forEach (ch : Chip) (l : List Nat) (f : Nat → Chip → Chip) : Chip := l.foldl (fun a i => f i a) ch

/-- Chip `c` changed by `f`; a chip the tray does not hold is a fault. -/
def onChip (c : Nat) (f : Chip → Chip) (s : State) : Host.Outcome State Fault Refusal :=
  match s.chips[c]? with
  | none => .fault (.noSuchChip c)
  | some ch => .next { s with chips := s.chips.set c (f ch) }

/-- The chip runs: its power is good and the boot that the WAKE_N detector waits for has begun (R879). -/
def Chip.alive (ch : Chip) : Bool := ch.pwr.powerGood && !ch.pwr.armed

/-- Record an output. -/
def Chip.emit (ch : Chip) (o : Output) : Chip := { ch with out := o :: ch.out }

/-- A pin's number in the outputs. -/
abbrev pinAlert : Nat := 1
abbrev pinTickOut : Nat := 2
abbrev pinRails : Nat := 3
abbrev pinLink : Nat := 4
abbrev pinWake : Nat := 6
abbrev pinPort : Nat := 7

/-- The chip is held in reset or loses power: its switch port reports link down (R30). -/
def Chip.portDown (ch : Chip) (before : Chip) : Chip := if before.boot.pcie == .up then ch.emit (.pin pinPort false) else ch

/-! ## Memory: a sorted list of the bytes that are not 0 -/

/-- The memory's canonical form: addresses strictly rising, no listed byte 0. -/
def Memory.wf : List Host.Cell → Bool
  | [] => true
  | [c] => c.2 != 0
  | c :: d :: r => c.2 != 0 && c.1 < d.1 && Memory.wf (d :: r)

/-- The byte at an address; an unlisted byte reads 0. -/
def Memory.get : List Host.Cell → Nat → Byte
  | [], _ => 0
  | c :: r, a => if c.1 = a then c.2 else Memory.get r a

/-- Write one byte, keeping the canonical form. -/
def Memory.put : List Host.Cell → Nat → Byte → List Host.Cell
  | [], a, b => if b = 0 then [] else [(a, b)]
  | c :: r, a, b =>
    if a < c.1 then (if b = 0 then c :: r else (a, b) :: c :: r)
    else if c.1 = a then (if b = 0 then r else (a, b) :: r)
    else c :: Memory.put r a b

/-- Write bytes, given as numbers, from an address up. -/
def Memory.write (m : List Host.Cell) (a : Nat) : List Nat → List Host.Cell
  | [] => m
  | b :: r => Memory.write (Memory.put m a (BitVec.ofNat 8 b)) (a + 1) r

/-- `n` bytes from an address up. -/
def Memory.bytes (m : List Host.Cell) (a : Nat) : Nat → List Nat
  | 0 => []
  | n + 1 => (Memory.get m a).toNat :: Memory.bytes m (a + 1) n

/-- Zero every byte from `a` up to `a + n - 1`. -/
def Memory.clear (m : List Host.Cell) (a n : Nat) : List Host.Cell :=
  m.filter fun c => c.1 < a || a + n ≤ c.1

/-- Little-endian bytes as a number (R12). -/
def leNat : List Nat → Nat
  | [] => 0
  | b :: r => b % 256 + 256 * leNat r

/-- `n` little-endian bytes of a number (R12). -/
def leBytes : Nat → Nat → List Nat
  | 0, _ => []
  | n + 1, v => v % 256 :: leBytes n (v / 256)

/-- Big-endian bytes as a number (R13). -/
def beNat (l : List Nat) : Nat := l.foldl (fun a b => a * 256 + b % 256) 0

/-- `n` bytes of a list from an offset, 0 where the list is shorter. -/
def sliceB (l : List Nat) (off n : Nat) : List Nat :=
  let t := (l.drop off).take n
  t ++ List.replicate (n - t.length) 0

/-- The little-endian number of `n` bytes at an offset of a list. -/
def leAt (l : List Nat) (off n : Nat) : Nat := leNat (sliceB l off n)

/-- `n` bytes of the chip's memory as a number. -/
def Chip.read (ch : Chip) (a n : Nat) : Nat := leNat (Memory.bytes ch.mem a n)

/-- Bytes of the chip's memory. -/
def Chip.readBytes (ch : Chip) (a n : Nat) : List Nat := Memory.bytes ch.mem a n

/-- The 64-byte line of an address. -/
def lineOf (a : Nat) : Nat := a / 64 * 64

/-- The lines a range touches. -/
def linesOf (a n : Nat) : List Nat :=
  if n = 0 then [] else (List.range ((lineOf (a + n - 1) - lineOf a) / 64 + 1)).map fun i => lineOf a + 64 * i

/-- A line of the range has an uncorrectable error (R81). -/
def Chip.bad (ch : Chip) (a n : Nat) : Bool := (linesOf a n).any ch.badLines.contains

/-- A write of bytes may be performed: no bad line is written in part (R81). -/
def Chip.badWrite (ch : Chip) (a n : Nat) : Bool :=
  (linesOf a n).any fun l => ch.badLines.contains l && !(a ≤ l && l + 64 ≤ a + n)

/-- Store bytes; a line written whole is good again (R81, R855). -/
def Chip.store (ch : Chip) (a : Nat) (bytes : List Nat) : Chip :=
  { ch with
    mem := Memory.write ch.mem a bytes
    badLines := ch.badLines.filter fun l => !(a ≤ l && l + 64 ≤ a + bytes.length)
    softLines := ch.softLines.filter fun l => !(a ≤ l && l + 64 ≤ a + bytes.length) }

/-- Draw a fresh index of the free values; chips and the TMC draw different ones. -/
def Chip.draw (ch : Chip) : Nat × Chip := (ch.free * 8 + ch.boot.straps % 4, { ch with free := ch.free + 1 })

/-! ## The device address map (R84 to R88) -/

abbrev podStoreBase : Nat := 0x4000000000
abbrev coreStoreBase : Nat := 0x4100000000
abbrev regBase : Nat := 0x4200000000
abbrev twinBase : Nat := 0x5000000000
abbrev peer0Base : Nat := 0x6000000000
abbrev peer1Base : Nat := 0x7000000000
abbrev hostBase : Nat := 0x8000000000

/-- What a device range reaches (R84). -/
inductive Place where
  | dram
  | podStore (pod : Nat)
  | coreStore (core : Nat)
  | regs (offset : Nat)
  /-- window 0 is the twin, 1 and 2 the peers; the offset within it -/
  | window (n offset : Nat)
  | host (busAddr : Nat)
  deriving DecidableEq, Repr, Inhabited

/-- The start of a core's store. -/
def coreBase (k : Nat) : Nat := coreStoreBase + k * 0x200000

/-- The start of a pod's store. -/
def podBase (p : Nat) : Nat := podStoreBase + p * 0x1000000

/-- Where `n` bytes at a device address lie; none where the map refuses them with BOUNDS (R84 to R86). -/
def Chip.place (ch : Chip) (a n : Nat) : Option Place :=
  let e := a + n
  if e ≤ ch.variant.dramBytes then some .dram
  else if podStoreBase ≤ a && a < coreStoreBase then
    let p := (a - podStoreBase) / 0x1000000
    if p < ch.variant.pods && e ≤ podBase (p + 1) then some (.podStore p) else none
  else if coreStoreBase ≤ a && a < regBase then
    let k := (a - coreStoreBase) / 0x200000
    if k < ch.variant.cores && e ≤ coreBase (k + 1) then some (.coreStore k) else none
  else if regBase ≤ a && e ≤ regBase + 0x1000000 then some (.regs (a - regBase))
  else if twinBase ≤ a && e ≤ peer0Base then some (.window 0 (a - twinBase))
  else if peer0Base ≤ a && e ≤ peer1Base then some (.window 1 (a - peer0Base))
  else if peer1Base ≤ a && e ≤ hostBase then some (.window 2 (a - peer1Base))
  else if hostBase ≤ a && e ≤ 0x10000000000 then some (.host (a - hostBase))
  else none

/-! ## Events (R811 to R825) -/

abbrev info : Nat := 0
abbrev warn : Nat := 1
abbrev err : Nat := 2
abbrev fatal : Nat := 3

/-- Two entries agree in what a fold compares (R813). -/
def Entry.sameKind (a b : Entry) : Bool :=
  a.id == b.id && a.cls == b.cls && a.agent == b.agent && a.part == b.part && a.code == b.code &&
  a.level == b.level && a.arg0 == b.arg0 && !a.summary && !b.summary

/-- The newest FIFO item when it can still take folds (R813). -/
def Record.foldable (r : Record) : Option FifoItem :=
  match r.fifo.getLast? with
  | some i => if r.sums.any Option.isSome || i.forwarded || i.buffered || i.entry.summary || i.entry.id == 3 then none else some i
  | none => none

/-- A frame slot is in a held window (R834). -/
def Record.slotHeld (r : Record) (slot : Nat) : Bool :=
  match r.mram.lookup slot with
  | some (.frame f) => r.held.any fun w => f.sequence ≤ w.1 && w.1 < f.sequence + 64
  | _ => false

/-- The next slot to write from `slot` on, skipping held slots (R830). -/
def Record.findSlot (r : Record) : Nat → Nat → Nat
  | 0, slot => slot % 4096
  | n + 1, slot => if r.slotHeld (slot % 4096) then r.findSlot n (slot + 1) else slot % 4096

/-- Start the write of a closed buffer when no write is in flight (R808, R820, R834, R835). -/
def Record.startWrite (r : Record) : Record :=
  match r.writing, r.closed with
  | none, some f =>
    let hasFatal := f.entries.any fun e => e.cls == 3
    let fl := f.flags ||| (if hasFatal && r.held.length < 4 then 1 else 0) ||| (if r.repaired.isSome then 8 else 0)
    let slot := r.findSlot 4096 r.nextSlot
    { r with
      writing := some (slot, { f with flags := fl, sequence := r.nextSeq, bootCount := r.bootCount })
      closed := none
      nextSeq := r.nextSeq + 1
      nextSlot := (slot + 1) % 4096
      repaired := none }
  | _, _ => r

/-- A seal begins (R826, R827): a closed buffer that waits carries the flag, else the filling buffer is closed with it. -/
def Record.doSeal (r : Record) (now flag : Nat) : Record :=
  let w := if r.writing.isSome then 1 else 0
  match r.closed with
  | some f => { r with closed := some { f with flags := f.flags ||| flag }, sealWrites := w + 1 }
  | none =>
    if r.filling.isEmpty then { r with sealWrites := w }
    else Record.startWrite
      { r with closed := some { entries := r.filling, flags := flag, time := now }, filling := [], sealWrites := w + 1 }

/-- Close the filling buffer, if it holds an entry and no closed buffer waits (R819). -/
def Record.close (r : Record) (now : Nat) (flags : Nat) : Record :=
  if r.filling.isEmpty || r.closed.isSome then r
  else Record.startWrite
    { r with closed := some { entries := r.filling, flags := flags, time := now }, filling := [] }

/-- An entry goes into a frame buffer (R821). -/
def Record.records (r : Record) (e : Entry) : Bool :=
  bitsOf r.lerCfg 0 2 ≤ e.cls || e.cls == 3 || e.id == 0x0003 || e.id == 0x0D01

/-- The LER controller takes entries in insertion order while a buffer can fill (R819, R820); none before the scan. -/
def Record.pump (now : Nat) : Nat → Record → Record
  | 0, r => r
  | n + 1, r =>
    if !r.scanDone || r.closed.isSome then r else
    match r.fifo.findIdx? fun i => !i.recorded with
    | none => r
    | some i =>
      let e := (r.fifo.getD i {}).entry
      let r1 := { r with fifo := (r.fifo.modify i fun x => { x with recorded := true, buffered := r.records e }).filter fun x => !(x.recorded && x.forwarded) }
      if r.records e then
        let r2 := { r1 with
          filling := r1.filling ++ [e]
          fillSince := if r1.filling.isEmpty then now else r1.fillSince }
        let r3 := if r2.filling.length ≥ 126 || e.cls == 3 || e.id == 0x0003 then r2.close now 0 else r2
        Record.pump now n r3
      else Record.pump now n r1

/-- Place an entry in the FIFO, in EVT.RECENT and, if FATAL, in the queue of EVT.FATAL_ENTRY (R818, R840). -/
def Record.insert (r : Record) (e : Entry) : Record :=
  { r with
    fifo := r.fifo ++ [{ entry := e }]
    high := max r.high (r.fifo.length + 1)
    recent := (e :: r.recent).take 64
    recentCount := r.recentCount + 1
    fatals := if e.cls == 3 then r.fatals ++ [e] else r.fatals }

/-- Count an event in the summary of its class (R823, R825). -/
def Record.coalesce (r : Record) (e : Entry) : Record :=
  { r with
    sums := r.sums.modify e.cls fun o => match o with
      | none => some { count := 1, first := e.time, last := e.time }
      | some x => some { x with count := x.count + 1, last := e.time }
    coalesced := r.coalesced.modify e.cls fun n => min (n + 1) 0xFFFF }

/-- The OVERFLOW entry of a class's summary (R812); the 32-bit count stands in bytes 20 to 23. -/
def overflowEntry (c : Nat) (x : Summary) : Entry :=
  { time := x.first, id := 1, cls := c, summary := true, reps := x.count % 0x10000, arg1 := x.count / 0x10000 % 0x10000, arg0 := x.last }

/-- Insert the summaries that may close: FATAL at any free entry, the others at occupancy 384 or less (R824, R825). -/
def Record.closeSums (r : Record) : Record :=
  let r1 := match r.sums.getD 3 none with
    | some x => if r.fifo.length < 512 then { (r.insert (overflowEntry 3 x)) with sums := r.sums.set 3 none } else r
    | none => r
  if r1.fifo.length ≤ 384 then
    [0, 1, 2].foldl (fun a c => match a.sums.getD c none with
      | some x => { (a.insert (overflowEntry c x)) with sums := a.sums.set c none }
      | none => a) r1
  else r1

/-- The controller's work after a change: take entries, close summaries, start writes (R819 to R825). -/
def Record.work (r : Record) (now : Nat) : Record :=
  let r1 := (Record.pump now 600 r.startWrite).closeSums
  Record.pump now 600 r1

/-- An event that does not fold takes an entry or is coalesced (R817, R823, R825); LER_RELEASED is always inserted (R836). -/
def Record.take (r : Record) (e : Entry) : Record :=
  if e.id == 3 then r.insert e
  else if e.cls == 3 then (if r.fifo.length < 512 then r.insert e else r.coalesce e)
  else if r.sums.any Option.isSome || r.fifo.length ≥ 480 then r.coalesce e
  else r.insert e

/-- Raise an event: fold, coalesce or insert (R813, R817, R823, R825). -/
def Record.raise (r : Record) (e : Entry) : Record :=
  match r.foldable with
  | some i =>
    if i.entry.sameKind e && e.id != 3 then
      let up := fun (x : Entry) => { x with reps := min (x.reps + 1) 0xFFFF }
      { r with
        fifo := r.fifo.modify (r.fifo.length - 1) fun j => { j with entry := up j.entry }
        recent := r.recent.modify 0 up
        fatals := if e.cls == 3 then r.fatals.modify (r.fatals.length - 1) up else r.fatals }
    else r.take e
  | none => r.take e
/-- The tick field of an event or violation of a partition. -/
def Chip.tickOf (ch : Chip) (p : Nat) : Nat := if p < 8 then (ch.part p).tickIndex else 0

/-- The record is `r`, at work; an entry that makes EVT.FATAL_ENTRY show one drives SMB_ALERT_N low (R840). -/
def Chip.lerWork (ch : Chip) (r : Record) : Chip :=
  let a : Chip := { ch with ler := r.work ch.time }
  if ch.ler.fatals.isEmpty && !a.ler.fatals.isEmpty then a.emit (.pin pinAlert false) else a

/-- Raise an event on a chip (R811, R818). -/
def Chip.event (ch : Chip) (e : Entry) : Chip :=
  (ch.lerWork (ch.ler.raise { e with time := ch.time, tick := ch.tickOf e.part })).modPart e.part fun q =>
    { q with tel := { q.tel with events := q.tel.events + 1 } }

/-- An event with identifier, class and arguments. -/
def Chip.ev (ch : Chip) (id cls : Nat) (agent : Nat := 0xFF) (part : Nat := 0xFF) (code : Nat := 0)
    (arg0 : Nat := 0) (arg1 : Nat := 0) (level : Nat := 0) : Chip :=
  ch.event { id := id, cls := cls, agent := agent, part := part, code := code, arg0 := arg0, arg1 := arg1, level := level }

/-! ## Violations (R760 to R764) -/

abbrev vRead : Nat := 1
abbrev vWrite : Nat := 2
abbrev vAtomic : Nat := 3
abbrev vFetch : Nat := 4
abbrev vCommand : Nat := 5
abbrev vRegRead : Nat := 6
abbrev vRegWrite : Nat := 7
abbrev vRemote : Nat := 8

/-- A code whose refusal is a violation; ECC_UNCORR counts for reads only (R760). -/
def isViolation (code : Nat) (isRead : Bool) : Bool :=
  code == cBOUNDS || code == cPERM || code == cALIGN || code == cABSENT || (code == cECC && isRead)

/-- The address a violation concerns: of a DRAM read that an uncorrectable error refused, the line of the error, which is the first
such line from the access up (R81, R760); else the address of the access. -/
def Chip.violAddr (ch : Chip) (kind code addr : Nat) : Nat :=
  let memory := kind == vRead || kind == vAtomic || kind == vCommand || kind == vRemote
  if code == cECC && memory && addr < ch.variant.dramBytes then
    match ch.badLines.filter fun l => addr < l + 64 && l < ch.variant.dramBytes with
    | [] => addr
    | l :: r => r.foldl min l
  else addr

/-- Record a violation: fold into the newest entry or write a new one (R763, R764). -/
def Chip.violate (ch : Chip) (agent part kind code at' : Nat) (detail : Nat := 0) (faults : Bool := false) : Chip :=
  let tick := ch.tickOf part
  let addr := ch.violAddr kind code at'
  let r := ch.rcv
  let total := { r with violTotal := r.violTotal + 1 }
  let ch := ch.modPart part fun q => { q with tel := { q.tel with violations := q.tel.violations + 1 } }
  let same := match r.vlog.head? with
    | some v => v.agent == agent && v.code == code && v.kind == kind && v.part == part &&
        (if part == 0xFF then v.time / 1000000 == ch.time / 1000000 else v.tick == tick)
    | none => false
  if same then
    { ch with rcv := { total with vlog := r.vlog.modify 0 fun v => { v with count := min (v.count + 1) 0xFFFF } } }
  else
    let v : Violation := { time := ch.time, addr := addr, code := code, agent := agent, part := part, kind := kind, detail := detail, count := 1, tick := tick }
    let ch1 := { ch with rcv := { total with
      vlog := (v :: r.vlog).take 128
      vlogHead := (r.vlogHead + 1) % 128
      overwritten := if r.vlog.length ≥ 128 then min (r.overwritten + 1) 0xFFFF else r.overwritten } }
    if faults then ch1 else ch1.ev 0x0301 warn agent part code addr r.vlogHead

/-- Record a violation where the code is one (R760). -/
def Chip.violateIf (ch : Chip) (agent part kind code addr : Nat) (isRead : Bool) (detail : Nat := 0) : Chip :=
  if isViolation code isRead then ch.violate agent part kind code addr detail else ch

/-- A unit command refused with a code that is a violation (R760, R761). -/
def Chip.refuseCmd (ch : Chip) (u : UnitCmd) (code addr : Nat) (isRead : Bool) : Chip :=
  ch.violateIf u.core (ch.partNo u.core) vCommand code addr isRead (u.unit + 256 * (u.bytes.getD 0 0))

/-! ## Retiring and completions (R342 to R345) -/

/-- Write a scalar register; s0 discards the write (R303). -/
def Core.setS (k : Core) (d : Nat) (v : W64) : Core := if d = 0 then k else { k with s := k.s.set d v }

/-- Read a scalar register; s0 reads 0. -/
def Core.getS (k : Core) (d : Nat) : W64 := if d = 0 then 0 else k.s.getD d 0

/-- Write a predicate register; p0 discards the write (R303). -/
def Core.setP (k : Core) (d : Nat) (v : W64) : Core := if d = 0 then k else { k with p := k.p.set d v }

/-- Read a predicate register; p0 reads all ones. -/
def Core.getP (k : Core) (d : Nat) : W64 := if d = 0 then BitVec.allOnes 64 else k.p.getD d 0

/-- Write a vector register. -/
def Core.setV (k : Core) (d : Nat) (v : V512) : Core := { k with v := k.v.set d v }

/-- Read a vector register. -/
def Core.getV (k : Core) (d : Nat) : V512 := k.v.getD d 0

/-- The core that waits for a request, or posted it. -/
def Remote.core? (r : Remote) : Option Nat :=
  match r.kind with
  | .load k _ _ _ => some k
  | .vload k _ _ _ => some k
  | .store k => some k
  | .other _ => none

/-- TIME since which a slot holds partition `p`. -/
def Chip.heldSince (ch : Chip) (p : Nat) : Option Nat :=
  ((ch.part p).slots.find? fun s => s.begun && !s.ended).map StippleSlot.since

/-- A debug halt of a core (R384): DEBUG, the reason, the partition's DEBUG bit follows from it, an INFO event. -/
def Chip.debugHalt (ch : Chip) (k reason index : Nat) : Chip :=
  let c := ch.core k
  if c.state = .debug then ch else
  (ch.modCore k fun x => { x with
    state := .debug
    dbg := { x.dbg with
      reason := reason, index := index, resumeTo := x.state, request := false, stepping := false, skip := false
      since := (ch.heldSince (ch.partNo k)).getD ch.time } }).ev
    0x0205 info k (ch.partNo k) cOK 0 reason

/-- A debug halt of core `k` and, under PART_STOP, of its partition's running and waiting cores (R384, R385). -/
def Chip.haltCore (ch : Chip) (k reason index : Nat) : Chip :=
  let ch1 := ch.debugHalt k reason index
  if (ch.core k).dbg.partStop then
    ch1.forEach ((ch1.coresOf (ch1.partNo k)).filter fun j => j != k && ((ch1.core j).state == .running || (ch1.core j).state == .waiting))
      fun j a => a.debugHalt j 2 0
  else ch1

/-- The instruction at the PC retires and the core goes on at `pc`; a STEP halts again (R387). -/
def Chip.retireTo (ch : Chip) (k pc : Nat) : Chip :=
  let st := (ch.core k).dbg.stepping
  let ch1 := ch.modCore k fun x => { x with
    pc := pc % 0x40000
    retired := (x.retired + 1) % 2 ^ 64
    tretired := x.tretired + 1
    state := .running
    wait := none
    dbg := { x.dbg with skip := false } }
  if st then ch1.haltCore k 3 0 else ch1

/-- The instruction at the PC retires. -/
def Chip.retire (ch : Chip) (k : Nat) : Chip := ch.retireTo k ((ch.core k).pc + 8)

/-- The popped completion as a word (R344). -/
def Completion.word (c : Completion) : W64 :=
  BitVec.ofNat 64 ((c.value % 2 ^ 32) * 2 ^ 32 + (c.unit % 256) * 2 ^ 24 + (c.code % 256) * 2 ^ 16 + c.tag % 2 ^ 16)

/-- Pop the oldest completion that `f` picks: it leaves the queue and is outstanding no longer (R343). -/
def Core.pop (k : Core) (f : Completion → Bool) : Option (Completion × Core) :=
  match k.cq.find? f with
  | none => none
  | some c => some (c, { k with cq := k.cq.erase c, outst := k.outst.erase (c.unit, c.tag) })

/-- A core that waits for a completion takes one that is there (cwait, cwtag). -/
def Chip.settle (ch : Chip) (k : Nat) : Chip :=
  let c := ch.core k
  if c.state != .waiting then ch else
  match c.wait with
  | some (.anyCompletion rd _) =>
    match c.pop fun _ => true with
    | some (x, c1) => (ch.modCore k fun _ => c1.setS rd x.word).retire k
    | none => ch
  | some (.tagged rd tag _) =>
    match c.pop fun x => x.tag == tag with
    | some (x, c1) => (ch.modCore k fun _ => c1.setS rd x.word).retire k
    | none => ch
  | _ => ch

/-- Stream context `x` of pod `p`. -/
def Chip.ctx (ch : Chip) (p x : Nat) : SeCtx := (ch.pod p).ctxs.getD x {}

/-- Change stream context `x` of pod `p`. -/
def Chip.modCtx (ch : Chip) (p x : Nat) (f : SeCtx → SeCtx) : Chip :=
  ch.modPod p fun d => { d with ctxs := d.ctxs.modify x f }

/-- A unit completes a command that a core issued: OK under QUIET queues nothing (R342); to a fenced core it is discarded
(R779). -/
def Chip.completeCore (ch : Chip) (u : UnitCmd) (code value : Nat) : Chip :=
  let c := ch.core u.core
  if c.state = .fenced then ch.modCore u.core fun x => { x with outst := x.outst.erase (u.unit, u.tag) }
  else if code == cOK && u.quiet then ch.modCore u.core fun x => { x with outst := x.outst.erase (u.unit, u.tag) }
  else (ch.modCore u.core fun x => { x with cq := x.cq ++ [{ value := value, unit := u.unit, code := code, tag := u.tag }] }).settle u.core

/-- The stages of a chain that are set, READ first; MMA and DRAIN always are (R557, R559). -/
def ChainRun.has (r : ChainRun) (stage : Nat) : Bool := bitOf (r.cmd.bytes.getD 5 0) stage

/-- Its last stage: WRITE, else ROW, else DRAIN (R561). -/
def ChainRun.last (r : ChainRun) : Nat := if r.has 4 then 4 else if r.has 3 then 3 else 2

/-- Iterations and iterations per group (R557). -/
def ChainRun.iterations (r : ChainRun) : Nat := leAt r.cmd.bytes 8 3
/-- Iterations accumulated per output tile. -/
def ChainRun.kgroup (r : ChainRun) : Nat := leAt r.cmd.bytes 12 2
/-- Groups of the chain. -/
def ChainRun.total (r : ChainRun) : Nat := r.iterations / r.kgroup

/-- A stage that started is still running. -/
def ChainRun.busy (r : ChainRun) : Bool := r.started != r.done

/-- The next completion of a stage, with its code: the first failure in order of iteration, then of stage, is kept (R563). -/
def ChainRun.stageDone (r : ChainRun) (stage code : Nat) : ChainRun :=
  let n := r.done.getD stage 0
  let it := if stage ≤ 1 then n else (n + 1) * r.kgroup - 1
  let r1 := { r with
    done := r.done.modify stage fun k => k + 1
    groups := if stage == r.last && code == cOK then r.groups + 1 else r.groups }
  if code == cOK then r1
  else match r.fail with
    | some (i, st, _) => if it < i || (it == i && stage < st) then { r1 with fail := some (it, stage, code) } else r1
    | none => { r1 with fail := some (it, stage, code) }

/-- The chain has ended: every group is out, or a stage failed and none runs (R563). -/
def ChainRun.ended (r : ChainRun) : Bool := if r.fail.isSome then !r.busy else r.groups == r.total

/-- A stage of chain `id` of context `x` of pod `p` has completed; an ended chain completes its command and leaves the
context, IDLE or, where a descriptor failed, in ERROR (R545, R563). -/
def Chip.chainDone (ch : Chip) (p x id stage code : Nat) : Chip :=
  match (ch.ctx p x).q with
  | .chain r :: rest =>
    let r1 := r.stageDone stage code
    if r.cmd.id != id then ch
    else if r1.ended then
      let (st, cd) := match r1.fail with
        | some (_, s, c) => (if s == 0 || s == 4 then CtxState.error else CtxState.idle, c)
        | none => (CtxState.idle, cOK)
      (ch.modCtx p x fun y => { y with
        q := rest
        since := ch.time
        code := if st == .error then cd else y.code
        state := if st == .error then .error else if rest.isEmpty then .idle else .running }).completeCore r1.cmd cd r1.groups
    else ch.modCtx p x fun y => { y with q := .chain r1 :: rest }
  | _ => ch

/-- A unit completes a command: to its core, or to the chain that issued it (R342, R562). -/
def Chip.complete (ch : Chip) (u : UnitCmd) (code value : Nat) : Chip :=
  if u.chain == 0 then ch.completeCore u code value
  else ch.chainDone (podOf u.core) (u.chain - 1) u.chainId (if u.unit == 2 then 3 else if u.bytes.getD 0 0 == 1 then 1 else 2) code

/-- A unit refuses a command: the violation is logged where the code is one, and the command completes with the code. -/
def Chip.refuse (ch : Chip) (u : UnitCmd) (code : Nat) (addr : Nat := 0) (isRead : Bool := false) : Chip :=
  (ch.refuseCmd u code addr isRead).complete u code 0

/-- An outcome word (R405, R406). -/
def outcomeWord (code gen aux value : Nat) : W64 :=
  if code == 0 then BitVec.ofNat 64 ((value % 2 ^ 32) * 2 ^ 32 + (gen % 2 ^ 16) * 2 ^ 16 + (aux % 256) * 2 ^ 8)
  else BitVec.ofNat 64 ((gen % 2 ^ 16) * 2 ^ 16 + code % 256)

/-- A 16-bit count up by one (R428). -/
def inc16 (n : Nat) : Nat := (n + 1) % 0x10000

/-- A core is fenced (R430, R431). -/
def Chip.isFenced (ch : Chip) (k : Nat) : Bool := (ch.core k).state == .fenced

/-- The wait limit of a partition in ns: msg_wait_us (R136). -/
def Chip.msgWaitNs (ch : Chip) (p : Nat) : Nat := (ch.part p).plate.msgWaitUs * 1000

/-- stream_desc_us of a partition in ns. -/
def Chip.streamNs (ch : Chip) (p : Nat) : Nat := (ch.part p).plate.streamUs * 1000

/-- fc runs: the chip is in a state with a running fabric clock (R870, R873). -/
def Chip.fcRuns (ch : Chip) : Bool :=
  match ch.pwr.state with
  | .active => true
  | .enteringStandby => true
  | .dormantEntry => !ch.pwr.dormSeal
  | _ => false

/-- A slot of the partition's tick is being held (R844). -/
def Part.inSlot (p : Part) : Bool := p.slots.any fun s => s.begun && !s.ended

/-- The units of partition `p` work: fc runs, and no slot holds them; where one does, they pause at their next boundary (R844, R870). -/
def Chip.unitsGo (ch : Chip) (p : Nat) : Bool := ch.alive && ch.fcRuns && !(ch.part p).inSlot

/-- The partition that holds pod `d`, or 0xFF. -/
def Chip.podPart (ch : Chip) (d : Nat) : Nat := (ch.partOfPod d).getD 0xFF

/-- The partition for which a CU or TE works: that of its oldest command, else that of its owner. -/
def Chip.workPart (ch : Chip) (q : List UnitCmd) (owner : Option Nat) : Nat :=
  match q, owner with
  | u :: _, _ => ch.partNo u.core
  | [], some k => ch.partNo k
  | [], none => 0xFF

/-- A step of a unit of the partition that `part` names, made while the units of that partition work (R844, R845). -/
def unitOn (c : Nat) (part : Chip → Nat) (f : Chip → Chip) (s : State) : Host.Outcome State Fault Refusal :=
  onChip c (fun ch => if ch.unitsGo (part ch) then f ch else ch) s

end Sys2Proof.Machine
end

