-- ==== Sys2Proof/Machine/Crypto.lean ====
section
/-! DEFINITION. Checks of bytes: CRC-32, CRC-32C, CRC-64, the digests SHA-256 and SHA-384, and the ECDSA P-384 signature
(R13, R33, R157, R159, R621, R669, R729, R783, R947). -/
namespace Sys2Proof.Machine

/-! ## Cyclic redundancy checks -/

/-- Eight steps of a reflected CRC on a register that holds the byte already. -/
def crcSteps (poly : Nat) : Nat → Nat → Nat
  | 0, c => c
  | n + 1, c => crcSteps poly n (if c % 2 == 1 then (c / 2) ^^^ poly else c / 2)

/-- A reflected 32-bit CRC with initial value and final exclusive-or all ones. -/
def crcReflected (poly : Nat) (l : List Nat) : Nat :=
  (l.foldl (fun c b => crcSteps poly 8 (c ^^^ (b % 256))) 0xFFFFFFFF) ^^^ 0xFFFFFFFF

/-- CRC-32C, the Castagnoli polynomial (R621). -/
def crc32c (l : List Nat) : Nat := crcReflected 0x82F63B78 l

/-- CRC-32 of IEEE 802.3 (R669). -/
def crc32 (l : List Nat) : Nat := crcReflected 0xEDB88320 l

/-- Eight steps of CRC-64/ECMA-182. -/
def crc64Steps : Nat → Nat → Nat
  | 0, c => c
  | n + 1, c => crc64Steps n (if c / 2 ^ 63 == 1 then (2 * c % 2 ^ 64) ^^^ 0x42F0E1EBA9EA3693 else 2 * c)

/-- CRC-64/ECMA-182, not reflected, from 0 (R729). -/
def crc64 (l : List Nat) : Nat := l.foldl (fun c b => crc64Steps 8 (c ^^^ ((b % 256) * 2 ^ 56))) 0

/-! ## SHA-2 (FIPS 180-4) -/

/-- The words of a SHA-2 hash: their width, the rotations of its four functions, round constants and first state. -/
structure Sha where
  w : Nat
  bs0 : Nat × Nat × Nat
  bs1 : Nat × Nat × Nat
  ss0 : Nat × Nat × Nat
  ss1 : Nat × Nat × Nat
  k : List Nat
  h : List Nat

/-- Rotate right in `w` bits. -/
def ror (w n x : Nat) : Nat := (x >>> n) ||| (x % 2 ^ n) * 2 ^ (w - n)

/-- Three rotations combined. -/
def Sha.big (s : Sha) (r : Nat × Nat × Nat) (x : Nat) : Nat := ror s.w r.1 x ^^^ ror s.w r.2.1 x ^^^ ror s.w r.2.2 x

/-- Two rotations and a shift combined. -/
def Sha.small (s : Sha) (r : Nat × Nat × Nat) (x : Nat) : Nat := ror s.w r.1 x ^^^ ror s.w r.2.1 x ^^^ (x >>> r.2.2)

/-- Complement in `w` bits. -/
def Sha.not (s : Sha) (x : Nat) : Nat := 2 ^ s.w - 1 - x

/-- Extend the schedule, held newest first, by `n` words. -/
def Sha.sched (s : Sha) : Nat → List Nat → List Nat
  | 0, l => l
  | n + 1, l =>
    s.sched n (((s.small s.ss1 (l.getD 1 0) + l.getD 6 0 + s.small s.ss0 (l.getD 14 0) + l.getD 15 0) % 2 ^ s.w) :: l)

/-- One round on the eight working words. -/
def Sha.round (s : Sha) (v : List Nat) (kw : Nat) : List Nat :=
  match v with
  | [a, b, c, d, e, f, g, h] =>
    let t1 := h + s.big s.bs1 e + ((e &&& f) ^^^ (s.not e &&& g)) + kw
    let t2 := s.big s.bs0 a + ((a &&& b) ^^^ (a &&& c) ^^^ (b &&& c))
    [(t1 + t2) % 2 ^ s.w, a, b, c, (d + t1) % 2 ^ s.w, e, f, g]
  | _ => v

/-- The big-endian words of a block. -/
def Sha.words (s : Sha) (b : List Nat) : List Nat :=
  (List.range 16).map fun i => ((b.drop (i * (s.w / 8))).take (s.w / 8)).foldl (fun a x => a * 256 + x) 0

/-- One block into the state. -/
def Sha.block (s : Sha) (h b : List Nat) : List Nat :=
  let ws := (s.sched (s.k.length - 16) (s.words b).reverse).reverse
  let v := ((s.k.zip ws).map fun x => x.1 + x.2).foldl s.round h
  (h.zip v).map fun x => (x.1 + x.2) % 2 ^ s.w

/-- The blocks of a message, `n` of them. -/
def Sha.run (s : Sha) : Nat → List Nat → List Nat → List Nat
  | 0, h, _ => h
  | n + 1, h, l => s.run n (s.block h (l.take (2 * s.w))) (l.drop (2 * s.w))

/-- `n` big-endian bytes of a number. -/
def beBytes (n v : Nat) : List Nat := (List.range n).map fun i => v / 256 ^ (n - 1 - i) % 256

/-- The padded message's state as bytes, `out` of them. -/
def Sha.digest (s : Sha) (out : Nat) (l : List Nat) : List Nat :=
  let blk := 2 * s.w
  let lenB := s.w / 4
  let pad := (blk - (l.length + 1 + lenB) % blk) % blk
  let m := l ++ [0x80] ++ List.replicate pad 0 ++ beBytes lenB (8 * l.length)
  (((s.run (m.length / blk) s.h m).map fun x => beBytes (s.w / 8) x).flatten).take out

/-- The greatest number below `r` + 2^`b` whose `k`-th power does not exceed `n`, bit by bit from bit `b` - 1 down. -/
def rootFrom (k n : Nat) : Nat → Nat → Nat
  | 0, r => r
  | b + 1, r => rootFrom k n b (if (r + 2 ^ b) ^ k ≤ n then r + 2 ^ b else r)

/-- The first 64 bits of the fraction of the `k`-th root of `p`, a number below 512 (FIPS 180-4, 4.2 and 5.3). -/
def rootFraction (k p : Nat) : Nat := rootFrom k (p * 2 ^ (64 * k)) 69 0 % 2 ^ 64

/-- No number from 2 up to the number divides it, but for itself. -/
def isPrime (n : Nat) : Bool := 2 ≤ n && (List.range n).all fun d => d < 2 || n % d != 0

/-- The first 80 primes. -/
def shaPrimes : List Nat := (List.range 410).filter isPrime

/-- The round constants of SHA-384; SHA-256 uses the upper halves of the first 64. -/
def shaConstants : List Nat := shaPrimes.map (rootFraction 3)

/-- SHA-256: its first state is that of the square roots of the first eight primes, in 32 bits. -/
def sha256 (l : List Nat) : List Nat :=
  Sha.digest
   { w := 32, bs0 := (2, 13, 22), bs1 := (6, 11, 25), ss0 := (7, 18, 3), ss1 := (17, 19, 10)
     k := (shaConstants.take 64).map fun x => x / 2 ^ 32
     h := (shaPrimes.take 8).map fun p => rootFraction 2 p / 2 ^ 32 } 32 l

/-- SHA-384: its first state is that of the square roots of the ninth to the sixteenth prime, in 64 bits. -/
def sha384 (l : List Nat) : List Nat :=
  Sha.digest
   { w := 64, bs0 := (28, 34, 39), bs1 := (14, 18, 41), ss0 := (1, 8, 7), ss1 := (19, 61, 6), k := shaConstants
     h := ((shaPrimes.drop 8).take 8).map (rootFraction 2) } 48 l

/-! ## ECDSA over P-384 (FIPS 186) -/

/-- The field prime. -/
def p384 : Nat := 2 ^ 384 - 2 ^ 128 - 2 ^ 96 + 2 ^ 32 - 1

/-- The order of the base point. -/
def n384 : Nat := 0xFFFFFFFFFFFFFFFFFFFFFFFFFFFFFFFFFFFFFFFFFFFFFFFFC7634D81F4372DDF581A0DB248B0A77AECEC196ACCC52973

/-- The curve's coefficient b. -/
def b384 : Nat := 0xB3312FA7E23EE7E4988E056BE3F82D19181D9C6EFE8141120314088F5013875AC656398D8A2ED19D2A85C8EDD3EC2AEF

/-- The base point. -/
def g384 : Nat × Nat :=
  (0xAA87CA22BE8B05378EB1C71EF320AD746E1D3B628BA79B9859F741E082542A385502F25DBF55296C3A545E3872760AB7,
   0x3617DE4A96262C6F5D9E98BF9292DC29F8F41DBD289A147CE9DA3113B5F0B8C00A60B1CE1D7E819D7A431D7C90EA0E5F)

/-- A power modulo `m`, over the exponent's low `n` bits. -/
def powMod (m : Nat) : Nat → Nat → Nat → Nat
  | 0, _, _ => 1 % m
  | n + 1, b, e => let r := powMod m n (b * b % m) (e / 2); if e % 2 == 1 then r * b % m else r

/-- The inverse modulo a prime below 2^384. -/
def invMod (m a : Nat) : Nat := powMod m 384 (a % m) (m - 2)

/-- A difference modulo the field prime. -/
def subP (a b : Nat) : Nat := (a + p384 - b % p384) % p384

/-- The sum of two points; none is the point at infinity. -/
def addPt : Option (Nat × Nat) → Option (Nat × Nat) → Option (Nat × Nat)
  | none, q => q
  | q, none => q
  | some (x1, y1), some (x2, y2) =>
    if x1 == x2 && (y1 + y2) % p384 == 0 then none
    else
      let l := if x1 == x2 then (3 * x1 * x1 + p384 - 3) % p384 * invMod p384 (2 * y1) % p384
        else subP y2 y1 * invMod p384 (subP x2 x1) % p384
      let x3 := subP (subP (l * l % p384) x1) x2
      some (x3, subP (l * subP x1 x3 % p384) y1)

/-- A multiple of a point, over the scalar's low `n` bits. -/
def mulPt : Nat → Nat → Option (Nat × Nat) → Option (Nat × Nat)
  | 0, _, _ => none
  | n + 1, k, q => let r := mulPt n (k / 2) (addPt q q); if k % 2 == 1 then addPt q r else r

/-- The point lies on the curve. -/
def onCurve (x y : Nat) : Bool :=
  x < p384 && y < p384 && y * y % p384 == (x * x * x + (p384 - 3) * x + b384) % p384

/-- The signature (r, s) of 96 bytes by the 97-byte key verifies over a SHA-384 digest (R159). -/
def ecdsaOk (key digest sig : List Nat) : Bool :=
  let x := beNat ((key.drop 1).take 48)
  let y := beNat ((key.drop 49).take 48)
  let r := beNat (sig.take 48)
  let s := beNat ((sig.drop 48).take 48)
  if key.getD 0 0 != 4 || !onCurve x y || r == 0 || n384 ≤ r || s == 0 || n384 ≤ s then false
  else
    let w := invMod n384 s
    let u1 := beNat digest * w % n384
    let u2 := r * w % n384
    match addPt (mulPt 384 u1 (some g384)) (mulPt 384 u2 (some (x, y))) with
    | some (px, _) => px % n384 == r
    | none => false

end Sys2Proof.Machine
end

