-- ==== Sys2Proof/Machine/Float.lean ====
section
/-! DEFINITION. The arithmetic contract: number formats, rounding, IEEE 754-2019 operations, conversions and the
matrix array's accumulate (R246 to R301). A finite number is a sign, a natural significand and a power of two,
so every operation is exact until its one rounding. -/
namespace Sys2Proof.Machine

/-- A floating-point value: a NaN, an infinity, or (-1)^neg x m x 2^e. -/
inductive Fl where
  | nan (signalling : Bool)
  | inf (neg : Bool)
  | fin (neg : Bool) (m : Nat) (e : Int)
  deriving DecidableEq, Repr, Inhabited

/-! ## Formats (R246) -/

abbrev fINT8 : Nat := 0x0
abbrev fUINT8 : Nat := 0x1
abbrev fINT4 : Nat := 0x2
abbrev fUINT4 : Nat := 0x3
abbrev fE4M3 : Nat := 0x4
abbrev fE5M2 : Nat := 0x5
abbrev fE2M1 : Nat := 0x6
abbrev fBF16 : Nat := 0x7
abbrev fFP16 : Nat := 0x8
abbrev fFP32 : Nat := 0x9
abbrev fFP64 : Nat := 0xA
abbrev fINT32 : Nat := 0xB
abbrev fE8M0 : Nat := 0xC

/-- Significand bits, exponent bits, bias and width of a format. -/
structure FmtInfo where
  p : Nat
  ebits : Nat
  bias : Nat
  width : Nat
  deriving DecidableEq, Repr, Inhabited

/-- The layout of a floating-point format code (R246). -/
def fmtInfo (f : Nat) : FmtInfo :=
  match f with
  | 0x4 => ⟨4, 4, 7, 8⟩
  | 0x5 => ⟨3, 5, 15, 8⟩
  | 0x6 => ⟨2, 2, 1, 4⟩
  | 0x7 => ⟨8, 8, 127, 16⟩
  | 0x8 => ⟨11, 5, 15, 16⟩
  | 0xA => ⟨53, 11, 1023, 64⟩
  | _ => ⟨24, 8, 127, 32⟩

/-- Bits of an element of a format. -/
def fmtWidth (f : Nat) : Nat :=
  match f with
  | 0x0 => 8 | 0x1 => 8 | 0x2 => 4 | 0x3 => 4 | 0xB => 32 | 0xC => 8
  | _ => (fmtInfo f).width

/-- The format is an integer format. -/
def fmtIsInt (f : Nat) : Bool := f ≤ 3 || f == fINT32

/-- The integer format is signed. -/
def fmtSigned (f : Nat) : Bool := f == fINT8 || f == fINT4 || f == fINT32

/-- Smallest normal exponent. -/
def FmtInfo.emin (i : FmtInfo) : Int := 1 - (i.bias : Int)

/-- Largest finite magnitude of a format, as significand and exponent (R246). -/
def fmtMax (f : Nat) : Nat × Int :=
  match f with
  | 0x4 => (14, 5)
  | 0x5 => (7, 13)
  | 0x6 => (3, 1)
  | 0x7 => (255, 120)
  | 0x8 => (2047, 5)
  | 0xA => (2 ^ 53 - 1, 971)
  | _ => (2 ^ 24 - 1, 104)

/-- The canonical NaN's bits (R246). -/
def canonNan (f : Nat) : Nat :=
  match f with
  | 0x4 => 0x7F | 0x5 => 0x7F | 0x6 => 0 | 0x7 => 0x7FC0 | 0x8 => 0x7E00 | 0xA => 0x7FF8000000000000 | 0xC => 0xFF
  | _ => 0x7FC00000

/-- An integer as an exact value. -/
def flInt (i : Int) : Fl := .fin (decide (i < 0)) i.natAbs 0

/-- The value of the bits of a format (R246, R247); E8M0 as R335. -/
def decodeFl (f bits : Nat) : Fl :=
  if fmtIsInt f then
    let w := fmtWidth f
    flInt (if fmtSigned f then sgn w bits else ((bits % 2 ^ w : Nat) : Int))
  else if f == fE8M0 then
    if bits % 256 == 0xFF then .nan false else .fin false 1 ((bits % 256 : Nat) - 127)
  else
    let i := fmtInfo f
    let fb := i.p - 1
    let frac := bits % 2 ^ fb
    let ex := bitsOf bits fb i.ebits
    let neg := bitOf bits (fb + i.ebits)
    let top := 2 ^ i.ebits - 1
    if f == fE4M3 && ex == 15 && frac == 7 then .nan false
    else if ex == top && f != fE4M3 && f != fE2M1 then
      if frac == 0 then .inf neg else .nan (i.width > 8 && frac < 2 ^ (fb - 1))
    else if ex == 0 then .fin neg frac (i.emin - fb)
    else .fin neg (frac + 2 ^ fb) ((ex : Int) - i.bias - fb)

/-- floor(log2 |x|) of a non-zero finite value. -/
def expo (m : Nat) (e : Int) : Int := (Nat.log2 m : Int) + e

/-- Exact comparison of two magnitudes m x 2^e: less, equal, greater. -/
def cmpMag (m1 : Nat) (e1 : Int) (m2 : Nat) (e2 : Int) : Ordering :=
  let d := e1 - e2
  if 0 ≤ d then compare (m1 * 2 ^ d.toNat) m2 else compare m1 (m2 * 2 ^ (-d).toNat)

/-! ## Flags and rounding (R264, R265, R285) -/

abbrev flNV : Nat := 1
abbrev flDZ : Nat := 2
abbrev flOF : Nat := 4
abbrev flUF : Nat := 8
abbrev flNX : Nat := 16

abbrev rmRNE : Nat := 1
abbrev rmRTZ : Nat := 2
abbrev rmRDN : Nat := 3
abbrev rmRUP : Nat := 4
abbrev rmRNA : Nat := 5
abbrev rmROD : Nat := 6

/-- m / 2^d rounded to an integer in a mode; the second part says inexact (R264, R265). -/
def roundShift (mode : Nat) (neg : Bool) (m d : Nat) : Nat × Bool :=
  let q := m >>> d
  let r := m % 2 ^ d
  if r == 0 then (q, false)
  else
    let h := 2 ^ (d - 1)
    let up := match mode with
      | 1 => r > h || (r == h && q % 2 == 1)
      | 3 => neg
      | 4 => !neg
      | 5 => r ≥ h
      | 6 => q % 2 == 0
      | _ => false
    (if up then q + 1 else q, true)

/-- Round to `p` significant bits with least exponent `lo`: significand, exponent, inexact. -/
def roundAt (mode : Nat) (neg : Bool) (p : Nat) (lo : Option Int) (m : Nat) (e : Int) : Nat × Int × Bool :=
  let q0 := expo m e - ((p : Int) - 1)
  let q := match lo with
    | some l => max q0 l
    | none => q0
  if q ≤ e then (m * 2 ^ (e - q).toNat, q, false)
  else
    let (r, x) := roundShift mode neg m (q - e).toNat
    (r, q, x)

/-- The bits of a finite value that the format holds exactly. -/
def packFl (f : Nat) (neg : Bool) (m : Nat) (e : Int) : Nat :=
  let i := fmtInfo f
  let fb := i.p - 1
  let s := b2n neg * 2 ^ (i.width - 1)
  if m == 0 then s else
  let k := expo m e
  if k < i.emin then s + (if i.emin - fb ≤ e then m * 2 ^ (e - (i.emin - fb)).toNat else m >>> ((i.emin - fb) - e).toNat)
  else
    let sig := if k - fb ≤ e then m * 2 ^ (e - (k - fb)).toNat else m >>> ((k - fb) - e).toNat
    s + (k + i.bias).toNat * 2 ^ fb + (sig - 2 ^ fb)

/-- The bits of an infinity of a format that has one. -/
def infBits (f : Nat) (neg : Bool) : Nat :=
  let i := fmtInfo f
  b2n neg * 2 ^ (i.width - 1) + (2 ^ i.ebits - 1) * 2 ^ (i.p - 1)

/-- The bits of the largest finite value of a sign. -/
def maxBits (f : Nat) (neg : Bool) : Nat := packFl f neg (fmtMax f).1 (fmtMax f).2

/-- Round a finite value into a floating-point format: bits and flags (R260, R265, R268 to R271). -/
def roundFl (f mode : Nat) (sat : Bool) (neg : Bool) (m : Nat) (e : Int) : Nat × Nat :=
  let i := fmtInfo f
  if m == 0 then (packFl f neg 0 0, 0) else
  let lo := i.emin - ((i.p : Int) - 1)
  let (r, q, x) := roundAt mode neg i.p (some lo) m e
  let (mm, me) := fmtMax f
  if r != 0 && cmpMag r q mm me == .gt then
    let toInf := mode == rmRNE || mode == rmRNA || (mode == rmRUP && !neg) || (mode == rmRDN && neg)
    let b := if f == fE4M3 then (if sat then maxBits f neg else 0x7F)
      else if f == fE2M1 then maxBits f neg
      else if f == fE5M2 && sat then maxBits f neg
      else if toInf then infBits f neg else maxBits f neg
    (b, flOF ||| flNX)
  else
    let (r2, q2, _) := roundAt mode neg i.p none m e
    let tiny := cmpMag r2 q2 1 i.emin == .lt
    (packFl f neg r q, if x then flNX ||| (if tiny then flUF else 0) else 0)

/-- A value into a floating-point format (R267 to R272); a signalling NaN raises NV (R247). -/
def toFmt (f mode : Nat) (sat : Bool) : Fl → Nat × Nat
  | .nan s => (canonNan f, if f == fE2M1 then flNV else if s then flNV else 0)
  | .inf n =>
    if f == fE4M3 then (if sat then maxBits f n else 0x7F, 0)
    else if f == fE2M1 then (maxBits f n, flNV)
    else (infBits f n, 0)
  | .fin n m e => roundFl f mode sat n m e

/-- A value into E8M0 (R335). -/
def toE8M0 : Fl → Nat × Nat
  | .nan s => (0xFF, if s then flNV else 0)
  | .inf _ => (0xFF, 0)
  | .fin _ m e =>
    if m == 0 then (0, 0) else
    let k := expo m e
    if k < -127 then (0, 0) else if k > 127 then (0xFE, flOF ||| flNX) else ((k + 127).toNat, 0)

/-- A value into an integer format of `w` bits (R273): the number modulo 2^w, and flags;
the operation of R260 raises no inexact flag. -/
def toIntW (w : Nat) (signed : Bool) (mode : Nat) : Fl → Nat × Nat
  | .nan _ => (0, flNV)
  | .inf n =>
    (if n then (if signed then 2 ^ (w - 1) else 0) else (if signed then 2 ^ (w - 1) - 1 else 2 ^ w - 1), flNV)
  | .fin n m e =>
    let r := if 0 ≤ e then m * 2 ^ e.toNat else (roundShift mode n m (-e).toNat).1
    let v : Int := if n then -(r : Int) else r
    let lo : Int := if signed then -(2 ^ (w - 1) : Nat) else 0
    let hi : Int := if signed then (2 ^ (w - 1) : Nat) - 1 else (2 ^ w : Nat) - 1
    if v > hi then (wrapInt w hi, flNV) else if v < lo then (wrapInt w lo, flNV)
    else (wrapInt w v, 0)

/-! ## Operations on exact values (R260, R261) -/

/-- Either value is a NaN. -/
def anyNan (a b : Fl) : Bool := match a, b with
  | .nan _, _ => true | _, .nan _ => true | _, _ => false

/-- NV for a signalling operand. -/
def snanFlag : Fl → Nat
  | .nan true => flNV | _ => 0

/-- The value is negative, zero included. -/
def Fl.isNeg : Fl → Bool
  | .fin n _ _ => n | .inf n => n | .nan _ => false

/-- The value is a zero. -/
def Fl.isZero : Fl → Bool
  | .fin _ 0 _ => true | _ => false

/-- The value negated. -/
def Fl.neg : Fl → Fl
  | .fin n m e => .fin (!n) m e | .inf n => .inf (!n) | x => x

/-- A signed integer of units 2^e. -/
def flUnits (neg : Bool) (m : Nat) : Int := if neg then -(m : Int) else m

/-- The exact sum of two finite values; the sign of a zero sum is as IEEE 754 gives it in the mode. -/
def addFin (mode : Nat) (n1 : Bool) (m1 : Nat) (e1 : Int) (n2 : Bool) (m2 : Nat) (e2 : Int) : Fl :=
  let e := min e1 e2
  let a := flUnits n1 (m1 * 2 ^ (e1 - e).toNat) + flUnits n2 (m2 * 2 ^ (e2 - e).toNat)
  if a = 0 then .fin (if m1 == 0 && m2 == 0 && n1 == n2 then n1 else mode == rmRDN) 0 0
  else .fin (decide (a < 0)) a.natAbs e

/-- The sum before rounding, with NV where the operation is invalid. -/
def addFl (mode : Nat) (a b : Fl) : Fl × Nat :=
  match a, b with
  | .nan _, _ => (.nan false, snanFlag a ||| snanFlag b)
  | _, .nan _ => (.nan false, snanFlag a ||| snanFlag b)
  | .inf x, .inf y => if x == y then (.inf x, 0) else (.nan false, flNV)
  | .inf x, _ => (.inf x, 0)
  | _, .inf y => (.inf y, 0)
  | .fin n1 m1 e1, .fin n2 m2 e2 => (addFin mode n1 m1 e1 n2 m2 e2, 0)

/-- The exact product. -/
def mulFl (a b : Fl) : Fl × Nat :=
  match a, b with
  | .nan _, _ => (.nan false, snanFlag a ||| snanFlag b)
  | _, .nan _ => (.nan false, snanFlag a ||| snanFlag b)
  | .inf x, .inf y => (.inf (x != y), 0)
  | .inf x, .fin n m _ => if m == 0 then (.nan false, flNV) else (.inf (x != n), 0)
  | .fin n m _, .inf y => if m == 0 then (.nan false, flNV) else (.inf (n != y), 0)
  | .fin n1 m1 e1, .fin n2 m2 e2 => (.fin (n1 != n2) (m1 * m2) (e1 + e2), 0)

/-- a x b + c, exact; zero times infinity raises NV and gives a NaN whatever c holds (R261). -/
def fmaFl (mode : Nat) (a b c : Fl) : Fl × Nat :=
  let (p, f) := mulFl a b
  let (s, g) := addFl mode p c
  (s, f ||| g ||| snanFlag c)

/-- The quotient, with bits enough and a sticky bit for one rounding. -/
def divFl (a b : Fl) : Fl × Nat :=
  match a, b with
  | .nan _, _ => (.nan false, snanFlag a ||| snanFlag b)
  | _, .nan _ => (.nan false, snanFlag a ||| snanFlag b)
  | .inf _, .inf _ => (.nan false, flNV)
  | .inf x, .fin n _ _ => (.inf (x != n), 0)
  | .fin n _ _, .inf y => (.fin (n != y) 0 0, 0)
  | .fin n1 m1 e1, .fin n2 m2 e2 =>
    if m2 == 0 then (if m1 == 0 then (.nan false, flNV) else (.inf (n1 != n2), flDZ))
    else
      let num := m1 * 2 ^ 130
      let q := num / m2
      (.fin (n1 != n2) (q * 2 + (if num % m2 == 0 then 0 else 1)) (e1 - e2 - 131), 0)

/-- The integer square root, rounded down. -/
def isqrt (n : Nat) : Nat :=
  (List.range (Nat.log2 n / 2 + 1)).reverse.foldl (fun r i => if (r + 2 ^ i) * (r + 2 ^ i) ≤ n then r + 2 ^ i else r) 0

/-- The square root, with a sticky bit. -/
def sqrtFl (a : Fl) : Fl × Nat :=
  match a with
  | .nan s => (.nan false, if s then flNV else 0)
  | .inf n => if n then (.nan false, flNV) else (.inf false, 0)
  | .fin n m e =>
    if m == 0 then (.fin n 0 0, 0)
    else if n then (.nan false, flNV)
    else
      let (m1, e1) := if e % 2 = 0 then (m, e) else (m * 2, e - 1)
      let x := m1 * 2 ^ 128
      let r := isqrt x
      (.fin false (r * 2 + (if r * r == x then 0 else 1)) (e1 / 2 - 65), 0)

/-- An exact result rounded into FP32 or FP64. -/
def finish (f mode : Nat) (r : Fl × Nat) : Nat × Nat :=
  let (b, g) := toFmt f mode false r.1
  (b, g ||| r.2)

/-- Numeric comparison of two values that are no NaN; zeros are equal. -/
def cmpFl (a b : Fl) : Ordering :=
  match a, b with
  | .inf x, .inf y => if x == y then .eq else if x then .lt else .gt
  | .inf x, _ => if x then .lt else .gt
  | _, .inf y => if y then .gt else .lt
  | .fin n1 m1 e1, .fin n2 m2 e2 =>
    let e := min e1 e2
    compare (flUnits n1 (m1 * 2 ^ (e1 - e).toNat)) (flUnits n2 (m2 * 2 ^ (e2 - e).toNat))
  | _, _ => .eq

/-- The order of minimum and maximum: as cmpFl, with -0 below +0. -/
def ltMinMax (a b : Fl) : Bool :=
  match cmpFl a b with
  | .lt => true
  | .gt => false
  | .eq => a.isNeg && !b.isNeg

/-- minimum, maximum, minimumNumber, maximumNumber on bits of a format. -/
def minMax (f : Nat) (isMax number : Bool) (x y : Nat) : Nat × Nat :=
  let a := decodeFl f x
  let b := decodeFl f y
  let nv := snanFlag a ||| snanFlag b
  match a, b with
  | .nan _, .nan _ => (canonNan f, nv)
  | .nan _, _ => (if number then y else canonNan f, nv)
  | _, .nan _ => (if number then x else canonNan f, nv)
  | _, _ => (if ltMinMax a b != isMax then x else y, nv)

/-- A vfcmp condition (R332): truth and flags. -/
def fcmp (f cond : Nat) (x y : Nat) : Bool × Nat :=
  let a := decodeFl f x
  let b := decodeFl f y
  let c := cond % 8
  let sig := cond ≥ 8
  if anyNan a b then
    (c == 1 || c == 6, snanFlag a ||| snanFlag b ||| (if sig then flNV else 0))
  else
    let o := cmpFl a b
    ((match c with
      | 0 => o == .eq | 1 => o != .eq | 2 => o == .lt | 3 => o != .gt | 4 => o == .gt | 5 => o != .lt | 6 => false | _ => true), 0)

/-- The class code of a value (R332). -/
def fclass (f x : Nat) : Nat :=
  match decodeFl f x with
  | .nan s => if s then 0 else 1
  | .inf n => if n then 2 else 9
  | .fin n m e =>
    if m == 0 then (if n then 5 else 6)
    else if expo m e < (fmtInfo f).emin then (if n then 4 else 7)
    else (if n then 3 else 8)

/-- roundToIntegral in a mode (R260): no inexact flag. -/
def frnd (f mode x : Nat) : Nat × Nat :=
  match decodeFl f x with
  | .nan s => (canonNan f, if s then flNV else 0)
  | .inf n => (infBits f n, 0)
  | .fin n m e => if 0 ≤ e then (x, 0) else (packFl f n (roundShift mode n m (-e).toNat).1 0, 0)

/-- scaleB: A x 2^k rounded once. -/
def fscaleB (f mode x : Nat) (k : Int) : Nat × Nat :=
  match decodeFl f x with
  | .fin n m e => if m == 0 then (x, 0) else roundFl f mode false n m (e + max (-20000) (min 20000 k))
  | .nan s => (canonNan f, if s then flNV else 0)
  | .inf n => (infBits f n, 0)

/-- logB as a signed integer lane of the format's width (R1017). -/
def flogB (f x : Nat) : Nat × Nat :=
  let w := fmtWidth f
  match decodeFl f x with
  | .fin _ m e => if m == 0 then (2 ^ (w - 1), flNV) else (wrapInt w (expo m e), 0)
  | _ => (2 ^ (w - 1) - 1, flNV)

/-- The key that orders bits as totalOrder does. -/
def totalKey (f x : Nat) : Int :=
  let w := fmtWidth f
  let mag := x % 2 ^ (w - 1)
  if bitOf x (w - 1) then -(mag : Int) - 1 else mag

/-- totalOrder(A, B). -/
def totalOrder (f x y : Nat) : Bool := totalKey f x ≤ totalKey f y

/-! ## FP32 in RNE, as the other chapters of the contract use it (R291) -/

/-- An FP32 value. -/
def f32 (x : Nat) : Fl := decodeFl fFP32 x

/-- FP32 sum in RNE. -/
def add32 (x y : Nat) : Nat := (finish fFP32 rmRNE (addFl rmRNE (f32 x) (f32 y))).1

/-- FP32 difference in RNE. -/
def sub32 (x y : Nat) : Nat := (finish fFP32 rmRNE (addFl rmRNE (f32 x) (f32 y).neg)).1

/-- FP32 product in RNE. -/
def mul32 (x y : Nat) : Nat := (finish fFP32 rmRNE (mulFl (f32 x) (f32 y))).1

/-- FP32 quotient in RNE. -/
def div32 (x y : Nat) : Nat := (finish fFP32 rmRNE (divFl (f32 x) (f32 y))).1

/-- FP32 fused multiply and add in RNE. -/
def fma32 (x y z : Nat) : Nat := (finish fFP32 rmRNE (fmaFl rmRNE (f32 x) (f32 y) (f32 z))).1

/-- FP32 negation on the bits. -/
def neg32 (x : Nat) : Nat := if bitOf x 31 then x - 2 ^ 31 else x + 2 ^ 31

/-- An integer as FP32 in RNE. -/
def int32f (i : Int) : Nat := (toFmt fFP32 rmRNE false (flInt i)).1

/-- The FP32 bits are a NaN. -/
def isNan32 (x : Nat) : Bool := match f32 x with
  | .nan _ => true | _ => false

/-- The FP32 bits are an infinity. -/
def isInf32 (x : Nat) : Bool := match f32 x with
  | .inf _ => true | _ => false

/-- FP32 less than, false where a NaN stands. -/
def lt32 (x y : Nat) : Bool := !anyNan (f32 x) (f32 y) && cmpFl (f32 x) (f32 y) == .lt

/-- FP32 maximum as the IEEE operation. -/
def max32 (x y : Nat) : Nat := (minMax fFP32 true false x y).1

/-- FP32 minimum as the IEEE operation. -/
def min32 (x y : Nat) : Nat := (minMax fFP32 false false x y).1

abbrev one32 : Nat := 0x3F800000
abbrev nan32 : Nat := 0x7FC00000
abbrev inf32 : Nat := 0x7F800000
abbrev ninf32 : Nat := 0xFF800000

/-! ## The array's addends and accumulate (R252, R257 to R259, R275 to R279, R301) -/

/-- A finite product or sum at 2^128 or beyond becomes an infinity (R276); the flag is OVF_SEEN. -/
def clampProduct (p : Fl) : Fl × Bool :=
  match p with
  | .fin n m e => if m != 0 && expo m e ≥ 128 then (.inf n, true) else (p, false)
  | _ => (p, false)

/-- A block-scaled element: its value under its E8M0 scale (R257, R259). -/
def scaledValue (f bits : Nat) (scale : Option Nat) : Fl :=
  let v := decodeFl f bits
  match scale with
  | none => v
  | some s =>
    if s % 256 == 0xFF then .nan false else
    match v with
    | .fin n m e => .fin n m (e + ((s % 256 : Nat) : Int) - 127 - (if f == fINT8 then 6 else 0))
    | x => x

/-- One product, formed exactly (R258, R276). -/
def product (a b : Fl) : Fl × Bool := clampProduct (mulFl a b).1

/-- A pair sum of two products (R252, R301). -/
def pairSum (p q : Fl) : Fl × Bool :=
  match p, q with
  | .fin n1 m1 e1, .fin n2 m2 e2 => clampProduct (addFin rmRNE n1 m1 e1 n2 m2 e2)
  | _, _ => ((addFl rmRNE p q).1, false)

/-- A finite value in units of 2^l, truncated toward zero. -/
def truncUnits (neg : Bool) (m : Nat) (e l : Int) : Int :=
  flUnits neg (if l ≤ e then m * 2 ^ (e - l).toNat else m >>> (l - e).toNat)

/-- The FP32 accumulate of R277: the new accumulator and OVF_SEEN. -/
def accumulate (acc : Nat) (p : Fl) : Nat × Bool :=
  match f32 acc, p with
  | .nan _, _ => (nan32, false)
  | _, .nan _ => (nan32, false)
  | .inf x, .inf y => if x == y then (acc, false) else (nan32, false)
  | .inf _, _ => (acc, false)
  | _, .inf y => (infBits fFP32 y, false)
  | .fin n1 m1 e1, .fin n2 m2 e2 =>
    if m1 == 0 && m2 == 0 then (if n1 && n2 then 0x80000000 else 0, false)
    else
      let ea := expo m1 e1
      let ep := expo m2 e2
      let e := if m1 == 0 then ep else if m2 == 0 then ea else max ea ep
      let l := max (e - 26) (-152)
      let tp := truncUnits n2 m2 e2 l
      if tp = 0 then (acc, false)
      else
        let s := truncUnits n1 m1 e1 l + tp
        if s = 0 then (0, false)
        else
          let q := max (expo s.natAbs l - 23) (-149)
          let r := if q ≤ l then s.natAbs * 2 ^ (l - q).toNat else s.natAbs >>> (q - l).toNat
          if r == 0 then (0, false)
          else if expo r q ≥ 128 then (infBits fFP32 (decide (s < 0)), true)
          else (packFl fFP32 (decide (s < 0)) r q, false)

/-- The INT32 accumulate of R279: the sum clamped, and INT_SAT. -/
def accumulateInt (acc : Int) (p : Int) : Int × Bool :=
  let s := acc + p
  if s > 0x7FFFFFFF then (0x7FFFFFFF, true) else if s < -0x80000000 then (-0x80000000, true) else (s, false)

/-! ## Horizontal sums (R262, R263) -/

/-- The sum a + b of bits. -/
def fpAddBits (f m a b : Nat) : Nat × Nat := finish f m (addFl m (decodeFl f a) (decodeFl f b))

/-- One combination of the horizontal sum (R262, R263): no partner, one partner unchanged, or their sum. -/
def hcombine (f m : Nat) (a b : Option Nat × Nat) : Option Nat × Nat :=
  match a.1, b.1 with
  | some x, some y => let (r, g) := fpAddBits f m x y; (some r, a.2 ||| b.2 ||| g)
  | some x, none => (some x, a.2 ||| b.2)
  | none, y => (y, a.2 ||| b.2)

/-- The steps of the horizontal sum: lane i with lane i + h, for h halving (R262). -/
def hsteps (f m : Nat) : Nat → List (Option Nat × Nat) → List (Option Nat × Nat)
  | 0, l => l
  | n + 1, l =>
    let h := l.length / 2
    hsteps f m n ((List.range h).map fun i => hcombine f m (l.getD i (none, 0)) (l.getD (i + h) (none, 0)))

/-- The horizontal sum of the active lanes (R262, R263). -/
def hsum (f m : Nat) (l : List (Option Nat)) : Nat × Nat :=
  match (hsteps f m (Nat.log2 l.length) (l.map fun x => (x, 0))).getD 0 (none, 0) with
  | (none, g) => (0, g)
  | (some r, g) => match decodeFl f r with
    | .nan s => (canonNan f, g ||| (if s then flNV else 0))
    | _ => (r, g)

end Sys2Proof.Machine
end

