-- ==== Sys2Proof/Machine/Flags.lean ====
section
/-! DEFINITION. The arithmetic control word and the IEEE flags it collects (R288 to R290, R331). -/
namespace Sys2Proof.Machine

/-- ACW's reset value: FP8_SAT 1, RMODE RNE (R288, R290). -/
def acwReset : W32 := 0x11

/-- ACW.RMODE. -/
def acwMode (a : W32) : Nat := bitsOf a.toNat 0 3

/-- ACW.SPECIAL: 1 is SILENT. -/
def acwSilent (a : W32) : Bool := a.getLsbD 3

/-- ACW.FP8_SAT. -/
def acwSat (a : W32) : Bool := a.getLsbD 4

/-- OR IEEE flags (NV, DZ, OF, UF, NX from bit 0) into ACW bits 12:8 (R331). -/
def acwOr (a : W32) (flags : Nat) : W32 := a ||| (BitVec.ofNat 32 (flags % 32) <<< 8)

/-- Flags that an instruction of the core raises (R331); they are in flight until the core next reads or writes ACW (R404). -/
def Core.raiseFlags (x : Core) (flags : Nat) : Core := { x with acw := acwOr x.acw flags, late := x.late ||| flags % 32 }

/-- The rounding mode of an RM field: DYN takes ACW.RMODE; 0b111 is reserved (R264). -/
def roundMode (acw : W32) (rm : Nat) : Option Nat :=
  if rm == 7 then none else if rm == 0 then some (acwMode acw) else some rm

/-- A write of ACW (R288, R289): none where RMODE would be 0b000 or 0b111. Sticky flags clear where 1 is written. -/
def acwWrite (a : W32) (v : W64) : Option W32 :=
  let m := bitsOf v.toNat 0 3
  if m == 0 || m == 7 then none
  else
    let keep := bitsOf a.toNat 8 5 &&& (31 - bitsOf v.toNat 8 5)
    some (BitVec.ofNat 32 (keep * 256 + bitsOf v.toNat 0 5))

/-- A write of ACW by the core: the flags of the instructions before it merge after the write (R404: DEDUCED, log entry 50). -/
def Core.writeAcw (x : Core) (v : W64) : Option Core :=
  (acwWrite x.acw v).map fun a => { x with acw := acwOr a x.late, late := 0 }

/-- Combine the results of active lanes: a vector and the OR of their flags (R312, R331). -/
def laneFlags (w : Nat) (pred : W64) (f : Nat → Nat × Nat) : Nat :=
  (List.range (512 / w)).foldl (fun a i => if pred.getLsbD i then a ||| (f i).2 else a) 0

end Sys2Proof.Machine
end

