-- ==== Sys2Proof/Machine/SfuFun.lean ====
section
/-! DEFINITION. The functions of the special-function units: segment evaluation, built-in functions, plate tables and burin
programs (R489 to R506). -/
namespace Sys2Proof.Machine

/-! ## Segment evaluation (R489) -/

/-- Coefficient `i` of segment `seg` of a built-in table. The spec prints none but those that R496 forces; the others are
free finite FP32 values (DEDUCED, log entry 6). -/
def builtinCoef (id seg i : Nat) : Nat :=
  if i == 0 && id == 0 && seg == 128 then one32
  else if i == 0 && id == 1 && seg == 0 then 0
  else if i == 0 && (id == 2 || id == 3) && seg == 0 then one32
  else
    let v := (Config.contractCoef id seg i).toNat
    if bitsOf v 23 8 == 255 then v - 2 ^ 23 else v

/-- The value of a segment at offset `t` from its coefficients (R489). -/
def evalSeg (c0 c1 c2 t : Nat) : Nat := fma32 (fma32 c2 t c1) t c0

/-- P(s, t) of a built-in table. -/
def evalBuiltin (id seg t : Nat) : Nat := evalSeg (builtinCoef id seg 0) (builtinCoef id seg 1) (builtinCoef id seg 2) t

/-- P(s, t) of a plate table. -/
def SfuTable.eval (x : SfuTable) (seg t : Nat) : Nat :=
  evalSeg (x.coef.getD (3 * seg) 0) (x.coef.getD (3 * seg + 1) 0) (x.coef.getD (3 * seg + 2) 0) t

/-- scaleB of FP32 in RNE. -/
def scale32 (x : Nat) (k : Int) : Nat := (fscaleB fFP32 rmRNE x k).1

/-- A finite non-zero FP32 magnitude as the exponent e and the fraction F of its significand in [1, 2). -/
def mantissa (m : Nat) (e : Int) : Int × Nat :=
  let k := Nat.log2 m
  ((k : Int) + e, m * 2 ^ (23 - k) - 2 ^ 23)

/-- The FP32 value n x 2^e, exact. -/
def exact32 (n : Nat) (e : Int) : Nat := packFl fFP32 false n e

/-! ## The bounds of the built-in functions (R497) -/

/-- The exponential series in fixed point with 400 fraction bits, from its term `k`; `x` counts in 2^-149. -/
def expSeries : Nat → Nat → Int → Int → Int → Int
  | 0, _, _, _, s => s
  | n + 1, k, x, t, s => expSeries n (k + 1) x (t * x / (2 ^ 149 * ((k : Int) + 1))) (s + t)

/-- The series of artanh in the same fixed point, from power `k`: `zz` is the square of the argument, `p` its power. -/
def artanhSeries : Nat → Nat → Nat → Nat → Nat → Nat
  | 0, _, _, _, s => s
  | n + 1, k, zz, p, s => artanhSeries n (k + 2) zz (p * zz / 2 ^ 400) (s + p / k)

/-- ln of a / b for a at most 2 b, in the same fixed point. -/
def lnFix (a b : Nat) : Nat :=
  let z := (a - b) * 2 ^ 400 / (a + b)
  2 * artanhSeries 150 1 (z * z / 2 ^ 400) z 0

/-- What a built-in function does beyond its table: m x 2^e as the number of 2^-400 of EXP, LOG, RCP and RSQ. -/
def exactFix (id : Nat) (neg : Bool) (m : Nat) (e : Int) : Int :=
  match id with
  | 0 => expSeries 600 0 ((if neg then -1 else 1) * (m : Int) * 2 ^ (e + 149).toNat) (2 ^ 400) 0
  | 1 => let (ex, f) := mantissa m e
    ex * lnFix 2 1 + lnFix (2 ^ 23 + f) (2 ^ 23)
  | 2 => (if neg then -1 else 1) * ((2 ^ (400 - e).toNat / m : Nat) : Int)
  | _ => (isqrt (2 ^ (800 - e).toNat / m) : Nat)

/-- An FP32 value in units of 2^-149. -/
def fpUnits (x : Nat) : Int :=
  let e := bitsOf x 23 8
  let m : Nat := if e == 0 then x % 2 ^ 23 else (2 ^ 23 + x % 2 ^ 23) * 2 ^ (e - 1)
  if bitOf x 31 then -(m : Int) else m

/-- A result of the free tables as R497 bounds it: within the bound it stands; else the mathematical value rounded stands in its place, so
that every draw of the tables meets the bound (DEDUCED, log entry 6). -/
def within497 (id x got : Nat) : Nat :=
  match f32 x with
  | .fin neg m e =>
    let v := exactFix id neg m e
    let fl := Fl.fin (decide (v < 0)) v.natAbs (-400)
    let want := (toFmt fFP32 rmRNE false fl).1
    let ulp := 2 ^ (max 1 (bitsOf (toFmt fFP32 rmRTZ false fl).1 23 8) - 1)
    let bound := if id == 1 && 0x3F000000 ≤ x && x < 0x3F800000 then 2 ^ 125 else if id ≤ 1 then 2 * ulp else ulp
    if isInf32 want || isNan32 got || bound < (fpUnits want - fpUnits got).natAbs then want else got
  | _ => got

/-! ## The built-in functions (R491 to R495) -/

/-- RCP (R491). -/
def sfuRcp (x : Nat) : Nat :=
  match f32 x with
  | .nan _ => nan32
  | .inf n => b2n n * 2 ^ 31
  | .fin n m e =>
    if m == 0 then infBits fFP32 n
    else
      let (ex, f) := mantissa m e
      let r := scale32 (evalBuiltin 2 (f >>> 15) (exact32 (f % 2 ^ 15) (-15))) (-ex)
      within497 2 x (if n then neg32 r else r)

/-- RSQ (R492). -/
def sfuRsq (x : Nat) : Nat :=
  match f32 x with
  | .nan _ => nan32
  | .inf n => if n then nan32 else 0
  | .fin n m e =>
    if m == 0 then infBits fFP32 n
    else if n then nan32
    else
      let (ex, f) := mantissa m e
      let odd := (ex % 2).toNat
      within497 3 x (scale32 (evalBuiltin 3 (odd * 128 + (f >>> 16)) (exact32 (f % 2 ^ 16) (-16))) (-((ex - odd) / 2)))

/-- LOG (R493). -/
def sfuLog (x : Nat) : Nat :=
  match f32 x with
  | .nan _ => nan32
  | .inf n => if n then nan32 else inf32
  | .fin n m e =>
    if m == 0 then ninf32
    else if n then nan32
    else
      let (ex, f) := mantissa m e
      within497 1 x (fma32 (int32f ex) 0x3F317218 (evalBuiltin 1 (f >>> 15) (exact32 (f % 2 ^ 15) (-15))))

/-- EXP (R494); 89.0, -104.0, log2 e, the two parts of ln 2 and 256.0 are given by their bits. -/
def sfuExp (x : Nat) : Nat :=
  match f32 x with
  | .nan _ => nan32
  | .inf n => if n then 0 else inf32
  | .fin _ _ _ =>
    if !lt32 x 0x42B20000 then inf32
    else if !lt32 0xC2D00000 x then 0
    else
      let n := sgn 32 (toIntW 32 true rmRNE (f32 (mul32 x 0x3FB8AA3B))).1
      let nn := int32f (-n)
      let r := fma32 nn 0x35BFBE8E (fma32 nn 0x3F317200 x)
      let u := mul32 r 0x43800000
      let q := (frnd fFP32 rmRDN u).1
      let t := sub32 u q
      let s := sgn 32 (toIntW 32 true rmRTZ (f32 q)).1 + 128
      within497 0 x (scale32 (evalBuiltin 0 s.toNat t) n)

/-- Built-in function `id`: EXP, LOG, RCP, RSQ. -/
def sfuBuiltin (id x : Nat) : Nat :=
  match id with
  | 0 => sfuExp x
  | 1 => sfuLog x
  | 2 => sfuRcp x
  | _ => sfuRsq x

/-- A plate table's function (R498). -/
def SfuTable.apply (tb : SfuTable) (x : Nat) : Nat :=
  if isNan32 x then nan32
  else
    let y := if !lt32 0 x then 0 else if !lt32 x one32 then 0x3F7FFFFF else x
    let u := mul32 y 0x43800000
    let q := (frnd fFP32 rmRDN u).1
    tb.eval (toIntW 32 true rmRTZ (f32 q)).1 (sub32 u q)

/-! ## Burin programs (R501 to R505) -/

/-- logB as an FP32 value (R260, R502). -/
def logb32 (x : Nat) : Nat :=
  match f32 x with
  | .nan _ => nan32
  | .inf _ => inf32
  | .fin _ m e => if m == 0 then ninf32 else int32f (expo m e)

/-- A step's 8 bytes as a number (R501). -/
def burinStep (op a b c d md imm : Nat) : Nat :=
  op + (a * 16 + d) * 2 ^ 8 + (c * 16 + b) * 2 ^ 16 + md * 2 ^ 24 + imm * 2 ^ 32

/-- The shipped programs 0 to 4 (R505). -/
def shippedProgram (id : Nat) : Option (List Nat) :=
  let fma := fun a b c d imm => burinStep 2 a b c d 0 imm
  let lut := fun t a d => burinStep 1 a 0 0 d t 0
  let neg1 := 0xBF800000
  match id with
  | 0 => some [fma 0 7 2 1 neg1, lut 0 1 1, fma 1 7 7 1 one32, lut 2 1 0]
  | 1 => some [fma 0 7 2 1 0xC0000000, lut 0 1 1, fma 1 7 7 1 one32, lut 2 1 1, fma 2 2 7 3 neg1, fma 1 7 3 0 0x40000000]
  | 2 => some [fma 0 0 2 1 0, fma 2 2 7 3 0xBFCC422A, fma 1 7 3 1 0xBD922279, fma 1 0 2 1 0, lut 0 1 1, fma 1 7 7 1 one32,
      lut 2 1 1, fma 0 1 2 0 0, burinStep 6 1 7 2 0 0 0]
  | 3 => some [fma 0 7 2 1 neg1, lut 0 1 1, fma 1 7 7 1 one32, lut 2 1 1, fma 0 1 2 0 0, burinStep 6 1 7 2 0 0 0]
  | 4 => some [lut 0 0 1, fma 1 7 7 1 one32, lut 1 1 3, burinStep 6 0 7 3 0 3 0x41800000]
  | _ => none

/-- One step on the working registers; `tb` gives the plate tables (R502). -/
def burinRun (tb : Nat → Nat → Nat) (w : List Nat) (step : Nat) : List Nat :=
  let imm := bitsOf step 32 32
  let src := fun i => if i == 7 then imm else w.getD i 0
  let a := src (bitsOf step 12 3)
  let b := src (bitsOf step 16 3)
  let c := src (bitsOf step 20 3)
  let d := bitsOf step 8 3
  let md := bitsOf step 24 8
  match bitsOf step 0 8 with
  | 1 => w.set d (tb (md % 16) a)
  | 2 => w.set d (fma32 a b c)
  | 3 => w.set d (frnd fFP32 md a).1
  | 4 =>
    if md == 0 then w.set d (logb32 a)
    else match f32 a with
      | .fin _ m e => w.set d (if m == 0 then a else scale32 a (-expo m e))
      | _ => w.set d a
  | 5 =>
    if isNan32 b then w.set d nan32
    else w.set d (scale32 a (max (-512) (min 512 (sgn 32 (toIntW 32 true rmRTZ (f32 b)).1))))
  | 6 => if (fcmp fFP32 (md % 8) a b).1 then w.set d c else w
  | _ => w

/-- The result of a program on an argument (R503). -/
def burinEval (tb : Nat → Nat → Nat) (steps : List Nat) (x : Nat) : Nat :=
  let r := (steps.foldl (burinRun tb) [x, 0, 0, 0, 0, 0, 0]).getD 0 0
  if isNan32 r then nan32 else r

/-! ## The functions a partition has (R336, R490) -/

/-- Plate table `id` of a partition. -/
def PartTables.sfuTable (t : PartTables) (id : Nat) : Option SfuTable := t.sfu.find? fun x => x.id == id

/-- The table function of a partition; an id without a table gives the canonical NaN, which R504 rules out. -/
def PartTables.lut (t : PartTables) (id x : Nat) : Nat :=
  if id < 4 then sfuBuiltin id x else match t.sfuTable id with
    | some tb => tb.apply x
    | none => nan32

/-- The program a partition has under an id. -/
def PartTables.program (t : PartTables) (id : Nat) : Option (List Nat) :=
  match shippedProgram id with
  | some p => some p
  | none => t.burin.lookup id

/-- The function that a selector names: bit 7 or 6 picks programs; none where the partition has none (R336, R476). -/
def PartTables.function (t : PartTables) (program : Bool) (id : Nat) : Option (Nat → Nat) :=
  if program then (t.program id).map fun p => burinEval t.lut p
  else if id < 4 then some (sfuBuiltin id)
  else (t.sfuTable id).map fun tb => tb.apply

/-- The tables of the partition that holds core `k`. -/
def Chip.tablesOf (ch : Chip) (k : Nat) : PartTables := (ch.part (ch.partNo k)).tables

end Sys2Proof.Machine
end

