-- ==== Sys2Proof/Machine/Mem.lean ====
section
/-! DEFINITION. Access to the chip's memories by its agents: permission, the uncorrectable lines, speculative
epochs and append regions (R81 to R89, R366, R433 to R450). -/
namespace Sys2Proof.Machine

/-! ## Epochs (R433 to R441) -/

/-- Epoch `n` of a core. -/
def Core.epoch (k : Core) (n : Nat) : Epoch := k.epochs.getD n {}

/-- Change epoch `n` of a core. -/
def Core.modEpoch (k : Core) (n : Nat) (f : Epoch → Epoch) : Core := { k with epochs := k.epochs.modify n f }

/-- The youngest OPEN epoch. -/
def Core.youngest (k : Core) : Option Nat :=
  k.epochOrder.reverse.find? fun n => (k.epoch n).state == .openE

/-- Some epoch is DOOMED. -/
def Core.anyDoomed (k : Core) : Bool := k.epochs.any fun e => e.state == .doomed

/-- Shadow lines in use (R435). -/
def Core.shadowUsed (k : Core) : Nat := (k.epochs.map fun e => e.lines.length).sum

/-- Append marks in use (R446). -/
def Core.marksUsed (k : Core) : Nat := (k.epochs.map fun e => e.marks.length).sum

/-- Bit n is set while epoch n is OPEN (R405). -/
def Core.openMask (k : Core) : Nat :=
  ((List.range 4).map fun n => if (k.epoch n).state == .openE then 2 ^ n else 0).sum

/-- Restore the lines an epoch saved and drop its marks (R436, R440); a saved line with an uncorrectable error makes the
restored line report it (R855). -/
def Chip.restore (ch : Chip) (k n : Nat) : Chip :=
  let e := (ch.core k).epoch n
  let whole := fun (l : Nat) => e.lines.any fun x => x.1 == l
  let ch1 := ch.modCore k fun c => c.modEpoch n fun e => { e with lines := [], marks := [], bad := [] }
  { ch1 with
    mem := e.lines.foldl (fun m l => Memory.write m l.1 l.2) ch.mem
    badLines := ch.badLines.filter (fun l => !whole l) ++ e.bad
    softLines := ch.softLines.filter fun l => !whole l }

/-- Epoch `n` and every younger non-closed epoch of a core, youngest first. -/
def Core.fromEpoch (k : Core) (n : Nat) : List Nat := (k.epochOrder.dropWhile fun x => x != n).reverse

/-- Doom epoch `n` and every younger OPEN one: restore, mark DOOMED, raise EPOCH_DOOMED (R436, R438). -/
def Chip.doom (ch : Chip) (k n : Nat) : Chip :=
  let l := ((ch.core k).fromEpoch n).filter fun i => ((ch.core k).epoch i).state == .openE
  let ch1 := ch.forEach l fun i a => (a.restore k i).modCore k fun c => c.modEpoch i fun e => { e with state := .doomed }
  ch1.ev 0x0204 info k (ch.partNo k) cOK 0 n

/-- Close an epoch and take it out of the order. -/
def Core.closeEpoch (k : Core) (n : Nat) : Core :=
  { k.modEpoch n (fun e => { e with state := .closed, lines := [], marks := [], bad := [] }) with epochOrder := k.epochOrder.filter fun x => x != n }

/-- Abort every OPEN epoch as eabort does and close every DOOMED one (R1020). -/
def Chip.closeEpochs (ch : Chip) (k : Nat) : Chip :=
  ch.forEach (ch.core k).epochOrder.reverse fun n a => (a.restore k n).modCore k fun c => c.closeEpoch n

/-- The core whose store holds an address, if any. -/
def coreOfAddr (a : Nat) : Option Nat :=
  if coreStoreBase ≤ a && a < regBase then some ((a - coreStoreBase) / 0x200000) else none

/-- The memory as every agent but core `k` sees the store of `k`: without what its OPEN epochs wrote (R366). -/
def Chip.committedMem (ch : Chip) (k : Nat) : List Host.Cell :=
  let c := ch.core k
  c.epochOrder.reverse.foldl (fun m n => (c.epoch n).lines.foldl (fun m l => Memory.write m l.1 l.2) m) ch.mem

/-- `n` bytes as an agent sees them; `own` is the core that reads its own store (R355, R366). -/
def Chip.see (ch : Chip) (own : Option Nat) (a n : Nat) : List Nat :=
  match coreOfAddr a with
  | some k => if own == some k || (ch.core k).epochOrder.isEmpty then ch.readBytes a n else Memory.bytes (ch.committedMem k) a n
  | none => ch.readBytes a n

/-- The oldest OPEN epoch of the core store's owner that has written a line of the range (R438). -/
def Chip.clash (ch : Chip) (a n : Nat) : Option (Nat × Nat) :=
  match coreOfAddr a with
  | none => none
  | some k =>
    let c := ch.core k
    let ls := linesOf a n
    (c.epochOrder.find? fun e => (c.epoch e).state == .openE && (c.epoch e).lines.any fun l => ls.contains l.1).map fun e => (k, e)

/-- A plain store, or one of another agent: it first dooms the epochs that wrote its lines (R438). -/
def Chip.plainStore (ch : Chip) (a : Nat) (bytes : List Nat) : Chip :=
  match ch.clash a bytes.length with
  | some (k, e) => (ch.doom k e).store a bytes
  | none => ch.store a bytes

/-! ## Append regions (R443 to R446) -/

/-- Append region `r`. -/
def Chip.region (ch : Chip) (r : Nat) : Region := ch.regions.getD r {}

/-- Change append region `r`. -/
def Chip.modRegion (ch : Chip) (r : Nat) (f : Region → Region) : Chip := { ch with regions := ch.regions.modify r f }

/-- The range touches committed bytes of a bound region, which are read-only (R444). -/
def Chip.committedHit (ch : Chip) (a n : Nat) : Bool :=
  ch.regions.any fun r => r.bound && a < r.base + 64 * r.committed && r.base < a + n

/-- The bound region of partition `p` that holds a range. -/
def Chip.regionAt (ch : Chip) (p a n : Nat) : Option Nat :=
  (List.range 64).find? fun i =>
    let r := ch.region i
    r.bound && r.part == p && r.base ≤ a && a + n ≤ r.base + 64 * r.size

/-- Marks that any core holds in region `r` (R449, R454). -/
def Chip.marksIn (ch : Chip) (r : Nat) : Nat :=
  (ch.cores.map fun c => (c.epochs.map fun e => (e.marks.filter fun m => m.1 == r).length).sum).sum

/-! ## Permission (R84 to R89) -/

/-- Every byte of a window access lies in one listed range and one store (R686). -/
def windowOk (off n : Nat) : Bool :=
  off + n ≤ 0x0F00000000 ||
  (0x0F00000000 ≤ off && off + n ≤ 0x0F08000000 && (off % 0x1000000 + n ≤ 0x1000000)) ||
  (0x0F40000000 ≤ off && off + n ≤ 0x0F48000000 && (off % 0x200000 + n ≤ 0x200000))

/-- The code of an access of partition `p` to a place, but for register space (R87, R89, R572, R685, R686, R747). -/
def Chip.permit (ch : Chip) (p : Nat) (pl : Place) (a n : Nat) : Nat :=
  let x := (ch.part p).plate
  match pl with
  | .dram => if x.dramBase ≤ a && a + n ≤ x.dramBase + x.dramSize - x.spill then cOK else cPERM
  | .podStore d => if bitOf x.podMask d then cOK else cPERM
  | .coreStore k => if bitOf x.podMask (podOf k) then cOK else cPERM
  | .regs _ => cOK
  | .window 0 o => if !bitOf x.linkMask 0 then cPERM else if !windowOk o n then cBOUNDS
    else if ch.twin.pair == .detached then cFENCED else cOK
  | .window 1 o => if x.peer0 != 0xFF && windowOk o n then cOK else cBOUNDS
  | .window _ o => if x.peer1 != 0xFF && windowOk o n then cOK else cBOUNDS
  | .host _ => cOK

/-- The place an access of partition `p` reaches, or the code that refuses it (R84 to R89). -/
def Chip.reach (ch : Chip) (p a n : Nat) : Except Nat Place :=
  match ch.place a n with
  | none => .error cBOUNDS
  | some pl => match ch.permit p pl a n with
    | 0 => .ok pl
    | c => .error c

/-- The place is memory of this chip. -/
def Place.isLocal : Place → Bool
  | .dram => true
  | .podStore _ => true
  | .coreStore _ => true
  | _ => false

/-- The code of a read of local memory: uncorrectable lines (R81). -/
def Chip.readCode (ch : Chip) (a n : Nat) : Nat := if ch.bad a n then cECC else cOK

/-- The code of a write to local memory: committed append bytes (R444), uncorrectable lines written in part (R81). -/
def Chip.writeCode (ch : Chip) (a n : Nat) : Nat :=
  if ch.committedHit a n then cPERM else if ch.badWrite a n then cECC else cOK

/-- The pod whose store holds an address, if any. -/
def podOfAddr (a : Nat) : Option Nat :=
  if podStoreBase ≤ a && a < coreStoreBase then some ((a - podStoreBase) / 0x1000000) else none

/-- Count the corrected error of a line: of DRAM by its stack, the one that the unpublished hash gives its 512-byte granule (R81, R82);
of a pod store in POD.PS_CORRECTED (R584). -/
def Chip.countLine (ch : Chip) (l : Nat) : Chip :=
  if l < ch.variant.dramBytes then
    { ch with rcv := { ch.rcv with
      corrHbm := ch.rcv.corrHbm.modify (Config.dramStack ch.variant.number (l / 512) % ch.variant.stacks) fun n => (n + 1) % 2 ^ 64 } }
  else match podOfAddr l with
    | some d => ch.modPod d fun x => { x with psCorrected := (x.psCorrected + 1) % 2 ^ 32 }
    | none => ch

/-- Count the corrected errors of a read (R81, R82, R584). -/
def Chip.countSoft (ch : Chip) (a n : Nat) : Chip :=
  ((linesOf a n).filter ch.softLines.contains).foldl Chip.countLine ch

/-- A read of local memory by an agent of partition `p`: its code and bytes. -/
def Chip.fetchLocal (ch : Chip) (p : Nat) (own : Option Nat) (a n : Nat) : Except Nat (List Nat) :=
  match ch.reach p a n with
  | .error c => .error c
  | .ok pl => if !pl.isLocal then .error cBOUNDS else if ch.bad a n then .error cECC else .ok (ch.see own a n)

/-- A write to local memory by an agent of partition `p`: its code, or the chip after it. -/
def Chip.putLocal (ch : Chip) (p : Nat) (a : Nat) (bytes : List Nat) : Except Nat Chip :=
  match ch.reach p a bytes.length with
  | .error c => .error c
  | .ok pl =>
    if !pl.isLocal then .error cBOUNDS else
    match ch.writeCode a bytes.length with
    | 0 => .ok (ch.plainStore a bytes)
    | c => .error c

end Sys2Proof.Machine
end

