-- ==== Sys2Proof/Machine/Rings.lean ====
section
/-! DEFINITION. What the device writes to host memory of itself: completion rings, event rings, telemetry rings, and
the MSI-X vectors (R899, R908, R909, R919 to R927). -/
namespace Sys2Proof.Machine

/-- The function that owns the rings of partition `p` (R899). -/
def Chip.ownerFn (ch : Chip) (p : Nat) : Nat := if p < 8 && ch.host.vfEnable && p + 1 ≤ ch.host.numVfs then p + 1 else 0

/-- HOST_MEM_ERROR, naming the function and the address (R907, R939). -/
def Chip.hostMemError (ch : Chip) (fn a code : Nat) : Chip := ch.ev 0x0C05 err 0xFF 0xFF code a fn

/-- A function may issue requests: Bus Master Enable is 1 and it is not in D3hot (R897, R907). -/
def Chip.busMaster (ch : Chip) (fn : Nat) : Bool := let f := ch.host.fns.getD fn {}; f.bme && !f.d3hot

/-- A write of the device to host memory; one that is not issued raises HOST_MEM_ERROR (R907). -/
def Chip.hostPut (ch : Chip) (fn a : Nat) (bytes : List Nat) : Chip :=
  if ch.busMaster fn then ch.emit (.hostWrite fn a bytes) else ch.hostMemError fn a cPERM

/-! ## MSI-X (R926, R927) -/

/-- Fire vector `vec` of a function; CPL_MOD `us` holds back a vector that has fired since (R927). -/
def Chip.fireOf (ch : Chip) (fn vec us : Nat) : Chip :=
  let h := ch.host
  let new : Vector := { fn := fn, vec := vec, last := ch.time }
  let others := h.vectors.filter fun v => !(v.fn == fn && v.vec == vec)
  match h.vectors.find? fun v => v.fn == fn && v.vec == vec with
  | some v =>
    if ch.time < v.last + 1000 * us then { ch with host := { h with vectors := others ++ [{ v with deferred := true }] } }
    else { ch with host := { h with vectors := others ++ [new] } }.emit (.msix fn vec)
  | none => { ch with host := { h with vectors := others ++ [new] } }.emit (.msix fn vec)

/-- Fire vector `j` of partition `p`: of the VF that owns its rings, else of the PF (R926). -/
def Chip.firePart (ch : Chip) (p j : Nat) : Chip :=
  let fn := ch.ownerFn p
  ch.fireOf fn (if fn == 0 then 4 * p + j else j) (ch.ring p).cplMod

/-! ## Completion rings (R919 to R923) -/

/-- A ring of partition `p` is enabled: bit `i` of CTRL.EN. -/
def Rings.on (r : Rings) (i : Nat) : Bool := bitOf r.en i

/-- A ring of partition `p` is in ERROR. -/
def Rings.bad (r : Rings) (i : Nat) : Bool := bitOf r.err i

/-- Entries of the command, completion, event and telemetry rings (R941). -/
def Rings.size (r : Rings) (i : Nat) : Nat :=
  2 ^ bitsOf r.sizes (match i with | 0 => 0 | 1 => 12 | 2 => 20 | _ => 28) (match i with | 0 => 4 | 1 => 5 | 2 => 5 | _ => 4)

/-- The difference of two free-running counters (R909). -/
def ctrDiff (a b : Nat) : Nat := (a + 2 ^ 32 - b % 2 ^ 32) % 2 ^ 32

/-- A free-running counter up by one. -/
def ctrInc (a : Nat) : Nat := (a + 1) % 2 ^ 32

/-- The 32 bytes of a completion entry at position `pos` of a ring of `n` entries (R919, R920). -/
def Cpl.bytes (c : Cpl) (pos n : Nat) : List Nat :=
  leBytes 4 c.cmdId ++ [c.opcode, c.code, c.sub, c.flags + (if pos / n % 2 == 0 then 1 else 0)] ++ leBytes 8 c.value ++
  leBytes 4 c.tick ++ [0, 0, 0, 0] ++ leBytes 8 c.time

/-- The completion is unsolicited. -/
def Cpl.unsolicited (c : Cpl) : Bool := bitOf c.flags 1

/-- It is a tick completion. -/
def Cpl.isTick (c : Cpl) : Bool := bitOf c.flags 2

/-- There is space in the completion ring of `r`. -/
def Rings.cplSpace (r : Rings) : Bool := !r.bad 1 && ctrDiff r.cplProd r.cplHead < r.size 1

/-- Write a completion into the ring of partition `p`, and fire its vector (R920, R927). -/
def Chip.writeCpl (ch : Chip) (p : Nat) (c : Cpl) : Chip :=
  let r := ch.ring p
  let n := r.size 1
  let a := (ch.modRing p fun x => { x with cplProd := ctrInc x.cplProd }).hostPut (ch.ownerFn p)
    (r.cplBase + 32 * (r.cplProd % n)) (c.bytes r.cplProd n)
  if c.irq || c.unsolicited then a.firePart p 0 else a

/-- A completion of partition `p` is dropped and counted (R922, R923). -/
def Chip.dropCpl (ch : Chip) (p : Nat) : Chip :=
  let a := ch.modRing p fun x => { x with droppedCpl := min (x.droppedCpl + 1) 0xFFFF }
  let r := a.ring p
  a.ev 0x0C04 warn 0xFF p cOK (r.droppedCpl * 0x10000 + r.droppedEvt)

/-- A completion made for partition `p`: written, waiting its turn, or dropped (R922, R923). -/
def Chip.postCpl (ch : Chip) (p : Nat) (c : Cpl) : Chip :=
  let r := ch.ring p
  let c1 := { c with tick := (ch.part p).tickIndex, time := ch.time }
  if !r.on 1 then ch.dropCpl p
  else if r.waiting.isEmpty && r.cplSpace then ch.writeCpl p c1
  else if c.isTick && 64 ≤ (r.waiting.filter Cpl.isTick).length then ch.dropCpl p
  else ch.modRing p fun x => { x with waiting := x.waiting ++ [c1] }

/-- Write the completions that wait while there is space (R922). -/
def Chip.drainCpl (p : Nat) : Nat → Chip → Chip
  | 0, ch => ch
  | n + 1, ch =>
    let r := ch.ring p
    match r.waiting with
    | c :: rest =>
      if r.on 1 && r.cplSpace then Chip.drainCpl p n ((ch.modRing p fun x => { x with waiting := rest }).writeCpl p c) else ch
    | [] => ch

/-- An unsolicited completion (R921): a retirement, or a tick completion. -/
def Chip.unsolicited (ch : Chip) (p : Nat) (tick : Bool) (code sub handle : Nat) : Chip :=
  ch.postCpl p { cmdId := 0xFFFFFFFF, opcode := if tick then 1 else 2, code := code, sub := sub,
                 flags := 2 + (if tick then 4 else 0), value := handle }

/-- Command `x` of partition `p`'s ring has completed; FENCEs that waited for it alone complete after it (R914, R919). -/
def Chip.cmdCpl (ch : Chip) (p : Nat) (x : HostCmd) (code sub value : Nat) : Chip :=
  let a := (ch.modRing p fun r => { r with live := r.live.filter fun i => i != x.seq }).postCpl p
    { cmdId := x.cmdId, opcode := x.opcode, code := code, sub := sub, value := value, irq := bitOf x.flags 0 }
  (a.ring p).fences.foldl (fun b f =>
    let live := (b.ring p).live
    if f.2.any live.contains then b
    else (b.modRing p fun r => { r with
        live := r.live.filter (fun i => i != f.1.seq), fences := r.fences.filter fun g => g.1.seq != f.1.seq }).postCpl p
      { cmdId := f.1.cmdId, opcode := f.1.opcode, code := cOK, irq := bitOf f.1.flags 0 }) a

/-! ## Entries of the event rings and telemetry (R811, R859, R924, R925) -/

/-- The 32 bytes of an event entry (R811, R812). -/
def Entry.bytes (e : Entry) : List Nat :=
  leBytes 8 e.time ++ leBytes 2 e.id ++ [e.cls + (if e.summary then 4 else 0), e.agent, e.part, e.code, e.level, 0] ++
  leBytes 4 e.tick ++ leBytes 2 e.reps ++ leBytes 2 e.arg1 ++ leBytes 8 e.arg0

/-- Write an entry to partition `p`'s event ring, or drop and count it (R924). -/
def Chip.putEvent (ch : Chip) (p : Nat) (bytes : List Nat) : Chip :=
  let r := ch.ring p
  if r.on 2 && !r.bad 2 && ctrDiff r.evtProd r.evtHead < r.size 2 then
    ((ch.modRing p fun x => { x with evtProd := ctrInc x.evtProd }).hostPut (ch.ownerFn p)
      (r.evtBase + 32 * (r.evtProd % r.size 2)) bytes).firePart p 1
  else ch.modRing p fun x => { x with droppedEvt := min (x.droppedEvt + 1) 0xFFFF }

/-- Entries of the chip event ring. -/
def HostIf.chipSize (h : HostIf) : Nat := 2 ^ bitsOf h.chipEvtCtrl 8 5

/-- Write an entry to the chip event ring, or drop it (R924). -/
def Chip.putChipEvent (ch : Chip) (bytes : List Nat) : Chip :=
  let h := ch.host
  if bitOf h.chipEvtCtrl 0 && !h.chipEvtErr && ctrDiff h.chipEvtProd h.chipEvtHead < h.chipSize then
    ({ ch with host := { h with chipEvtProd := ctrInc h.chipEvtProd } }.hostPut 0
      (h.chipEvtBase + 32 * (h.chipEvtProd % h.chipSize)) bytes).fireOf 0 32 0
  else ch

/-- Write a telemetry record to partition `p`'s ring, or drop it (R860, R925). -/
def Chip.putTelemetry (ch : Chip) (p : Nat) (bytes : List Nat) : Chip :=
  let r := ch.ring p
  if r.on 3 && !r.bad 3 && ctrDiff r.tlmProd r.tlmHead < r.size 3 then
    ((ch.modRing p fun x => { x with tlmProd := ctrInc x.tlmProd }).hostPut (ch.ownerFn p)
      (r.tlmBase + 256 * (r.tlmProd % r.size 3)) bytes).firePart p 2
  else { ch with bg := { ch.bg with telemDropped := (ch.bg.telemDropped + 1) % 2 ^ 32 } }.ev 0x0A04 warn 0xFF p

end Sys2Proof.Machine
end

