-- ==== Sys2Proof/Machine/Wire.lean ====
section
/-! DEFINITION. The sending side of a chip link, and the messages of the management lane (R668 to R671, R677, R678, R717). -/
namespace Sys2Proof.Machine

/-- The link is UP. -/
def Chip.linkUp (ch : Chip) (n : Nat) : Bool := (ch.link n).state == .up

/-- The 256 bytes of a flit that carries `ack`, and the NAK flag where `nak` says so (R668, R669). -/
def Flit.bytes (f : Flit) (ack : Nat) (nak : Bool) : List Nat :=
  let b := [f.typ, f.seq, ack, b2n nak] ++ f.payload ++ List.replicate (248 - f.payload.length) 0
  b ++ leBytes 4 (crc32 b)

/-- A flit is put on the lanes; every flit acknowledges what was accepted (R668, R672). -/
def Link.put (l : Link) (f : Flit) (nak : Bool) : Link := { l with wire := l.wire ++ [f.bytes l.rxLast nak], unacked := 0 }

/-- An idle flit, which carries ack and NAK only (R669). -/
def Link.idle (l : Link) (nak : Bool) : Link := l.put { typ := 0 } nak

/-- A numbered flit of a type goes out: it takes the next sequence number and a place in the replay buffer (R668, R671). -/
def Link.send (l : Link) (typ now : Nat) (payload : List Nat) : Link :=
  let f : Flit := { seq := l.txSeq, typ := typ, payload := payload, sent := now }
  ({ l with txSeq := (l.txSeq + 1) % 256, held := l.held ++ [f], txBytes := (l.txBytes + 248) % 2 ^ 64
            sinceMgmt := if typ == 2 then 0 else l.sinceMgmt + 1 } : Link).put f false

/-- The flit that takes the next slot: a waiting management flit where none had one of the last seven or no data flit waits, else the
oldest data flit (R677). -/
def Link.nextFlit (l : Link) : Option (Nat × List Nat) :=
  let data := l.waiting.find? fun t => t.1 != 2
  match l.waiting.find? fun t => t.1 == 2 with
  | some m => if 7 ≤ l.sinceMgmt || data.isNone then some m else data
  | none => data

/-- Data flits that wait for a slot. -/
def Link.backlog (l : Link) : Nat := (l.waiting.filter fun t => t.1 != 2).length

/-- Waiting flits go out while fewer than 64 are unacknowledged (R671, R677). -/
def Link.flush (now : Nat) : Nat → Link → Link
  | 0, l => l
  | n + 1, l =>
    if l.state != .up || 63 ≤ l.held.length then l else
    match l.nextFlit with
    | some t => Link.flush now n ({ l with waiting := l.waiting.erase t }.send t.1 now t.2)
    | none => l

/-- A payload of a flit type is queued on a link, 248 bytes to a flit (R668). -/
def Link.push (l : Link) (typ now : Nat) (payload : List Nat) : Link :=
  let n := max 1 (ceilDiv payload.length 248)
  Link.flush now (l.waiting.length + n)
    { l with waiting := l.waiting ++ (List.range n).map fun i => (typ, (payload.drop (248 * i)).take 248) }

/-- A transaction leaves on link `n`: `head` bytes of header from its fields, whose layout the spec does not give, then its data (R668, R692;
DESIGN CHOICE, log entry 25). -/
def Chip.linkSend (ch : Chip) (n kind : Nat) (fields data : List Nat) (head : Nat := 16) : Chip :=
  (ch.emit (.link n kind (fields ++ data))).modLink n fun l =>
    l.push 1 ch.time (((List.range head).map fun i => (Config.transByte kind fields i).toNat) ++ data)

/-- The request just made travels over link `n`: its limit starts once its last flit has left (R690). -/
def Chip.queuedOn (ch : Chip) (n : Nat) : Chip :=
  { ch with remotes := ch.remotes.map fun r => if r.id + 1 == ch.nextReq then { r with behind := (ch.link n).backlog } else r }

/-- The payload of a twin message: the type, the partition or 0xFF, a tick index and the body, whose fields the spec orders; each takes 8 bytes
(R12, R717; DESIGN CHOICE, log entry 67). -/
def twinPayload (typ part index : Nat) (body : List Nat) : List Nat :=
  [typ, part, 0, 0] ++ leBytes 4 index ++ (body.flatMap (leBytes 8)).take 240

/-- A message of the management lane of LINK[0] (R717); none leaves while the link is down. -/
def Chip.twinSend (ch : Chip) (typ part index : Nat) (body : List Nat) : Chip :=
  let go := fun (_ : Unit) => (ch.emit (.twin typ (part :: index :: body))).modLink 0 fun l => l.push 2 ch.time (twinPayload typ part index body)
  match (ch.link 0).state with
  | .up => go ()
  | .retraining => go ()
  | _ => ch

/-- Where a link of a chip leads: a chip index and link number of the tray, or none for a LINK OUT port (R23, R24). -/
def wired (t : TrayType) (index n : Nat) : Option (Nat × Nat) :=
  match t, n with
  | .st4, 0 => some (index ^^^ 1, 0)
  | .st4, 1 => some (index ^^^ 2, 1)
  | .st4, 2 => some (index ^^^ 3, 2)
  | .st4, 5 => some (index ^^^ 2, 5)
  | .st2, 0 => some (index ^^^ 1, 0)
  | .st2, 3 => some (index ^^^ 1, 3)
  | _, _ => none

/-- Twin part `p`. -/
def Chip.tp (ch : Chip) (p : Nat) : TwinPart := ch.twin.parts.getD p {}

/-- Change twin part `p`. -/
def Chip.modTp (ch : Chip) (p : Nat) (f : TwinPart → TwinPart) : Chip :=
  { ch with twin := { ch.twin with parts := ch.twin.parts.modify p f } }

/-- The base plate changes: no link stays held (R681). -/
def Chip.freeHeld (ch : Chip) : Chip :=
  { ch with links := ch.links.map fun l => if l.state == .held then { l with state := .down, downs := (l.downs + 1) % 2 ^ 32, downSince := ch.time } else l }

/-- The pair is bound: PAIRED or DEGRADED (R721, R725, R750). -/
def Chip.bound (ch : Chip) : Bool := ch.twin.pair == .paired || ch.twin.pair == .degraded

/-- This chip serves partition `p`: the active one of a bound or separated pair, and under any other pair every partition, as under SOLO
(R721, R755). -/
def Chip.servesPart (ch : Chip) (p : Nat) : Bool :=
  (ch.part p).isDefined && (match ch.twin.pair with
    | .paired => (ch.tp p).active
    | .degraded => (ch.tp p).active
    | .detached => (ch.tp p).active
    | .unpaired => true
    | .pairing => true
    | .mismatch => true)

/-- The partitions a mask names. -/
def maskList (m : Nat) : List Nat := (List.range 8).filter fun p => bitOf m p

/-- A mask from the partitions that `f` picks. -/
def maskOf (f : Nat → Bool) : Nat := ((List.range 8).map fun p => if f p then 2 ^ p else 0).sum

/-- Causes that a FAIL message and a TAKEOVER event carry (DESIGN CHOICE, log entry 24). -/
abbrev failReset : Nat := 1
abbrev failRecovery : Nat := 2
abbrev failHalt : Nat := 3
abbrev failUnload : Nat := 4
abbrev lostHeartbeat : Nat := 5
abbrev lostLink : Nat := 6

/-- Send FAIL for the partitions of `mask` for which the chip is active (R742). -/
def Chip.sendFail (ch : Chip) (mask cause : Nat) : Chip :=
  let m := maskOf fun p => bitOf mask p && ch.servesPart p
  if m == 0 then ch else ch.twinSend 9 0xFF 0 [m, cause]

end Sys2Proof.Machine
end

