-- ==== Sys2Proof/Machine/Unit.lean ====
section
/-! DEFINITION. What the units share: the fields of a unit command, acceptance in order, reads and writes of memory on
behalf of a core, near and far, and the tokens they cost (R339, R347, R360, R366, R564 to R567, R686, R688, R907). -/
namespace Sys2Proof.Machine

/-- Byte 0, the operation (R339). -/
def UnitCmd.op (u : UnitCmd) : Nat := u.bytes.getD 0 0

/-- The little-endian field of `n` bytes at an offset of a command. -/
def UnitCmd.le (u : UnitCmd) (off n : Nat) : Nat := leAt u.bytes off n

/-- Byte `i` of a command. -/
def UnitCmd.byte (u : UnitCmd) (i : Nat) : Nat := u.bytes.getD i 0

/-- Bytes `a` to `b` of a command are 0 (R18). -/
def UnitCmd.zero (u : UnitCmd) (a b : Nat) : Bool := ((u.bytes.drop a).take (b + 1 - a)).all fun x => x == 0

/-- Bits 7:1 of the flags byte are 0 (R339). -/
def UnitCmd.flagsOk (u : UnitCmd) : Bool := u.byte 1 < 2

/-- Every store its core posted before the cmd is performed (R360). -/
def Chip.storesDone (ch : Chip) (u : UnitCmd) : Bool := (ch.core u.core).posted.all fun p => !u.after.contains p.id

/-- The unit of a command is fenced (R774). -/
def Chip.unitFenced (ch : Chip) (u : UnitCmd) : Bool :=
  if u.unit ≤ 1 then (ch.pod (podOf u.core)).fenced
  else if u.unit == 2 then (ch.core u.core).sfuFenced
  else if u.unit < 0x18 then (ch.cu (u.unit - 0x10)).fenced
  else if u.unit < 0x20 then (ch.te (u.unit - 0x18)).fenced
  else (ch.link (u.unit - 0x20)).fenced

/-- A unit accepts the oldest command that has arrived for it, when its operation is `op` (R347); a fenced unit completes it
with FENCED before any other check (R774). -/
def Chip.accept (ch : Chip) (sel : UnitCmd → Bool) (op : Nat) (f : UnitCmd → Chip → Chip) : Chip :=
  match ch.arriving.find? sel with
  | some u =>
    if u.op == op && ch.storesDone u then
      let a := { ch with arriving := ch.arriving.erase u }
      if ch.unitFenced u then a.complete u cFENCED 0 else f u a
    else ch
  | none => ch

/-- The first code that is not OK. -/
def firstCode : List Nat → Nat
  | [] => cOK
  | c :: r => if c == cOK then firstCode r else c

/-- A check as a code. -/
def chk (code : Nat) (ok : Bool) : Nat := if ok then cOK else code

/-! ## Tokens (R564 to R567) -/

/-- DRAM bytes per microsecond in one direction (R564). -/
def Variant.dramCap : Variant → Nat
  | .ha720 => 10000000 | .ha716 => 7500000 | .ha708 => 5000000

/-- Link payload bytes per microsecond in one direction (R564). -/
def Variant.linkCap : Variant → Nat
  | .ha720 => 600000 | .ha716 => 400000 | .ha708 => 200000

/-- A bucket when it is filled (R565). -/
def bucket (share cap : Nat) : Nat := share * cap / 64

/-- The bucket an access draws on: 0 read, 1 write, 2 outbound, 3 inbound; none for stores of the chip (R566). -/
def Place.bucket (pl : Place) (write : Bool) : Option Nat :=
  match pl with
  | .dram => some (if write then 1 else 0)
  | .window _ _ => some (if write then 2 else 3)
  | .host _ => some (if write then 2 else 3)
  | _ => none

/-- The tokens in a bucket of partition `p`. -/
def Chip.tokens (ch : Chip) (p b : Nat) : Nat :=
  let q := ch.part p
  match b with
  | 0 => q.tokRead
  | 1 => q.tokWrite
  | 2 => q.tokOut
  | _ => q.tokIn

/-- What a bucket of partition `p` is set to at each window (R565). -/
def Chip.fill (ch : Chip) (p b : Nat) : Nat :=
  let q := (ch.part p).plate
  match b with
  | 0 => bucket q.bwRead ch.variant.dramCap
  | 1 => bucket q.bwWrite ch.variant.dramCap
  | _ => bucket q.bwRemote ch.variant.linkCap

/-- Set the buckets of a partition. -/
def Part.setTokens (q : Part) (f : Nat → Nat) : Part := { q with tokRead := f 0, tokWrite := f 1, tokOut := f 2, tokIn := f 3 }

/-- The bytes a partition has moved through a bucket in the running tick. -/
def TickRec.moved (t : TickRec) : Nat → Nat
  | 0 => t.rd
  | 1 => t.wr
  | 2 => t.outB
  | _ => t.inB

/-- The bucket lacks the tokens of `n` lines: they wait (R566). -/
def Chip.starvedLines (ch : Chip) (p b n : Nat) : Bool := ch.tokens p b < 64 * n

/-- Take the tokens of `n` lines from a bucket of partition `p` (R566). -/
def Chip.payLines (ch : Chip) (p b n : Nat) : Chip :=
  let t := ch.tokens p b - 64 * n
  ch.modPart p fun q => match b with
    | 0 => { q with tokRead := t, tel := { q.tel with rd := q.tel.rd + 64 * n } }
    | 1 => { q with tokWrite := t, tel := { q.tel with wr := q.tel.wr + 64 * n } }
    | 2 => { q with tokOut := t, tel := { q.tel with outB := q.tel.outB + 64 * n } }
    | _ => { q with tokIn := t, tel := { q.tel with inB := q.tel.inB + 64 * n } }

/-- Take the tokens of an access. -/
def Chip.pay (ch : Chip) (p : Nat) (pl : Place) (write : Bool) (a n : Nat) : Chip :=
  match pl.bucket write with
  | some b => ch.payLines p b (linesOf a n).length
  | none => ch

/-- The access waits for tokens. -/
def Chip.starved (ch : Chip) (p : Nat) (pl : Place) (write : Bool) (a n : Nat) : Bool :=
  match pl.bucket write with
  | some b => ch.starvedLines p b (linesOf a n).length
  | none => false

/-- Lines that went through a bucket of partition `p` between two moments. -/
def Chip.linesTo (ch after : Chip) (p b : Nat) : Nat := ((after.part p).tel.moved b - (ch.part p).tel.moved b) / 64

/-- The last line of a transfer that leaves `after` has its tokens: those of `paid` lines were taken before, the buckets hold the rest. -/
def Chip.affords (ch : Chip) (p : Nat) (paid : List Nat) (after : Chip) : Bool :=
  (List.range 4).all fun b => !ch.starvedLines p b (ch.linesTo after p b - paid.getD b 0)

/-- A transfer of a unit of partition `p` that leaves `after`. It happens when its last line has tokens. Until then each bucket that lacks
some gives what it holds to the lines that are first, and `keep` notes the lines so paid; they wait with the rest (R566; DEDUCED, log
entry 14). -/
def Chip.paced (ch : Chip) (p : Nat) (paid : List Nat) (keep : List Nat → Chip → Chip) (after : Chip) : Chip :=
  let need := fun b => ch.linesTo after p b
  if ch.affords p paid after then
    let rest := (List.range 4).map fun b => paid.getD b 0 - need b
    keep (if rest.all fun n => n == 0 then [] else rest)
      (after.modPart p fun q => q.setTokens fun b => ch.tokens p b - 64 * (need b - paid.getD b 0))
  else
    let take := fun b => if ch.starvedLines p b (need b - paid.getD b 0) then ch.tokens p b / 64 else 0
    keep ((List.range 4).map fun b => paid.getD b 0 + take b) (ch.modPart p fun q => q.setTokens fun b => ch.tokens p b - 64 * take b)

/-- A command whose acceptance itself moves lines waits for their tokens. -/
def Chip.pacedAccept (ch : Chip) (sel : UnitCmd → Bool) (op : Nat) (f : UnitCmd → Chip → Chip) : Chip :=
  match ch.arriving.find? sel with
  | some u => ch.paced (ch.partNo u.core) [] (fun _ a => a) (ch.accept sel op f)
  | none => ch

/-! ## Accesses of units to memory, near and far (R84 to R89, R444, R686, R688, R907) -/

/-- The answers of far chips and the host to the accesses of a unit: address of each piece, code, bytes read. -/
abbrev FarAns := List (Nat × Nat × List Nat)

/-- The pieces of a range: its parts within each 64-byte line. -/
def pieces (a n : Nat) : List (Nat × Nat) :=
  (linesOf a n).map fun l => let s := max l a; (s, min (l + 64) (a + n) - s)

/-- The code of a range that a unit of partition `p` is to use as memory; register space is none (R84 to R89, R510, R542). -/
def Chip.usable (ch : Chip) (p a n : Nat) : Nat :=
  match ch.reach p a n with
  | .error c => c
  | .ok (.regs _) => cBOUNDS
  | .ok _ => cOK

/-- The code of the first of R84 to R89 that some byte of the ranges fails; the rules before R89 refuse with BOUNDS, and an empty range
has no byte (R592). -/
def Chip.rangesCode (ch : Chip) (p : Nat) (l : List (Nat × Nat)) : Nat :=
  let codes := l.map fun r => if r.2 == 0 then cOK else match ch.reach p r.1 r.2 with
    | .error c => c
    | .ok _ => cOK
  if codes.contains cBOUNDS then cBOUNDS else firstCode codes

/-- The link a request at an offset of a window uses (R688). -/
def Chip.pathOf (ch : Chip) (p win off : Nat) : Option Nat :=
  if win = 0 then some 0
  else
    let l := if win = 1 then (ch.part p).spread0 else (ch.part p).spread1
    if l.isEmpty then none else l[(off / 4096) % l.length]?

/-- The code and bytes that answer a piece of an access at a place beyond the chip; a piece that nothing answers times out
(R676, R690, R907); no response carries a reserved code (R758). -/
def Chip.farCode (ch : Chip) (p : Nat) (pl : Place) (a : Nat) (far : FarAns) : Nat × List Nat :=
  let got := (far.lookup a).getD (cTIMEOUT, [])
  let ans := (got.1 % 16, got.2)
  match pl with
  | .window w o => match ch.pathOf p w o with
    | some l => if ch.linkUp l then ans else (cLINKDOWN, [])
    | none => (cLINKDOWN, [])
  | .host _ => if ch.busMaster (ch.ownerFn p) then ans else (cPERM, [])
  | _ => ans

/-- One piece read by a unit: the chip, the code and the bytes; an error of host memory is not raised yet. A unit moves lines and parts
of lines, which are no register's width (R91, R566; DEDUCED, log entry 64). -/
def Chip.fetchPiece (ch : Chip) (p : Nat) (far : FarAns) (a n : Nat) : Chip × Nat × List Nat :=
  match ch.reach p a n with
  | .error c => (ch, c, [])
  | .ok (.regs _) => (ch, cALIGN, [])
  | .ok pl =>
    let ch1 := ch.pay p pl false a n
    if pl.isLocal then (if ch1.bad a n then (ch1, cECC, []) else (ch1.countSoft a n, cOK, ch1.see none a n))
    else
      let (c, b) := ch1.farCode p pl a far
      match pl with
      | .host o =>
        (if ch.busMaster (ch.ownerFn p) then ch1.emit (.hostFetch (ch.ownerFn p) o n) else ch1, c, sliceB b 0 n)
      | .window w o => (match ch.pathOf p w o with
        | some l => if ch.linkUp l then ch1.linkSend l 0 [p, o, n] [] else ch1
        | none => ch1, c, sliceB b 0 n)
      | _ => (ch1, c, sliceB b 0 n)

/-- A read of host memory that ended with a code other than OK raises HOST_MEM_ERROR (R907). -/
def Chip.hostFault (ch : Chip) (p a code : Nat) : Chip :=
  match ch.reach p a 1 with
  | .ok (.host o) => if code == cOK then ch else ch.hostMemError (ch.ownerFn p) o code
  | _ => ch

/-- One piece read by a unit: the chip, the code and the bytes. -/
def Chip.readPiece (ch : Chip) (p : Nat) (far : FarAns) (a n : Nat) : Chip × Nat × List Nat :=
  let r := ch.fetchPiece p far a n
  (r.1.hostFault p a r.2.1, r.2)

/-- One piece written by a unit: the chip and the code. -/
def Chip.writePiece (ch : Chip) (p : Nat) (far : FarAns) (a : Nat) (bytes : List Nat) : Chip × Nat :=
  let n := bytes.length
  match ch.reach p a n with
  | .error c => (ch, c)
  | .ok (.regs _) => (ch, cALIGN)
  | .ok pl =>
    let ch1 := ch.pay p pl true a n
    if pl.isLocal then (match ch1.writeCode a n with
      | 0 => (ch1.plainStore a bytes, cOK)
      | c => (ch1, c))
    else
      let (c, _) := ch1.farCode p pl a far
      match pl with
      | .host o =>
        if ch.busMaster (ch.ownerFn p) then
          let ch2 := ch1.emit (.hostWrite (ch.ownerFn p) o bytes)
          (if c == cOK then ch2 else ch2.hostMemError (ch.ownerFn p) o c, c)
        else (ch1.hostMemError (ch.ownerFn p) o c, c)
      | .window w o => match ch.pathOf p w o with
        | some l => (if ch.linkUp l then ch1.linkSend l 1 [p, o] bytes else ch1, c)
        | none => (ch1, c)
      | _ => (ch1, c)

/-- A range read piece by piece up to the first code that is not OK: the chip, the code, the bytes read before it. -/
def Chip.uread (ch : Chip) (p : Nat) (far : FarAns) (a n : Nat) : Chip × Nat × List Nat :=
  (pieces a n).foldl (fun x q =>
    if x.2.1 != cOK then x else
    let r := x.1.readPiece p far q.1 q.2
    (r.1, r.2.1, if r.2.1 == cOK then x.2.2 ++ r.2.2 else x.2.2)) (ch, cOK, [])

/-- A range written piece by piece up to the first code that is not OK. -/
def Chip.uwrite (ch : Chip) (p : Nat) (far : FarAns) (a : Nat) (bytes : List Nat) : Chip × Nat :=
  (pieces a bytes.length).foldl (fun x q =>
    if x.2 != cOK then x else x.1.writePiece p far q.1 ((bytes.drop (q.1 - a)).take q.2)) (ch, cOK)

/-- A range read for command `u`; a refusal is a violation at the piece it met (R81, R760). -/
def Chip.ureadFor (ch : Chip) (u : UnitCmd) (p : Nat) (far : FarAns) (a n : Nat) : Chip × Nat × List Nat :=
  let r := ch.uread p far a n
  if r.2.1 == cOK then r else (r.1.refuseCmd u r.2.1 (a + r.2.2.length) true, r.2)

/-- A range written for command `u`; a refusal is a violation at the piece it met (R760). -/
def Chip.uwriteFor (ch : Chip) (u : UnitCmd) (p : Nat) (far : FarAns) (a : Nat) (bytes : List Nat) : Chip × Nat :=
  (pieces a bytes.length).foldl (fun x q =>
    if x.2 != cOK then x
    else
      let r := x.1.writePiece p far q.1 ((bytes.drop (q.1 - a)).take q.2)
      if r.2 == cOK then r else (r.1.refuseCmd u r.2 q.1 false, r.2)) (ch, cOK)

/-- Two ranges share a byte. -/
def overlaps (a n b m : Nat) : Bool := a < b + m && b < a + n && n != 0 && m != 0

/-- The reporting mode of a command's REPORT field: true is REPORT; AUTO takes ACW.SPECIAL (R286). -/
def reports (u : UnitCmd) (field : Nat) : Bool :=
  if field == 0 then !acwSilentBit u.acw else field == 1
where acwSilentBit (a : Nat) : Bool := bitOf a 3

end Sys2Proof.Machine
end

