-- ==== Sys2Proof/Machine/Row.lean ====
section
/-! DEFINITION. The row engine of an SFU: acceptance, statistics, normalisation, soft maximum (R507 to R526). -/
namespace Sys2Proof.Machine

/-- The command arrived for the SFU of core `k`. -/
def forSfu (k : Nat) (u : UnitCmd) : Bool := u.unit == 2 && u.core == k

/-- The fields of a row command (R508). -/
structure RowCmd where
  op : Nat
  mode : Nat
  report : Nat
  mask : Bool
  rms : Bool
  ifmt : Nat
  ofmt : Nat
  rows : Nat
  n : Nat
  eps : Nat
  src : Nat
  dst : Nat
  aux : Nat
  srcStride : Nat
  dstStride : Nat
  auxStride : Nat

/-- Read the fields of a row command. -/
def RowCmd.of (u : UnitCmd) : RowCmd :=
  let ctl := u.byte 4
  { op := u.op, mode := bitsOf ctl 0 2, report := bitsOf ctl 2 2, mask := bitOf ctl 4, rms := bitOf ctl 5,
    ifmt := bitsOf (u.byte 5) 0 4, ofmt := bitsOf (u.byte 5) 4 4, rows := u.le 6 2, n := u.le 8 4, eps := u.le 12 4,
    src := u.le 16 8, dst := u.le 24 8, aux := u.le 32 8,
    srcStride := u.le 40 4, dstStride := if u.op == 2 then 16 else u.le 44 4, auxStride := u.le 48 4 }

/-- Bytes of an element of FP32, BF16 or FP16. -/
def rowBytes (f : Nat) : Nat := if f == fFP32 then 4 else 2

/-- A format a row command may name. -/
def rowFmt (f : Nat) : Bool := f == fFP32 || f == fBF16 || f == fFP16

/-- The source range of row `r`. -/
def RowCmd.srcRange (x : RowCmd) (r : Nat) : Nat × Nat := (x.src + r * x.srcStride, x.n * rowBytes x.ifmt)

/-- The output range of row `r`. -/
def RowCmd.dstRange (x : RowCmd) (r : Nat) : Nat × Nat :=
  (x.dst + r * x.dstStride, if x.op == 2 then 16 else x.n * rowBytes x.ofmt)

/-- The ranges a command reads beside its rows: mask rows, or gain and bias. -/
def RowCmd.auxRanges (x : RowCmd) : List (Nat × Nat) :=
  if !x.mask then []
  else if x.op == 1 then (List.range x.rows).map fun r => (x.aux + r * x.auxStride, ceilDiv x.n 8)
  else [(x.aux, 4 * x.n), (x.aux + 64 * ceilDiv x.n 16, 4 * x.n)]

/-- The checks at acceptance, in order; dst_rstride alone is ignored, by ROWSTAT (R508, R510). -/
def Chip.rowCheck (ch : Chip) (u : UnitCmd) : Nat :=
  let x := RowCmd.of u
  let p := ch.partNo u.core
  let srcs := (List.range x.rows).map x.srcRange
  let dsts := (List.range x.rows).map x.dstRange
  let reads := srcs ++ x.auxRanges
  let al := fun v => v % 64 == 0
  let same := x.op != 2 && x.src == x.dst && x.srcStride == x.dstStride && rowBytes x.ofmt == rowBytes x.ifmt
  firstCode [
    chk cBOUNDS (1 ≤ x.op && x.op ≤ 3),
    chk cBOUNDS (u.flagsOk && bitsOf (u.byte 4) 6 2 == 0 && x.mode != 3 && x.report != 3 && (!x.rms || (x.op != 1 && x.mode == 0)) &&
      (x.op != 2 || (!x.mask && x.ofmt == fFP32)) && rowFmt x.ifmt && rowFmt x.ofmt && 1 ≤ x.rows && x.rows ≤ 4096 && 1 ≤ x.n &&
      x.n < 2 ^ 24 && x.src < 2 ^ 40 && u.zero 52 63),
    chk cPERM (x.op == 1 || x.mode != 2 || (ch.part p).expert),
    chk cALIGN (al x.src && al x.dst && al x.srcStride && (x.op == 2 || al x.dstStride) && al x.aux && al x.auxStride),
    firstCode (reads.map fun r => ch.usable p r.1 r.2),
    firstCode (dsts.map fun r => ch.usable p r.1 r.2),
    chk cBOUNDS (same || !dsts.any fun d => reads.any fun r => overlaps d.1 d.2 r.1 r.2) ]

/-! ## Lane sums (R513) -/

/-- The 16 lanes of a sequence of (index, value), each from +0.0 in ascending index, by a step (R513). -/
def laneFold (f : Nat → Nat → Nat) (l : List (Nat × Nat)) : List (Option Nat) :=
  (List.range 16).map fun i =>
    match l.filter fun x => x.1 % 16 == i with
    | [] => none
    | xs => some (xs.foldl (fun a x => f a x.2) 0)

/-- The lane sum of a sequence. -/
def laneSum (l : List (Nat × Nat)) : Nat := (hsum fFP32 rmRNE (laneFold add32 l)).1

/-- The lane sum of squares. -/
def laneSquares (l : List (Nat × Nat)) : Nat := (hsum fFP32 rmRNE (laneFold (fun a v => fma32 v v a) l)).1

/-- A row with its indexes. -/
def indexed (l : List Nat) : List (Nat × Nat) := (List.range l.length).zip l

/-! ## Flags of a row (R517, R523) -/

/-- Flags of one row, as bits 20:17. -/
structure RowFlags where
  inf : Bool := false
  cancel : Bool := false
  nan : Bool := false
  masked : Bool := false

/-- As a word with bits 16:0 zero. -/
def RowFlags.word (f : RowFlags) : Nat := b2n f.inf * 2 ^ 20 + b2n f.cancel * 2 ^ 19 + b2n f.nan * 2 ^ 18 + b2n f.masked * 2 ^ 17

/-- Put a row's flags into the status word (R523). -/
def addFlags (status row : Nat) (f : RowFlags) : Nat :=
  let w := f.word
  if w == 0 then status
  else if bitOf status 16 then status ||| w
  else (status ||| w) + 2 ^ 16 + row % 2 ^ 16

/-- What NaN and infinity a row holds. -/
def rowSpecial (l : List Nat) : RowFlags := { inf := l.any isInf32, nan := l.any isNan32 }

/-! ## Statistics and normalisation (R514 to R518) -/

/-- Mean, variance or mean square, reciprocal deviation and flags of a row. A variance whose sign is negative is clamped, -0.0 too (R515;
DEDUCED, log entry 61). -/
def rowStats (x : RowCmd) (l : List Nat) : Nat × Nat × Nat × RowFlags :=
  let nn := int32f (x.n : Int)
  let il := indexed l
  let fin := fun (mean v : Nat) (fl : RowFlags) => (mean, v, sfuRsq (add32 v x.eps), fl)
  let sp := rowSpecial l
  if x.rms then fin 0 (div32 (laneSquares il) nn) sp
  else if x.mode == 2 then
    let mean := div32 (laneSum il) nn
    let v := fma32 (neg32 mean) mean (div32 (laneSquares il) nn)
    if !isNan32 v && bitOf v 31 then fin mean 0 { sp with cancel := true } else fin mean v sp
  else
    let p := l.getD 0 0
    let mean := add32 p (div32 (laneSum (il.map fun e => (e.1, sub32 e.2 p))) nn)
    let q := laneSquares (il.map fun e => (e.1, sub32 e.2 mean))
    fin mean (div32 q nn) sp

/-- A value in an output format under RNE. -/
def rowOut (f v : Nat) : Nat := (toFmt f rmRNE false (f32 v)).1

/-- Elements as bytes. -/
def rowPack (f : Nat) (l : List Nat) : List Nat := (l.map fun v => leBytes (rowBytes f) v).flatten

/-- NORM of a row with its gain and bias (R518). -/
def rowNorm (x : RowCmd) (l g b : List Nat) : List Nat × RowFlags :=
  let (mean, _, rstd, fl) := rowStats x l
  let y := l.map fun v => mul32 (if x.rms then v else sub32 v mean) rstd
  let z := if x.mask then (indexed y).map fun e => fma32 e.2 (g.getD e.1 0) (b.getD e.1 0) else y
  (rowPack x.ofmt (z.map (rowOut x.ofmt)), fl)

/-! ## Soft maximum (R519 to R522) -/

/-- The running values of R520. -/
structure SoftAcc where
  m : Nat := ninf32
  s : Nat := 0
  c : List Nat := []

/-- One tile of live finite elements (R520). -/
def softTile (a : SoftAcc) (tile : List (Nat × Nat)) : SoftAcc :=
  let mt := tile.foldl (fun m x => max32 m x.2) ninf32
  let a1 := { a with c := a.c ++ [mt] }
  if tile.isEmpty then a1
  else
    let st := laneSum (tile.map fun x => (x.1, sfuExp (sub32 x.2 mt)))
    if a.m == ninf32 then { a1 with m := mt, s := st }
    else
      let mn := max32 a.m mt
      { a1 with m := mn, s := add32 (mul32 a.s (sfuExp (sub32 a.m mn))) (mul32 st (sfuExp (sub32 mt mn))) }

/-- The output of a row and its flags. -/
def rowSoftmax (x : RowCmd) (l : List Nat) (maskBit : Nat → Bool) : List Nat × RowFlags :=
  let live := (indexed l).map fun e => !(x.mask && maskBit e.1) && e.2 != ninf32
  let il := (indexed l).zip live
  let finite := (il.filter fun e => e.2 && !isNan32 e.1.2 && e.1.2 != inf32).map fun e => e.1
  let hasNan := il.any fun e => e.2 && isNan32 e.1.2
  let kInf := (il.filter fun e => e.2 && e.1.2 == inf32).length
  let enc := fun (v : Fl) => (toFmt x.ofmt rmRNE false v).1
  if hasNan then (rowPack x.ofmt (l.map fun _ => canonNan x.ofmt), { nan := true })
  else if kInf > 0 then
    (rowPack x.ofmt (il.map fun e => if e.2 && e.1.2 == inf32 then enc (divFl (flInt 1) (flInt kInf)).1 else 0), { inf := true })
  else if finite.isEmpty then (rowPack x.ofmt (l.map fun _ => 0), { masked := true })
  else
    let tiles := (List.range (ceilDiv x.n 4096)).map fun t => finite.filter fun e => e.1 / 4096 == t
    let a := tiles.foldl softTile {}
    let r := sfuRcp a.s
    let y := fun (e : (Nat × Nat) × Bool) =>
      let ct := a.c.getD (e.1.1 / 4096) ninf32
      if !e.2 || ct == ninf32 then 0
      else if x.mode != 2 then rowOut x.ofmt (mul32 (sfuExp (sub32 e.1.2 a.m)) r)
      else
        let ej := sfuExp (sub32 e.1.2 ct)
        let ek := if x.n ≤ 4096 then ej else (toFmt fFP32 rmRNE false (decodeFl x.ofmt (rowOut x.ofmt ej))).1
        rowOut x.ofmt (mul32 ek (mul32 (sfuExp (sub32 ct a.m)) r))
    (rowPack x.ofmt (il.map y), {})

/-! ## Running a command -/

/-- `n` elements of a format from bytes, widened to FP32. -/
def rowElems (f n : Nat) (bytes : List Nat) : List Nat :=
  (List.range n).map fun i => (toFmt fFP32 rmRNE false (decodeFl f (leAt bytes (i * rowBytes f) (rowBytes f)))).1

/-- One row before its output is written: the chip, the output, its flags and its code; a failing read ends it (R524). -/
def Chip.rowOutput (ch : Chip) (u : UnitCmd) (p : Nat) (far : FarAns) (x : RowCmd) (r : Nat) : Chip × List Nat × RowFlags × Nat :=
  let src := x.srcRange r
  let auxs := if !x.mask then [] else if x.op == 1 then [(x.aux + r * x.auxStride, ceilDiv x.n 8)] else x.auxRanges
  let (ch1, c1, b) := ch.ureadFor u p far src.1 src.2
  let (ch2, c2, m) := auxs.foldl (fun a q =>
    if a.2.1 != cOK then a
    else
      let g := a.1.ureadFor u p far q.1 q.2
      (g.1, g.2.1, a.2.2 ++ [g.2.2])) (ch1, c1, [])
  if c2 != cOK then (ch2, [], {}, c2)
  else
    let l := rowElems x.ifmt x.n b
    let out : List Nat × RowFlags := match x.op with
      | 1 => rowSoftmax x l fun j => bitOf ((m.getD 0 []).getD (j / 8) 0) (j % 8)
      | 2 => let (mean, v, rs, fl) := rowStats x l
        (leBytes 4 mean ++ leBytes 4 v ++ leBytes 4 rs ++ leBytes 4 fl.word, fl)
      | _ => rowNorm x l (rowElems fFP32 x.n (m.getD 0 [])) (rowElems fFP32 x.n (m.getD 1 []))
    (ch2, out.1, out.2, cOK)

/-- One row: the chip after it, its flags and its code. -/
def Chip.rowRun (ch : Chip) (u : UnitCmd) (p : Nat) (far : FarAns) (x : RowCmd) (r : Nat) : Chip × RowFlags × Nat :=
  let (a, out, fl, c) := ch.rowOutput u p far x r
  if c != cOK then (a, fl, c)
  else
    let (b, c2) := a.uwriteFor u p far (x.dstRange r).1 out
    (b, fl, c2)

/-- The rows of a command in ascending order: the chip, the status word and the code (R511, R524). -/
def Chip.rowsRun (u : UnitCmd) (p : Nat) (far : FarAns) (x : RowCmd) : Nat → Nat → Chip → Nat → Chip × Nat × Nat
  | 0, _, ch, st => (ch, st, cOK)
  | m + 1, r, ch, st =>
    let (a, fl, c) := ch.rowRun u p far x r
    if c == cOK then Chip.rowsRun u p far x m (r + 1) a (addFlags st r fl) else (a, st, c)

/-- The SFU of core `k` accepts its oldest row command, when its operation is `op` (R510). -/
def rowAccept (c k op : Nat) (s : State) : Host.Outcome State Fault Refusal :=
  onChip c (fun ch => ch.accept (forSfu k) op fun u a =>
    match a.rowCheck u with
    | 0 => a.modCore k fun x => { x with rowq := x.rowq ++ [u] }
    | code => a.refuse u code) s

/-- SOFTMAX. -/
def execSoftmax (c k : Nat) (s : State) := rowAccept c k 1 s
/-- ROWSTAT. -/
def execRowstat (c k : Nat) (s : State) := rowAccept c k 2 s
/-- NORM. -/
def execNorm (c k : Nat) (s : State) := rowAccept c k 3 s

/-- A row command that has run completes: its status word is its VALUE and the core's ROW_STATUS, 0 in SILENT mode (R523). -/
def Chip.rowEnd (ch : Chip) (k : Nat) (u : UnitCmd) (rest : List UnitCmd) (st code : Nat) : Chip :=
  let word := if reports u (RowCmd.of u).report then st else 0
  (ch.modCore k fun y => { y with rowq := rest, rowPaid := [], rowStatus := word }).complete u code word

/-- The oldest accepted row command of core `k` completes; `far` answers its accesses beyond the chip (R511, R523, R524). -/
def execRowCmdComplete (c k : Nat) (far : List (Nat × Nat × List Nat)) (s : State) : Host.Outcome State Fault Refusal :=
  unitOn c (fun ch => ch.partNo k) (fun ch =>
    match (ch.core k).rowq with
    | [] => ch
    | u :: rest =>
      let x := RowCmd.of u
      let p := ch.partNo k
      let (a, st, code) := Chip.rowsRun u p far x x.rows 0 ch 0
      ch.paced p (ch.core k).rowPaid (fun l b => b.modCore k fun y => { y with rowPaid := l }) (a.rowEnd k u rest st code)) s

/-- The rows that the running command of core `k` has written when it is cut, and the 64-byte writes of the row after them: how many are free
values (R364, R524; DESIGN CHOICE, log entry 62). A row that needs an answer from beyond the chip is not reached. -/
def Chip.rowsCut (ch : Chip) (k : Nat) (u : UnitCmd) : Chip × Nat :=
  let x := RowCmd.of u
  let p := ch.partNo k
  let (i, a0) := ch.draw
  let (j, a1) := a0.draw
  let n := (Config.freeValue i).toNat % (x.rows + 1)
  let (a, st, c) := Chip.rowsRun u p [] x n 0 a1 0
  if c != cOK || n == x.rows then (a, st)
  else
    let out := (a.rowOutput u p [] x n).2.1
    ((a.uwrite p [] (x.dstRange n).1 (out.take (64 * ((Config.freeValue j).toNat % (ceilDiv out.length 64 + 1))))).1, st)

/-- A tick stop or a fence cuts the row commands of core `k`: the oldest was running, the others had not begun (R223, R511, R524). -/
def Chip.stopRows (ch : Chip) (k code : Nat) : Chip :=
  match (ch.core k).rowq with
  | [] => ch
  | u :: rest =>
    let (a, st) := ch.rowsCut k u
    rest.foldl (fun b v => (b.modCore k fun y => { y with rowq := y.rowq.erase v }).complete v code 0) (a.rowEnd k u rest st code)

end Sys2Proof.Machine
end

