-- ==== Sys2Proof/Machine/Array.lean ====
section
/-! DEFINITION. The matrix arrays: operand pairs, acceptance checks, accumulator banks, the MAC engine, the output stage
(R251 to R259, R275 to R282, R456 to R488). -/
namespace Sys2Proof.Machine

/-! ## Banks -/

/-- The value at a key of a rising list; 0 where the key is not listed. -/
def Sparse.get : List (Nat × Nat) → Nat → Nat
  | [], _ => 0
  | c :: r, a => if c.1 = a then c.2 else Sparse.get r a

/-- Set the value at a key, keeping the keys rising and no value 0. -/
def Sparse.put : List (Nat × Nat) → Nat → Nat → List (Nat × Nat)
  | [], a, b => if b = 0 then [] else [(a, b)]
  | c :: r, a, b =>
    if a < c.1 then (if b = 0 then c :: r else (a, b) :: c :: r)
    else if c.1 = a then (if b = 0 then r else (a, b) :: r)
    else c :: Sparse.put r a b

/-- Bank `b` of a pod. -/
def Pod.bank (p : Pod) (b : Nat) : Bank := if b = 0 then p.bank0 else p.bank1

/-- Replace bank `b` of a pod. -/
def Pod.setBank (p : Pod) (b : Nat) (x : Bank) : Pod := if b = 0 then { p with bank0 := x } else { p with bank1 := x }

/-- Both banks become EMPTY and their status 0 (R465). -/
def Pod.emptyBanks (p : Pod) : Pod := { p with bank0 := {}, bank1 := {} }

/-! ## Operand pairs (R251) -/

/-- The class of an operand format: 8-bit integer, 4-bit integer, FP8, FP4, 16-bit float, FP32; 0 for any other. -/
def pairClass (f : Nat) : Nat :=
  match f with
  | 0 => 1 | 1 => 1 | 2 => 2 | 3 => 2 | 4 => 3 | 5 => 3 | 6 => 4 | 7 => 5 | 8 => 5 | 9 => 6 | _ => 0

/-- The array accepts the pair; `scaled` says either operand carries scales. -/
def pairOk (a b : Nat) (scaled : Bool) : Bool :=
  let x := pairClass a
  let y := pairClass b
  (x == 1 || x == 2) && (y == 1 || y == 2) || (x == 3 || x == 4) && (y == 3 || y == 4) || (x == 5 && y == 5 || x == 6 && y == 6) && !scaled

/-- The pair runs at 2 k-steps per cycle, so it forms pair sums (R252). -/
def pairTwo (a b : Nat) : Bool := pairClass a == 2 && pairClass b == 2 || pairClass a == 4 && pairClass b == 4

/-- The accumulator type of a pair. -/
def pairBank (a : Nat) (scaled : Bool) : BankState := if pairClass a ≤ 2 && !scaled then .int32 else .fp32

/-- Elements of a block-size code (R254); 0 is unscaled. -/
def blockSize (c : Nat) : Nat := if c == 0 then 0 else 4 * 2 ^ c

/-! ## Commands -/

/-- Bytes that `n` elements of a format take. -/
def elemBytes (f n : Nat) : Nat := ceilDiv (n * fmtWidth f) 8

/-- The end of the pod store (R461). -/
abbrev podStoreEnd : Nat := 0x1000000

/-- An offset field: bits 31:24 are reserved (R457). -/
def offOk (v : Nat) : Bool := v < 2 ^ 24

/-- A scale array's byte count: the last byte reached plus one. -/
def scaleEnd (off stride blk : Nat) (alongM : Bool) (rows k : Nat) : Nat :=
  if alongM then off + (k - 1) * stride + ceilDiv rows (blockSize blk)
  else off + (ceilDiv k (blockSize blk) - 1) * stride + rows

/-- The checks of an MMA at acceptance (R457, R462). -/
def mmaCheck (u : UnitCmd) (expert : Bool) : Nat :=
  let m := u.le 8 2
  let n := u.le 10 2
  let k := u.le 12 4
  let af := bitsOf (u.byte 5) 0 4
  let bf := bitsOf (u.byte 5) 4 4
  let ab := bitsOf (u.byte 6) 0 4
  let bb := bitsOf (u.byte 7) 0 4
  let ad := bitOf (u.byte 6) 4
  let bd := bitOf (u.byte 7) 4
  let al := fun off => u.le off 4 % 64 == 0
  firstCode [
    chk cBOUNDS (u.flagsOk && u.byte 4 < 16 && bitsOf (u.byte 4) 2 2 != 3 && af ≤ 12 && bf ≤ 12 && u.byte 6 < 32 && u.byte 7 < 32 &&
      ab ≤ 5 && bb ≤ 5 && 1 ≤ m && m ≤ 128 && 1 ≤ n && n ≤ 512 && 1 ≤ k && k < 2 ^ 24 && offOk (u.le 16 4) && offOk (u.le 24 4) &&
      (ab == 0 || offOk (u.le 32 4)) && (bb == 0 || offOk (u.le 40 4)) && u.zero 48 63),
    chk cPERM (expert || ((ab == 0 || (ab == 3 && !ad)) && (bb == 0 || (bb == 3 && !bd)))),
    chk cALIGN (al 16 && al 20 && al 24 && al 28 && (ab == 0 || (al 32 && al 36)) && (bb == 0 || (al 40 && al 44))),
    chk cBOUNDS (u.le 16 4 + (k - 1) * u.le 20 4 + elemBytes af m ≤ podStoreEnd && u.le 24 4 + (k - 1) * u.le 28 4 + elemBytes bf n ≤ podStoreEnd &&
      (ab == 0 || scaleEnd (u.le 32 4) (u.le 36 4) ab ad m k ≤ podStoreEnd) && (bb == 0 || scaleEnd (u.le 40 4) (u.le 44 4) bb bd n k ≤ podStoreEnd)),
    chk cBOUNDS (pairOk af bf (ab != 0 || bb != 0)) ]

/-- The vectors a DRAIN reads: offset and whether its step is enabled. -/
def drainVectors (u : UnitCmd) : List Nat :=
  let st := u.byte 12
  (if bitOf st 0 then [24] else []) ++ (if bitOf st 1 then [28] else []) ++ (if bitOf st 3 then [32] else []) ++ (if bitOf st 4 then [36] else [])

/-- Channels of a DRAIN: columns, or rows under AXIS. -/
def drainChannels (u : UnitCmd) : Nat := if bitOf (u.byte 4) 4 then u.le 8 2 else u.le 10 2

/-- The checks of a DRAIN at acceptance (R462, R473, R476 to R478). -/
def drainCheck (t : PartTables) (u : UnitCmd) : Nat :=
  let m := u.le 8 2
  let n := u.le 10 2
  let f := bitsOf (u.byte 5) 0 4
  let act := u.byte 7
  let id := act % 64
  let used := drainVectors u
  firstCode [
    chk cBOUNDS (u.flagsOk && u.byte 4 < 32 && bitsOf (u.byte 4) 2 2 != 3 && f ≤ 12 && bitsOf (u.byte 5) 4 3 != 7 && u.byte 5 < 128 &&
      u.byte 6 < 3 && (!bitOf act 7 || bitOf act 6 || id < 16) && 1 ≤ m && m ≤ 128 && 1 ≤ n && n ≤ 512 && u.byte 12 < 32 &&
      (bitOf (u.byte 4) 1 || bitsOf (u.byte 12) 3 2 == 0) && u.zero 13 15 && offOk (u.le 16 4) && (used.all fun o => offOk (u.le o 4)) && u.zero 44 63),
    chk cALIGN (u.le 16 4 % 64 == 0 && u.le 20 4 % 64 == 0 && used.all fun o => u.le o 4 % 64 == 0),
    chk cBOUNDS (u.le 16 4 + (m - 1) * u.le 20 4 + elemBytes f n ≤ podStoreEnd && used.all fun o => u.le o 4 + 4 * drainChannels u ≤ podStoreEnd),
    chk cBOUNDS (f != fFP64 && f != fE8M0 && (!bitOf act 7 || (t.function (bitOf act 6) id).isSome)) ]

/-- The checks of a LOAD_ACC at acceptance (R482, R484). -/
def loadAccCheck (u : UnitCmd) (expert : Bool) : Nat :=
  let m := u.le 8 2
  let n := u.le 10 2
  let f := u.byte 5
  firstCode [
    chk cBOUNDS (u.flagsOk && u.byte 4 < 2 && f ≤ 12 && u.zero 6 7 && 1 ≤ m && m ≤ 128 && 1 ≤ n && n ≤ 512 && u.zero 12 15 &&
      offOk (u.le 16 4) && u.zero 24 63),
    chk cPERM expert,
    chk cALIGN (u.le 16 4 % 64 == 0 && u.le 20 4 % 64 == 0),
    chk cBOUNDS (u.le 16 4 + (m - 1) * u.le 20 4 + 4 * n ≤ podStoreEnd),
    chk cBOUNDS (f == fFP32 || f == fINT32) ]

/-- The command is on the MAC engine. -/
def UnitCmd.onMac (u : UnitCmd) : Bool := u.op == 1

/-- The banks a command names (R467). -/
def UnitCmd.banks (u : UnitCmd) : List Nat :=
  let b := bitsOf (u.byte 4) 0 1
  if u.op == 2 && bitOf (u.byte 4) 1 then [0, 1] else [b]

/-- The command arrived for the array of pod `p`. -/
def forArray (p : Nat) (u : UnitCmd) : Bool := u.unit == 0 && podOf u.core == p

/-- The array of pod `p` accepts its oldest command, when its operation is `op` and fewer than 64 are held (R462, R469). -/
def arrayAccept (c p op : Nat) (check : Chip → UnitCmd → Nat) (s : State) : Host.Outcome State Fault Refusal :=
  onChip c (fun ch =>
    if 64 ≤ (ch.pod p).arrq.length then ch
    else ch.accept (forArray p) op fun u a =>
      match check a u with
      | 0 => a.modPod p fun x => { x with arrq := x.arrq ++ [(u, false)] }
      | code => a.refuse u code) s

/-- MMA. -/
def execMma (c p : Nat) (s : State) := arrayAccept c p 1 (fun ch u => mmaCheck u (ch.part (ch.partNo u.core)).expert) s
/-- DRAIN. -/
def execDrain (c p : Nat) (s : State) := arrayAccept c p 2 (fun ch u => drainCheck (ch.tablesOf u.core) u) s
/-- LOAD_ACC, expert. -/
def execLoadAcc (c p : Nat) (s : State) := arrayAccept c p 3 (fun ch u => loadAccCheck u (ch.part (ch.partNo u.core)).expert) s

/-! ## Beginning (R464, R466, R467, R477) -/

/-- The code of the bank states when a command begins. -/
def beginCode (p : Pod) (u : UnitCmd) : Nat :=
  let b := p.bank (bitsOf (u.byte 4) 0 1)
  match u.op with
  | 1 =>
    let scaled := bitsOf (u.byte 6) 0 4 != 0 || bitsOf (u.byte 7) 0 4 != 0
    chk cBOUNDS (!bitOf (u.byte 4) 1 || b.state == pairBank (bitsOf (u.byte 5) 0 4) scaled)
  | 2 =>
    chk cBOUNDS (b.state != .empty && (!bitOf (u.byte 4) 1 || (p.bank0.state == p.bank1.state)))
  | _ => cOK

/-- The bank as it stands when a command has begun: an MMA with CONT = 0 clears it; its
status stays that of the last command until the MMA completes (R463, R472). -/
def beginBank (b : Bank) (u : UnitCmd) : Bank :=
  let scaled := bitsOf (u.byte 6) 0 4 != 0 || bitsOf (u.byte 7) 0 4 != 0
  if u.op == 1 && !bitOf (u.byte 4) 1 then { state := pairBank (bitsOf (u.byte 5) 0 4) scaled, status := b.status } else b

/-- The next command of an engine: the oldest that has not begun, when no command of the engine runs and no earlier
command names one of its banks (R466, R467). -/
def Pod.nextCmd (p : Pod) (mac : Bool) : Option UnitCmd :=
  let mine := p.arrq.filter fun q => q.1.onMac == mac
  if mine.any fun q => q.2 then none
  else match mine.head? with
    | none => none
    | some (u, _) =>
      let before := p.arrq.takeWhile fun q => q.1.id != u.id
      if before.any fun q => q.1.banks.any u.banks.contains then none else some u

/-- An engine of the array of pod `p` begins its next command. -/
def execArrayCmdBegin (c p : Nat) (mac : Bool) (s : State) : Host.Outcome State Fault Refusal :=
  unitOn c (fun ch => ch.podPart p) (fun ch =>
    match (ch.pod p).nextCmd mac with
    | none => ch
    | some u =>
      match beginCode (ch.pod p) u with
      | 0 => ch.modPod p fun x =>
          let b := bitsOf (u.byte 4) 0 1
          { x.setBank b (beginBank (x.bank b) u) with arrq := x.arrq.map fun q => if q.1.id == u.id then (u, true) else q }
      | code => (ch.modPod p fun x => { x with arrq := x.arrq.filter fun q => q.1.id != u.id }).refuse u code) s

/-! ## The MAC engine (R255 to R259, R275 to R279, R458, R459) -/

/-- An operand of an MMA: format, offset, stride, block code, sharing direction, scale offset and stride. -/
structure Operand where
  f : Nat
  off : Nat
  stride : Nat
  blk : Nat
  dir : Bool
  sOff : Nat
  sStride : Nat

/-- Operand A of a command. -/
def opA (u : UnitCmd) : Operand :=
  ⟨bitsOf (u.byte 5) 0 4, u.le 16 4, u.le 20 4, bitsOf (u.byte 6) 0 4, bitOf (u.byte 6) 4, u.le 32 4, u.le 36 4⟩

/-- Operand B of a command. -/
def opB (u : UnitCmd) : Operand :=
  ⟨bitsOf (u.byte 5) 4 4, u.le 24 4, u.le 28 4, bitsOf (u.byte 7) 0 4, bitOf (u.byte 7) 4, u.le 40 4, u.le 44 4⟩

/-- Element `i` of k-step `kk`, as bits (R458). -/
def Operand.elem (o : Operand) (rd : Nat → Nat) (kk i : Nat) : Nat :=
  let at_ := o.off + kk * o.stride
  let w := fmtWidth o.f
  if w == 4 then bitsOf (rd (at_ + i / 2)) (4 * (i % 2)) 4
  else leNat ((List.range (w / 8)).map fun j => rd (at_ + i * (w / 8) + j))

/-- Its scale, if the operand is scaled (R255, R256, R459). -/
def Operand.scale (o : Operand) (rd : Nat → Nat) (kk i : Nat) : Option Nat :=
  if o.blk == 0 then none
  else some (rd (if o.dir then o.sOff + kk * o.sStride + i / blockSize o.blk else o.sOff + kk / blockSize o.blk * o.sStride + i))

/-- The product of k-step `kk` for accumulator (i, j), exact, with OVF_SEEN (R258, R276). -/
def mmaProduct (a b : Operand) (rd : Nat → Nat) (i j kk : Nat) : Fl × Bool :=
  product (scaledValue a.f (a.elem rd kk i) (a.scale rd kk i)) (scaledValue b.f (b.elem rd kk j) (b.scale rd kk j))

/-- The addends of an accumulator in ascending k: products, or pair sums (R252, R275, R301). -/
def mmaAddends (a b : Operand) (rd : Nat → Nat) (k i j : Nat) : List (Fl × Bool) :=
  if pairTwo a.f b.f then
    (List.range (ceilDiv k 2)).map fun h =>
      let p := mmaProduct a b rd i j (2 * h)
      let q := if 2 * h + 1 < k then mmaProduct a b rd i j (2 * h + 1) else (.fin false 0 0, false)
      let r := pairSum p.1 q.1
      (r.1, p.2 || q.2 || r.2)
  else (List.range k).map fun kk => mmaProduct a b rd i j kk

/-- An exact integer addend as an integer. -/
def flToInt : Fl → Int
  | .fin n m e => flUnits n (m * 2 ^ e.toNat)
  | _ => 0

/-- An accumulator after its addends, and the event it recorded (overflow or clamp). -/
def mmaAcc (st : BankState) (old : Nat) (addends : List (Fl × Bool)) : Nat × Bool :=
  match st with
  | .int32 =>
    let r := addends.foldl (fun (acc : Int × Bool) p => let q := accumulateInt acc.1 (flToInt p.1); (q.1, acc.2 || q.2)) (sgn 32 old, false)
    (wrapInt 32 r.1, r.2)
  | _ => addends.foldl (fun (acc : Nat × Bool) p => let q := accumulate acc.1 p.1; (q.1, acc.2 || p.2 || q.2)) (old, false)

/-- The positions of an m x n extent in row-major order. -/
def extent (m n : Nat) : List (Nat × Nat) := ((List.range m).map fun i => (List.range n).map fun j => (i, j)).flatten

/-- The position of an accumulator. -/
def accPos (q : Nat × Nat) : Nat := q.1 * 512 + q.2

/-- The tile status of an FP32 or INT32 bank over an extent (R471, R472). -/
def tileStatus (b : Bank) (m n : Nat) : Nat :=
  let pos := (extent m n).map accPos
  let nonfin := if b.state == .fp32 then pos.filter fun p => isNan32 (Sparse.get b.acc p) || isInf32 (Sparse.get b.acc p) else []
  b2n b.sat * 2 ^ 20 + b2n (nonfin.any fun p => isInf32 (Sparse.get b.acc p)) * 2 ^ 19 + b2n b.ovf * 2 ^ 18 +
    b2n (nonfin.any fun p => isNan32 (Sparse.get b.acc p)) * 2 ^ 17 + (match nonfin.head? with
      | some p => 2 ^ 16 + p
      | none => 0)

/-- The bank after an MMA over the bytes of its pod store (R275, R472). -/
def mmaRun (b : Bank) (u : UnitCmd) (rd : Nat → Nat) : Bank :=
  let m := u.le 8 2
  let n := u.le 10 2
  let k := u.le 12 4
  let rep := reports u (bitsOf (u.byte 4) 2 2)
  let step := fun (x : List (Nat × Nat) × Bool) (q : Nat × Nat) =>
    let r := mmaAcc b.state (Sparse.get b.acc (accPos q)) (mmaAddends (opA u) (opB u) rd k q.1 q.2)
    (Sparse.put x.1 (accPos q) r.1, x.2 || r.2)
  let r := (extent m n).foldl step (b.acc, false)
  let b1 := { b with
    acc := r.1
    ovf := b.ovf || (rep && b.state == BankState.fp32 && r.2)
    sat := b.sat || (rep && b.state == BankState.int32 && r.2) }
  { b1 with status := if rep then tileStatus b1 m n else 0 }

/-- The ranges of the pod store an MMA reads. -/
def mmaReads (u : UnitCmd) : List (Nat × Nat) :=
  let k := u.le 12 4
  let op := fun (o : Operand) (rows : Nat) =>
    ((List.range k).map fun kk => (o.off + kk * o.stride, elemBytes o.f rows)) ++
    (if o.blk == 0 then [] else if o.dir then (List.range k).map fun kk => (o.sOff + kk * o.sStride, ceilDiv rows (blockSize o.blk))
      else (List.range (ceilDiv k (blockSize o.blk))).map fun b => (o.sOff + b * o.sStride, rows))
  op (opA u) (u.le 8 2) ++ op (opB u) (u.le 10 2)

/-! ## The output stage (R473 to R482) -/

/-- Steps 2 and 5: multiply and add as enabled. -/
def affine (x : Nat) (scale bias : Option Nat) : Nat :=
  match scale, bias with
  | some s, some b => fma32 x s b
  | some s, none => mul32 x s
  | none, some b => add32 x b
  | none, none => x

/-- Step 8: the output bits, and whether the conversion replaced a value (R267 to R274, R481). -/
def outConvert (f mode : Nat) (sat : Bool) (y : Nat) : Nat × Bool :=
  let x := f32 y
  if fmtIsInt f then let r := toIntW (fmtWidth f) (fmtSigned f) mode x; (r.1, r.2 != 0)
  else
    let (b, fl) := toFmt f mode sat x
    let ovr := fl &&& flOF != 0
    let special := match x with
      | .nan _ => f == fE2M1
      | .inf _ => f == fE2M1 || f == fE4M3
      | .fin _ _ _ => ovr && (match decodeFl f b with
          | .inf _ => false
          | _ => true)
    (b, special)

/-- An element of the output: bits, NaN, infinity, clip. -/
structure OutElem where
  bits : Nat
  nan : Bool
  inf : Bool
  clip : Bool

/-- An accumulator as FP32 (steps 1 and 4). -/
def accFp32 (b : Bank) (pos : Nat) : Nat :=
  if b.state == .int32 then int32f (sgn 32 (Sparse.get b.acc pos)) else Sparse.get b.acc pos

/-- The output element (i, j) of a DRAIN; `vec off c` reads a channel vector (R474, R475). -/
def drainElem (t : PartTables) (u : UnitCmd) (b other : Bank) (vec : Nat → Nat → Nat) (q : Nat × Nat) : OutElem :=
  let st := u.byte 12
  let act := u.byte 7
  let gate := bitOf (u.byte 4) 1
  let ch := if bitOf (u.byte 4) 4 then q.1 else q.2
  let f := bitsOf (u.byte 5) 0 4
  let rm := (roundMode (BitVec.ofNat 32 u.acw) (bitsOf (u.byte 5) 4 3)).getD rmRNE
  let sat := if bitsOf (u.byte 6) 0 2 == 0 then bitOf u.acw 4 else bitsOf (u.byte 6) 0 2 == 1
  let v := fun (bit off : Nat) => if bitOf st bit then some (vec off ch) else none
  if f == fINT32 && b.state == .int32 && st == 0 && !gate && !bitOf act 7 then ⟨Sparse.get b.acc (accPos q), false, false, false⟩
  else
    let x := affine (accFp32 b (accPos q)) (v 0 24) (v 1 28)
    let y := if bitOf act 7 then ((t.function (bitOf act 6) (act % 64)).map fun g => g x).getD x else x
    let y1 := if gate then mul32 (affine (accFp32 other (accPos q)) (v 3 32) (v 4 36)) y else y
    let y2 := if bitOf st 2 then mul32 y1 (u.le 40 4) else y1
    let r := outConvert f rm sat y2
    if fmtIsInt f then ⟨r.1, false, false, r.2⟩
    else match decodeFl f r.1 with
      | .nan _ => ⟨r.1, true, false, r.2⟩
      | .inf _ => ⟨r.1, false, true, r.2⟩
      | _ => ⟨r.1, false, false, r.2⟩

/-- A row of output bits packed, with the last byte's upper nibble from `old` where no element fills it (R458, R478). -/
def packRow (f : Nat) (l : List Nat) (old : Nat) : List Nat :=
  if fmtWidth f == 4 then
    (List.range (ceilDiv l.length 2)).map fun i =>
      l.getD (2 * i) 0 % 16 + 16 * (if 2 * i + 1 < l.length then l.getD (2 * i + 1) 0 % 16 else old / 16 % 16)
  else (l.map fun v => leBytes (fmtWidth f / 8) v).flatten

/-- The output-stage status of a tile in row-major order (R481). -/
def outStatus (l : List ((Nat × Nat) × OutElem)) : Nat :=
  let hit := l.filter fun e => e.2.nan || e.2.inf || e.2.clip
  b2n (l.any fun e => e.2.clip) * 2 ^ 19 + b2n (l.any fun e => e.2.inf) * 2 ^ 18 + b2n (l.any fun e => e.2.nan) * 2 ^ 17 + (match hit.head? with
    | some e => 2 ^ 16 + accPos e.1
    | none => 0)

/-- What a DRAIN of pod `p` writes, as 64-byte writes in order, and its status; or the code that ends it (R364, R479, R481). -/
def Chip.drainWrites (ch : Chip) (t : PartTables) (p : Nat) (u : UnitCmd) : Except Nat (List (Nat × List Nat) × Nat) :=
  let base := podBase p
  let bi := bitsOf (u.byte 4) 0 1
  let f := bitsOf (u.byte 5) 0 4
  let vecs := (drainVectors u).map fun o => (base + u.le o 4, 4 * drainChannels u)
  if vecs.any fun r => ch.bad r.1 r.2 then .error cECC
  else
    let b := (ch.pod p).bank bi
    let other := (ch.pod p).bank (1 - bi)
    let vec := fun off c => ch.read (base + u.le off 4 + 4 * c) 4
    let m := u.le 8 2
    let n := u.le 10 2
    let out := (extent m n).map fun q => (q, drainElem t u b other vec q)
    let rowAt := fun i => base + u.le 16 4 + i * u.le 20 4
    let bytes := elemBytes f n
    if (List.range m).any fun i => ch.badWrite (rowAt i) bytes then .error cECC
    else
      let writes := (List.range m).flatMap fun i =>
        let row := packRow f ((out.filter fun e => e.1.1 == i).map fun e => e.2.bits) (ch.read (rowAt i + bytes - 1) 1)
        (pieces (rowAt i) row.length).map fun q => (q.1, sliceB row (q.1 - rowAt i) q.2)
      .ok (writes, if reports u (bitsOf (u.byte 4) 2 2) then outStatus out else 0)

/-- Perform writes in order. -/
def Chip.storeAll (ch : Chip) (l : List (Nat × List Nat)) : Chip := l.foldl (fun a w => a.store w.1 w.2) ch

/-- The bank a LOAD_ACC fills (R482). -/
def loadRun (u : UnitCmd) (rd : Nat → Nat) : Bank :=
  let acc := (extent (u.le 8 2) (u.le 10 2)).foldl (fun x q =>
    Sparse.put x (accPos q) (leNat ((List.range 4).map fun j => rd (u.le 16 4 + q.1 * u.le 20 4 + 4 * q.2 + j)))) []
  { state := if u.byte 5 == fFP32 then .fp32 else .int32, acc := acc }

/-- An MMA that has begun completes, whatever its code (R487; DEDUCED, log entry 37). -/
def Pod.countMma (x : Pod) : Pod := { x with mmaCount := (x.mmaCount + 1) % 2 ^ 64 }

/-- An engine of the array of pod `p` completes the command it runs (R471, R479, R481, R482). -/
def execArrayCmdComplete (c p : Nat) (mac : Bool) (s : State) : Host.Outcome State Fault Refusal :=
  unitOn c (fun ch => ch.podPart p) (fun ch =>
    match (ch.pod p).arrq.find? fun q => q.2 && q.1.onMac == mac with
    | none => ch
    | some (u, _) =>
      let base := podBase p
      let bi := bitsOf (u.byte 4) 0 1
      let rd := fun off => (Memory.get ch.mem (base + off)).toNat
      let ch1 := ch.modPod p fun x => { x with arrq := x.arrq.filter fun q => q.1.id != u.id }
      let fail := fun (a : Chip) (r : Option (Nat × Nat)) => (a.refuseCmd u cECC (base + (r.getD (0, 0)).1) true).complete u cECC 0
      let first := fun (l : List (Nat × Nat)) => l.find? fun r => ch.bad (base + r.1) r.2
      match u.op with
      | 1 =>
        if (first (mmaReads u)).isSome then fail (ch1.modPod p fun x => (x.setBank bi {}).countMma) (first (mmaReads u))
        else
          let b := mmaRun ((ch.pod p).bank bi) u rd
          (ch1.modPod p fun x => (x.setBank bi b).countMma).complete u cOK b.status
      | 2 => match ch1.drainWrites (ch.tablesOf u.core) p u with
        | .ok (l, st) => ((ch1.storeAll l).modPod p fun x => { x with ostatus := st }).complete u cOK st
        | .error _ => fail ch1 (first ((drainVectors u).map fun o => (u.le o 4, 4 * drainChannels u)))
      | _ =>
        let rows := (List.range (u.le 8 2)).map fun i => (u.le 16 4 + i * u.le 20 4, 4 * u.le 10 2)
        if (first rows).isSome then fail (ch1.modPod p fun x => x.setBank bi {}) (first rows)
        else (ch1.modPod p fun x => x.setBank bi (loadRun u rd)).complete u cOK 0) s

/-- The 64-byte writes that a DRAIN had performed when it was cut: how many is a free value (R364). -/
def Chip.drainCut (ch : Chip) (p : Nat) (u : UnitCmd) : Chip :=
  match ch.drainWrites (ch.tablesOf u.core) p u with
  | .ok (l, _) => let (i, a) := ch.draw; a.storeAll (l.take ((Config.freeValue i).toNat % (l.length + 1)))
  | .error _ => ch

/-- A tick stop cuts the array's accepted commands: each completes with TICK_OVERRUN, the banks that it named become EMPTY, and a DRAIN that
ran leaves the writes already performed (R223, R364). -/
def Chip.stopArray (ch : Chip) (p : Nat) (code : Nat := cOVERRUN) : Chip :=
  (ch.pod p).arrq.foldl (fun a q =>
    let b := if q.2 && q.1.op == 2 then a.drainCut p q.1 else a
    (b.modPod p fun x =>
      let y := q.1.banks.foldl (fun (z : Pod) n => z.setBank n {}) { x with arrq := x.arrq.filter fun r => r.1.id != q.1.id }
      if q.2 && q.1.op == 1 then y.countMma else y).complete q.1 code 0) ch

end Sys2Proof.Machine
end

