-- ==== Sys2Proof/Machine/Lnu.lean ====
section
/-! DEFINITION. The link narrowing units: grids, narrowing and widening of elements, blocks, the wire format, scales and their
adaptation (R696 to R713). -/
namespace Sys2Proof.Machine

/-! ## Grids (R700) -/

/-- g8[0] to g8[63] as FP32 bits. -/
def grid8Low : List Nat :=
  [0x00000000, 0x3B713CB6, 0x3BF13FAC, 0x3C34F375, 0x3C714B85, 0x3C96D4C2, 0x3CB50778, 0x3CD33EA3,
   0x3CF17B04, 0x3D07DEAD, 0x3D170336, 0x3D262B7C, 0x3D3557E2, 0x3D4488CC, 0x3D53BE9D, 0x3D62F9BB,
   0x3D723A89, 0x3D80C0B8, 0x3D88676B, 0x3D901193, 0x3D97BF64, 0x3D9F7115, 0x3DA726DB, 0x3DAEE0EF,
   0x3DB69F87, 0x3DBE62DE, 0x3DC62B2C, 0x3DCDF8AC, 0x3DD5CB9B, 0x3DDDA435, 0x3DE582B8, 0x3DED6763,
   0x3DF55277, 0x3DFD4435, 0x3E029E70, 0x3E069E5F, 0x3E0AA209, 0x3E0EA993, 0x3E12B522, 0x3E16C4DB,
   0x3E1AD8E4, 0x3E1EF165, 0x3E230E86, 0x3E273071, 0x3E2B5751, 0x3E2F8352, 0x3E33B4A0, 0x3E37EB6A,
   0x3E3C27E1, 0x3E406A34, 0x3E44B298, 0x3E490141, 0x3E4D5665, 0x3E51B23B, 0x3E5614FF, 0x3E5A7EEB,
   0x3E5EF03F, 0x3E636939, 0x3E67EA1D, 0x3E6C7330, 0x3E7104BA, 0x3E759F06, 0x3E7A4260, 0x3E7EEF1A]

/-- g8[64] to g8[127]. -/
def grid8High : List Nat :=
  [0x3E81D2C4, 0x3E843301, 0x3E869871, 0x3E890345, 0x3E8B73AD, 0x3E8DE9DF, 0x3E906611, 0x3E92E87C,
   0x3E95715C, 0x3E9800F0, 0x3E9A977A, 0x3E9D3540, 0x3E9FDA8B, 0x3EA287A8, 0x3EA53CE9, 0x3EA7FAA4,
   0x3EAAC134, 0x3EAD90FA, 0x3EB06A5B, 0x3EB34DC5, 0x3EB63BAA, 0x3EB93487, 0x3EBC38DD, 0x3EBF4939,
   0x3EC26631, 0x3EC59066, 0x3EC8C884, 0x3ECC0F44, 0x3ECF656F, 0x3ED2CBDD, 0x3ED64377, 0x3ED9CD3C,
   0x3EDD6A3F, 0x3EE11BAD, 0x3EE4E2D0, 0x3EE8C110, 0x3EECB7FC, 0x3EF0C94A, 0x3EF4F6E0, 0x3EF942DB,
   0x3EFDAF96, 0x3F011FDC, 0x3F037B1F, 0x3F05EB44, 0x3F087239, 0x3F0B1235, 0x3F0DCDC6, 0x3F10A7E7,
   0x3F13A415, 0x3F16C675, 0x3F1A1400, 0x3F1D92BC, 0x3F214A13, 0x3F25434C, 0x3F298A38, 0x3F2E2E42,
   0x3F334411, 0x3F38E842, 0x3F3F4433, 0x3F469713, 0x3F4F48F2, 0x3F5A18F6, 0x3F68A954, 0x3F800000]

/-- The levels of the 8-bit bell grid, g8[0] to g8[127]. -/
def grid8 : List Nat := grid8Low ++ grid8High

/-- The levels of the 4-bit bell grid, g4[0] to g4[7]. -/
def grid4 : List Nat :=
  [0x00000000, 0x3DD2012A, 0x3E54AFBE, 0x3EA32005, 0x3EE11AF9, 0x3F1409F5, 0x3F3FF5B4, 0x3F800000]

/-- The grid of a bell format. -/
def gridOf (format : Nat) : List Nat := if format == 3 then grid4 else grid8

/-! ## Elements (R699 to R702) -/

/-- The magnitude of finite FP32 bits in units of 2^-149. -/
def units32 (x : Nat) : Nat :=
  match f32 x with
  | .fin _ m e => m * 2 ^ (e + 149).toNat
  | _ => 0

/-- The magnitude bits of an FP32 value. -/
def abs32 (x : Nat) : Nat := x % 2 ^ 31

/-- Full scale F of a format as an integer (R699). -/
def fullScale (format : Nat) : Nat := if format ≤ 1 then 127 else 1

/-- The index of the level nearest a magnitude in units of 2^-149, the larger on a tie (R701). -/
def nearestLevel (grid : List Nat) (m : Nat) : Nat :=
  ((List.range grid.length).filter fun i => i == 0 || units32 (grid.getD (i - 1) 0) + units32 (grid.getD i 0) ≤ 2 * m).foldl max 0

/-- A narrowed element: the code, or none for an escape; whether it was clipped. -/
structure Code where
  q : Option Int := none
  clip : Bool := false

/-- Narrow one element with a channel's scale and zero point (R701). -/
def narrowElem (format x s : Nat) (z : Int) : Code :=
  if isNan32 x || isInf32 x then {}
  else
    let u := div32 x s
    if isInf32 u || units32 u > 4 * fullScale format * 2 ^ 149 then {}
    else if format ≤ 1 then
      let q := sgn 32 (toIntW 32 true rmRNA (f32 u)).1 + z
      if 127 < q then { q := some 127, clip := true } else if q < -127 then { q := some (-127), clip := true } else { q := some q }
    else
      let i : Int := nearestLevel (gridOf format) (units32 u)
      { q := some (if bitOf u 31 then -i else i), clip := units32 u > 2 ^ 149 }

/-- The value of a code (R699, R702). -/
def widenCode (format s : Nat) (z q : Int) : Nat :=
  if format ≤ 1 then mul32 (int32f (q - z)) s
  else
    let g := (gridOf format).getD q.natAbs 0
    mul32 (if q < 0 then neg32 g else g) s

/-- The bits of an escaped element in the side list (R701). -/
def sideValue (x : Nat) : Nat := if isNan32 x then nan32 else x

/-! ## Scales (R705, R706) -/

/-- 2^k as FP32 bits. -/
def pow2of (k : Int) : Nat := (fscaleB fFP32 rmRNE one32 k).1

/-- The exponent of a calibrated power of two. -/
def exponentOf (x : Nat) : Int := match f32 x with
  | .fin _ m e => expo m e
  | _ => 0

/-- A clamp of a shift to -128 to 127. -/
def clampK (k : Int) : Int := max (-128) (min 127 k)

/-- The smallest k from -128 up with 127 x 2^k at or above `m`, clamped to 127 (R705). -/
def shiftFor (m : Nat) : Nat → Int → Int
  | 0, k => k
  | n + 1, k => if units32 m ≤ 127 * 2 ^ (k + 149).toNat then k else shiftFor m n (k + 1)

/-- The scale of a channel and its shift under format 0x00: from the first pass's largest magnitude `m` (R705), or from the
calibrated scale and the offset `a` (R706). -/
def scaleOf (p : Profile) (m : Nat) (cal : Nat) (a : Int) : Nat × Int :=
  if bitOf p.flags 1 then
    if p.format == 0 then let k := clampK (exponentOf cal + a); (pow2of k, k)
    else ((fscaleB fFP32 rmRNE cal a).1, 0)
  else if p.format == 0 then let k := if m == 0 then 0 else shiftFor m 255 (-128); (pow2of k, k)
  else if m == 0 then (one32, 0)
  else if p.format == 1 then (div32 m (int32f 127), 0)
  else (m, 0)

/-- The larger of two magnitudes as FP32 bits. -/
def maxMag (a b : Nat) : Nat := if units32 a < units32 b then b else a

/-- The largest finite magnitude per channel over the elements (R705). -/
def channelMax (channels : Nat) (l : List Nat) : List Nat :=
  let il := (List.range l.length).zip l
  (List.range channels).map fun c =>
    (il.filter fun e => e.1 % channels == c && !isNan32 e.2 && !isInf32 e.2).foldl (fun m e => maxMag m (abs32 e.2)) 0

/-! ## Blocks and the wire (R697, R703, R704) -/

/-- Zero bytes up to a multiple of 16. -/
def pad16 (l : List Nat) : List Nat := l ++ List.replicate ((16 - l.length % 16) % 16) 0

/-- Two's-complement byte of a signed number. -/
def sbyte (i : Int) : Nat := wrapInt 8 i

/-- Codes as the body of a block: bytes, or nibbles with the upper nibble of an odd last byte 0. -/
def packCodes (format : Nat) (l : List Code) : List Nat :=
  let v := fun (c : Code) => match c.q with
    | some q => q
    | none => if format == 3 then -8 else -128
  if format == 3 then
    (List.range (ceilDiv l.length 2)).map fun i =>
      wrapInt 4 (v (l.getD (2 * i) {})) + 16 * (if 2 * i + 1 < l.length then wrapInt 4 (v (l.getD (2 * i + 1) {})) else 0)
  else l.map fun c => sbyte (v c)

/-- A narrowed block: its wire bytes and what its coding counts. -/
structure NBlock where
  wire : List Nat := []
  raw : Bool := false
  /-- channel, code, magnitude bits or none for a non-finite element, of each element -/
  stats : List (Nat × Code × Option Nat) := []

/-- Narrow block `b` of elements, the first being element `first` (R701, R703, R704). -/
def narrowBlock (p : Profile) (scales : List (Nat × Int)) (zs : List Int) (b first : Nat) (l : List Nat) : NBlock :=
  let il := (List.range l.length).zip l
  let codes := il.map fun e => let c := (first + e.1) % p.channels; narrowElem p.format e.2 (scales.getD c (one32, 0)).1 (zs.getD c 0)
  let esc := (codes.zip l).filter fun e => e.1.q.isNone
  let raw := esc.length > 32
  let clip := if raw then 0 else (codes.filter fun c => c.clip).length
  let head := leBytes 2 b ++ leBytes 2 l.length ++ leBytes 2 (if raw then 0 else esc.length) ++ [b2n raw, 0] ++ leBytes 2 clip ++ List.replicate 6 0
  let body := if raw then (l.map fun x => leBytes 2 (if isNan32 x then 0x7FC0 else (toFmt fBF16 rmRNE false (f32 x)).1)).flatten
    else packCodes p.format codes
  let side := if raw then [] else (esc.map fun e => leBytes 4 (sideValue e.2)).flatten
  { wire := pad16 head ++ pad16 body ++ pad16 side
    raw := raw
    stats := if raw then [] else (il.zip codes).map fun e =>
      ((first + e.1.1) % p.channels, e.2, if isNan32 e.1.2 || isInf32 e.1.2 then none else some (abs32 e.1.2)) }

/-- The scale record (R704). -/
def scaleRecord (p : Profile) (scales : List (Nat × Int)) (zs : List Int) (count : Nat) : List Nat :=
  let zp := bitOf p.flags 0
  [p.id, p.format, b2n zp, 0] ++ leBytes 2 p.channels ++ [0, 0] ++ leBytes 4 count ++ [0, 0, 0, 0] ++
    pad16 (if p.format == 0 then scales.map fun s => sbyte s.2 else (scales.map fun s => leBytes 4 s.1).flatten) ++
    (if zp then pad16 (zs.map sbyte) else [])

/-- The zero points of a profile, 0 where it has none (R699). -/
def Profile.zps (p : Profile) : List Int :=
  (List.range p.channels).map fun c => if bitOf p.flags 0 then sgn 8 (p.zeros.getD c 0) else 0

/-- A narrowed write: its scale record and its blocks (R696, R697). -/
def narrowAll (p : Profile) (offs : List Int) (l : List Nat) : List Nat × List NBlock :=
  let ms := if bitOf p.flags 1 then [] else channelMax p.channels l
  let scales := (List.range p.channels).map fun c => scaleOf p (ms.getD c 0) (p.scales.getD c one32) (offs.getD c 0)
  let zs := p.zps
  (scaleRecord p scales zs l.length,
    (List.range (ceilDiv l.length 4096)).map fun b => narrowBlock p scales zs b (4096 * b) ((l.drop (4096 * b)).take 4096))

/-- The elements of a received block from its bytes and the scale record's (R702, R704): the index of the first element and the
FP32 values. -/
def widenBlock (rec blk : List Nat) : Nat × List Nat :=
  let format := rec.getD 1 0
  let channels := leAt rec 4 2
  let zp := bitOf (rec.getD 2 0) 0
  let sbytes := if format == 0 then channels else 4 * channels
  let zoff := 16 + ceilDiv sbytes 16 * 16
  let scale := fun c => if format == 0 then pow2of (sgn 8 (rec.getD (16 + c) 0)) else leAt rec (16 + 4 * c) 4
  let zero : Nat → Int := fun c => if zp then sgn 8 (rec.getD (zoff + c) 0) else 0
  let n := leAt blk 2 2
  let first := 4096 * leAt blk 0 2
  let raw := bitOf (blk.getD 6 0) 0
  let bodyLen := if raw then 2 * n else if format == 3 then ceilDiv n 2 else n
  let side := 16 + ceilDiv bodyLen 16 * 16
  let code : Nat → Int := fun i => if format == 3 then sgn 4 (bitsOf (blk.getD (16 + i / 2) 0) (4 * (i % 2)) 4) else sgn 8 (blk.getD (16 + i) 0)
  let esc : Int := if format == 3 then -8 else -128
  let step := fun (x : List Nat × Nat) i =>
    let c := (first + i) % channels
    if raw then (x.1 ++ [leAt blk (16 + 2 * i) 2 * 2 ^ 16], x.2)
    else if code i == esc then (x.1 ++ [leAt blk (side + 4 * x.2) 4], x.2 + 1)
    else (x.1 ++ [widenCode format (scale c) (zero c) (code i)], x.2)
  (first, ((List.range n).foldl step ([], 0)).1)

/-! ## Adaptation (R707 to R709, R712) -/

/-- The adaptation state a partition starts with under a plate or overlay (R707). -/
def lnuInit (t : PartTables) : List (Nat × List LnuChan) :=
  (t.narrow.filter fun p => bitOf p.flags 2).map fun p => (p.id, List.replicate p.channels {})

/-- The profile of a partition with an id (R541). -/
def PartTables.profile (t : PartTables) (id : Nat) : Option Profile := t.narrow.find? fun p => p.id == id

/-- Count the elements of a coded block in a profile's channels (R703, R707). -/
def lnuCount (chans : List LnuChan) (b : NBlock) : List LnuChan :=
  b.stats.foldl (fun l e => l.modify e.1 fun c =>
    { c with
      n := c.n + b2n e.2.1.q.isSome
      clipped := c.clipped + b2n e.2.1.clip
      m := match e.2.2 with
        | some x => maxMag c.m x
        | none => c.m }) chans

/-- One channel at a tick start (R708, R709); `s` is its scale of the tick that ended. -/
def lnuStep (format clipHigh s : Nat) (c : LnuChan) : LnuChan :=
  let z := { c with n := 0, clipped := 0, m := 0 }
  if c.n == 0 then z
  else if c.clipped * 256 > clipHigh * c.n then { z with a := min 16 (c.a + 1), q := 0 }
  else if c.clipped == 0 && 4 * units32 c.m < fullScale format * units32 s then
    (if c.q + 1 ≥ 8 then { z with a := max (-16) (c.a - 1), q := 0 } else { z with q := c.q + 1 })
  else { z with q := 0 }

/-- The update of every adapted profile of a partition at its tick start (R708). -/
def Part.lnuTick (p : Part) : Part :=
  { p with lnu := p.lnu.map fun e =>
      match p.tables.profile e.1 with
      | some pr => (e.1, ((List.range e.2.length).zip e.2).map fun c =>
          lnuStep pr.format pr.clipHigh (scaleOf pr 0 (pr.scales.getD c.1 one32) c.2.a).1 c.2)
      | none => e }

/-- A tick stop discards the counts of the tick (R709). -/
def Part.lnuStop (p : Part) : Part :=
  { p with lnu := p.lnu.map fun e => (e.1, e.2.map fun c => { c with n := 0, clipped := 0, m := 0 }) }

end Sys2Proof.Machine
end

