-- ==== Sys2Proof/Machine/Stream.lean ====
section
/-! DEFINITION. The stream engines: contexts and their commands, descriptors, rings, run-ahead, persistent streams, chains,
spill regions, token buckets (R530 to R572, R580 to R585). -/
namespace Sys2Proof.Machine

/-! ## Descriptors (R536 to R539) -/

/-- A descriptor's fields. -/
structure Desc where
  kind : Nat
  flags : Nat
  profile : Nat
  far : Nat
  near : Nat
  c : List Nat
  s : List Int
  pitch : Nat
  reservedOk : Bool

/-- Read the 64 bytes of a descriptor (R536). -/
def Desc.of (b : List Nat) : Desc :=
  let le := leAt b
  let c0 := le 16 3
  { kind := le 0 1, flags := le 1 1, profile := le 2 1, far := le 4 5, near := le 9 5,
    c := [c0, le 19 3, le 22 3, le 25 3, le 28 3], s := [sgn 40 (le 32 5), sgn 40 (le 37 5), sgn 40 (le 42 5), sgn 40 (le 47 5)],
    pitch := if le 52 4 == 0 then c0 else le 52 4,
    reservedOk := le 3 1 == 0 && le 14 2 == 0 && le 31 1 == 0 && le 56 8 == 0 }

/-- Count `i` of a descriptor. -/
def Desc.count (d : Desc) (i : Nat) : Nat := d.c.getD i 0

/-- Rows: the values of (i1, i2, i3, i4) in walk order (R539). -/
def Desc.rows (d : Desc) : Nat := d.count 1 * d.count 2 * d.count 3 * d.count 4

/-- The far address of row `r` (R537). -/
def Desc.farRow (d : Desc) (r : Nat) : Int :=
  let i1 := r % d.count 1
  let r2 := r / d.count 1
  let i2 := r2 % d.count 2
  let r3 := r2 / d.count 2
  let i3 := r3 % d.count 3
  let i4 := r3 / d.count 3
  (d.far : Int) + i1 * d.s.getD 0 0 + i2 * d.s.getD 1 0 + i3 * d.s.getD 2 0 + i4 * d.s.getD 3 0

/-- The near address of row `r` (R537). -/
def Desc.nearRow (d : Desc) (r : Nat) : Nat := d.near + r * d.pitch

/-- The lowest far byte and the length of the far hull (R542). -/
def Desc.hull (d : Desc) : Int × Nat :=
  let span := (List.range 4).map fun i => ((d.count (i + 1) : Int) - 1) * d.s.getD i 0
  let lo := span.foldl (fun a x => a + min 0 x) (d.far : Int)
  let hi := span.foldl (fun a x => a + max 0 x) (d.far : Int)
  (lo, (hi - lo).toNat + d.count 0)

/-- The length of the near hull. -/
def Desc.nearLen (d : Desc) : Nat := (d.rows - 1) * d.pitch + d.count 0

/-- The far rows with their lengths, in walk order. -/
def Desc.farRows (d : Desc) : List (Nat × Nat) := (List.range d.rows).map fun r => ((d.farRow r).toNat, d.count 0)

/-- The near rows with their lengths, in walk order. -/
def Desc.nearRows (d : Desc) : List (Nat × Nat) := (List.range d.rows).map fun r => (d.nearRow r, d.count 0)

/-- A range lies in the pod store or in one core store of a pod. -/
def Chip.nearOk (ch : Chip) (pod a n : Nat) : Bool :=
  match ch.place a n with
  | some (.podStore d) => d == pod
  | some (.coreStore k) => podOf k == pod
  | _ => false

/-- The place of a far hull, where it is one range. -/
def Chip.farPlace (ch : Chip) (d : Desc) : Option Place :=
  if d.hull.1 < 0 then none else ch.place d.hull.1.toNat d.hull.2

/-- The hull is in a window. -/
def Place.isWindow : Place → Bool
  | .window _ _ => true
  | _ => false

/-- The checks of a descriptor when it begins, for the stream engine of a pod of partition `p` (R18, R538, R541, R542, R696). -/
def Chip.descCode (ch : Chip) (pod p : Nat) (d : Desc) : Nat :=
  let lo := d.hull.1.toNat
  if d.kind == 0 then chk cBOUNDS (d.flags < 4)
  else firstCode [
    chk cBOUNDS (d.kind ≤ 3 && d.flags < 4 && d.reservedOk),
    chk cBOUNDS (d.c.all (fun c => c != 0) && d.count 0 ≤ d.pitch),
    chk cBOUNDS (0 ≤ d.hull.1),
    if d.kind == 1 then ch.usable p lo d.hull.2 else ch.usable p lo d.hull.2,
    chk cBOUNDS (d.profile == 0xFF || (((ch.farPlace d).map Place.isWindow).getD false &&
      ((ch.part p).tables.profile d.profile).isSome && d.kind == 2 && d.far % 4 == 0 && d.near % 4 == 0 && d.count 0 % 4 == 0)),
    chk cBOUNDS (d.kind == 3 || ch.nearOk pod d.near d.nearLen) ]

/-! ## Moving bytes (R540, R543, R566, R695, R701 to R706) -/

/-- Rows as pieces, each within a 64-byte line, in walk order. -/
def rowPieces (rows : List (Nat × Nat)) : List (Nat × Nat) := rows.flatMap fun q => pieces q.1 q.2

/-- Read rows in order up to the first failing piece: the chip, the code, the bytes and, where a piece failed, its address. An error of
host memory is not raised yet (R553). -/
def Chip.readRows (ch : Chip) (p : Nat) (far : FarAns) (rows : List (Nat × Nat)) : Chip × Nat × List Nat × Nat :=
  (rowPieces rows).foldl (fun x q =>
    if x.2.1 != cOK then x else
    let r := x.1.fetchPiece p far q.1 q.2
    (r.1, r.2.1, if r.2.1 == cOK then x.2.2.1 ++ r.2.2 else x.2.2.1, q.1)) (ch, cOK, [], 0)

/-- Write data over rows in order, as far as the data goes, up to the first failing piece: the chip, the code, the bytes written and, where
a piece failed, its address. -/
def Chip.writeRows (ch : Chip) (p : Nat) (far : FarAns) (rows : List (Nat × Nat)) (data : List Nat) : Chip × Nat × Nat × Nat :=
  (rowPieces rows).foldl (fun x q =>
    let b := (data.drop x.2.2.1).take q.2
    if x.2.1 != cOK || b.isEmpty then x else
    let r := x.1.writePiece p far q.1 b
    (r.1, r.2, if r.2 == cOK then x.2.2.1 + b.length else x.2.2.1, q.1)) (ch, cOK, 0, 0)

/-- Count bytes that the engine of a pod moves at a far place (R584). -/
def Chip.seCount (ch : Chip) (pod : Nat) (pl : Option Place) (write : Bool) (bytes : Nat) : Chip :=
  ch.modPod pod fun x => match pl with
    | some .dram => if write then { x with seBytesWr := (x.seBytesWr + bytes) % 2 ^ 64 } else { x with seBytesRd := (x.seBytesRd + bytes) % 2 ^ 64 }
    | some (.window _ _) => { x with seBytesRem := (x.seBytesRem + bytes) % 2 ^ 64 }
    | some (.host _) => { x with seBytesRem := (x.seBytesRem + bytes) % 2 ^ 64 }
    | _ => x

/-- A fetch of descriptors by the engine of a pod, counted: the chip, the code, the bytes. -/
def Chip.seFetch (ch : Chip) (pod p : Nat) (far : FarAns) (a n : Nat) : Chip × Nat × List Nat :=
  let (ch1, code, b) := ch.uread p far a n
  (ch1.seCount pod (ch.place a n) false b.length, code, b)

/-- Little-endian 32-bit elements of bytes. -/
def words32 (l : List Nat) : List Nat := (List.range (l.length / 4)).map fun i => leAt l (4 * i) 4

/-- A narrowed write: tokens on the wire bytes, blocks sent in order up to the first that its answer fails, the LNU's counters and
the adaptation counts of the blocks coded. The answers are keyed by block index (R676, R694 to R697, R707, R774). -/
def Chip.narrowWrite (ch : Chip) (p : Nat) (far : FarAns) (desc data : List Nat) (pr : Profile) (w o : Nat) : Chip × Nat :=
  match ch.pathOf p w o with
  | none => (ch, cLINKDOWN)
  | some l =>
    if (ch.link l).fenced then (ch, cFENCED) else
    let chans := ((ch.part p).lnu.lookup pr.id).getD []
    let (rec, blocks) := narrowAll pr (chans.map fun c => c.a) (words32 data)
    let sent := (blocks.map fun b => b.wire.length).sum + rec.length
    let ch1 := ch.payLines p 2 (ceilDiv sent 64)
    let step := fun (x : Chip × Nat) (ib : Nat × NBlock) =>
      if x.2 != cOK then x else
      let b := ib.2
      let coded := b.stats.filter fun e => e.2.1.q.isSome
      let a := (x.1.modLink l fun k => { k with
          coded := (k.coded + coded.length) % 2 ^ 64
          escapes := (k.escapes + (b.stats.length - coded.length)) % 2 ^ 64
          clipped := (k.clipped + (b.stats.filter fun e => e.2.1.clip).length) % 2 ^ 64
          rawBlocks := (k.rawBlocks + b2n b.raw) % 2 ^ 64 }).modPart p fun q =>
            { q with lnu := q.lnu.map fun e => if e.1 == pr.id then (e.1, lnuCount e.2 b) else e }
      let rec0 := if ib.1 == 0 then rec else []
      if a.linkUp l then
        (a.linkSend l 2 (p :: ib.1 :: desc) (rec0 ++ b.wire) (if ib.1 == 0 then 16 else 0), ((far.lookup ib.1).getD (cTIMEOUT, [])).1)
      else (a, cLINKDOWN)
    ((List.range blocks.length).zip blocks).foldl step (ch1, cOK)

/-- The source bytes of a descriptor as it begins: the chip, the code, the bytes and where a read stopped (R542, R543, R552). A narrowed
write whose source fails keeps the blocks read whole, and none where the scales needed every element first (R697, R705). -/
def Chip.descSource (ch : Chip) (pod p : Nat) (far : FarAns) (d : Desc) : Chip × Nat × List Nat × Nat :=
  match d.kind with
  | 1 =>
    let r := ch.readRows p far d.farRows
    (r.1.seCount pod (ch.farPlace d) false r.2.2.1.length, r.2)
  | 2 =>
    let r := ch.readRows p [] d.nearRows
    match (if d.profile == 0xFF then none else (ch.part p).tables.profile d.profile) with
    | some pr => (r.1, r.2.1, if r.2.1 == cOK then r.2.2.1 else if bitOf pr.flags 1 then r.2.2.1.take (r.2.2.1.length / 16384 * 16384) else [], r.2.2.2)
    | none => r
  | 3 => (ch, cOK, List.replicate (d.rows * d.count 0) 0, 0)
  | _ => (ch, cOK, [], 0)

/-- The writes of a descriptor as it completes: the chip, the code and where a write stopped. -/
def Chip.descWrite (ch : Chip) (pod p : Nat) (far : FarAns) (desc data : List Nat) : Chip × Nat × Nat :=
  let d := Desc.of desc
  if data.isEmpty then (ch, cOK, 0)
  else match d.kind with
  | 1 =>
    let r := ch.writeRows p [] d.nearRows data
    (r.1, r.2.1, r.2.2.2)
  | 0 => (ch, cOK, 0)
  | _ =>
    match (if d.profile == 0xFF then none else (ch.part p).tables.profile d.profile), ch.farPlace d with
    | some pr, some (.window w o) =>
      let r := (ch.seCount pod (ch.farPlace d) true data.length).narrowWrite p far desc data pr w o
      (r.1, r.2, d.far)
    | _, _ =>
      let r := ch.writeRows p far d.farRows data
      (r.1.seCount pod (ch.farPlace d) true r.2.2.1, r.2.1, r.2.2.2)

/-! ## Contexts (R530 to R535) -/

/-- The state a context rests in: RUNNING with work, PERSIST with a persistent descriptor, else IDLE. -/
def SeCtx.rest (x : SeCtx) : SeCtx :=
  { x with state := if x.state == .error then .error else if !x.q.isEmpty || !x.begun.isEmpty then .running
      else if x.persist.isSome then .persist else .idle }

/-- Put work behind what a context has; work of an empty context is current at once. -/
def SeCtx.push (x : SeCtx) (now : Nat) (l : List SeItem) : SeCtx :=
  ({ x with q := x.q ++ l, since := if x.q.isEmpty && x.begun.isEmpty then now else x.since }).rest

/-- The command is for the stream engine of pod `p`. -/
def forSe (p : Nat) (u : UnitCmd) : Bool := u.unit == 1 && podOf u.core == p

/-- The context number of a command. -/
def UnitCmd.ctxNo (u : UnitCmd) : Nat := bitsOf (u.byte 4) 0 5

/-- The reserved bits beside the context number are 0; no command ignores them (R18, R530). -/
def UnitCmd.ctxOk (u : UnitCmd) : Bool := bitsOf (u.byte 4) 5 3 == 0

/-- The checks of a command that names a context it must hold; `any` also in ERROR (R530, R532, R545). -/
def Chip.ctxCheck (ch : Chip) (p : Nat) (u : UnitCmd) (any : Bool) : Nat :=
  let x := ch.ctx p u.ctxNo
  firstCode [
    chk cBOUNDS (u.flagsOk && u.ctxOk),
    chk cBOUNDS (x.state != .free),
    chk cPERM (x.owner == u.core),
    chk cGENSTALE (x.gen == u.le 6 2),
    chk cBUSY (any || x.state != .error) ]

/-- The stream engine of pod `p` accepts its oldest command, when its operation is `op`: the code, or the effect (R347, R535). `addr` is the
address a refused command concerns, where it has one (R760). -/
def seAccept (c p op : Nat) (check : Chip → UnitCmd → Nat) (f : Chip → UnitCmd → Chip) (s : State) (addr : UnitCmd → Nat := fun _ => 0) :
    Host.Outcome State Fault Refusal :=
  onChip c (fun ch => ch.accept (forSe p) op fun u a =>
    match check a u with
    | 0 => f a u
    | code => a.refuse u code (addr u) (code == cECC)) s

/-- CLAIM (R531, R532). -/
def execSeClaim (c p : Nat) (s : State) : Host.Outcome State Fault Refusal :=
  seAccept c p 1 (fun ch u => firstCode [
      chk cBOUNDS (u.flagsOk && u.ctxOk && u.zero 8 63 && u.byte 5 == 0),
      chk cBUSY ((ch.ctx p u.ctxNo).state == .free) ])
    (fun ch u => (ch.modCtx p u.ctxNo fun x => { x with state := .idle, owner := u.core }).complete u cOK (ch.ctx p u.ctxNo).gen) s

/-- The commands a context has accepted and not completed. -/
def SeItem.cmd : SeItem → Option UnitCmd
  | .run u _ => some u
  | .arm u _ _ => some u
  | .swap u => some u
  | .chain r => some r.cmd
  | _ => none

/-- Stop everything a context does; each command in it completes with `code` (R533, R581). -/
def Chip.ctxStop (ch : Chip) (p x code : Nat) : Chip :=
  let y := ch.ctx p x
  let cmds := (y.begun.map fun w => w.item.cmd) ++ y.q.map SeItem.cmd
  let ch1 := ch.modCtx p x fun z => { z with q := [], begun := [], fetched := [], paid := [], state := .idle }
  cmds.foldl (fun a o => match o with
    | some u => a.completeCore u code 0
    | none => a) ch1

/-- Answers under which every piece of some rows is performed. -/
def okAnswers (rows : List (Nat × Nat)) : FarAns := (rowPieces rows).map fun q => (q.1, cOK, [])

/-- The first `n` pieces of the current descriptor's writes, performed before a stop at a 64-byte boundary (R533, R544). -/
def Chip.sePartial (ch : Chip) (p x n : Nat) (far : FarAns) : Chip :=
  match (ch.ctx p x).begun.head? with
  | none => ch
  | some w =>
    let d := Desc.of w.desc
    let part := (ch.partOfPod p).getD 0xFF
    let rows := if d.kind == 1 then d.nearRows else d.farRows
    let bytes := (((rowPieces rows).take n).map fun q => q.2).sum
    match w.item with
    | .swap _ => ch
    | _ => if w.code != cOK || d.profile != 0xFF then ch else (ch.descWrite p part far w.desc (w.data.take bytes)).1

/-- The current descriptor stops at a 64-byte boundary that the spec does not fix: how many pieces it has written is a free value
(DESIGN CHOICE, log entry 62). -/
def Chip.seCut (ch : Chip) (p x : Nat) : Chip :=
  match (ch.ctx p x).begun.head? with
  | none => ch
  | some w =>
    let d := Desc.of w.desc
    let (i, a) := ch.draw
    let n := (rowPieces (if d.kind == 1 then d.nearRows else d.farRows)).length
    a.sePartial p x ((Config.freeValue i).toNat % (n + 1)) (okAnswers d.farRows)

/-- A code that the spec does not state, from the free values (DESIGN CHOICE, log entry 22). -/
def Chip.freeCode (ch : Chip) : Nat × Chip :=
  let (i, a) := ch.draw
  ((Config.freeValue i).toNat % 16, a)

/-- RELEASE: the context stops after `n` more pieces, is FREE, its generation up by one (R533). -/
def execSeRelease (c p n : Nat) (far : List (Nat × Nat × List Nat)) (s : State) : Host.Outcome State Fault Refusal :=
  seAccept c p 2 (fun ch u => firstCode [chk cBOUNDS (u.byte 5 == 0 && u.zero 8 63), ch.ctxCheck p u true])
    (fun ch u =>
      let (code, a) := (ch.sePartial p u.ctxNo n far).freeCode
      let b := (a.ctxStop p u.ctxNo code).modCtx p u.ctxNo fun x => { ({} : SeCtx) with gen := inc16 x.gen }
      b.complete u cOK 0) s

/-- CANCEL: the context stops after `n` more pieces and is IDLE, its persistent descriptor cleared (R533). -/
def execSeCancel (c p n : Nat) (far : List (Nat × Nat × List Nat)) (s : State) : Host.Outcome State Fault Refusal :=
  seAccept c p 7 (fun ch u => firstCode [chk cBOUNDS (u.byte 5 == 0 && u.zero 8 63), ch.ctxCheck p u true])
    (fun ch u =>
      let (code, a) := (ch.sePartial p u.ctxNo n far).freeCode
      let b := (a.ctxStop p u.ctxNo code).modCtx p u.ctxNo fun x => { x with persist := none, head := x.tail }
      b.complete u cOK 0) s

/-- RUN (R531, R554). -/
def execSeRun (c p : Nat) (s : State) : Host.Outcome State Fault Refusal :=
  seAccept c p 3 (fun ch u => firstCode [
      chk cBOUNDS (u.byte 5 < 2 && u.zero 16 63 && u.flagsOk),
      ch.ctxCheck p u false,
      chk cALIGN (u.le 8 8 % 64 == 0),
      ch.usable (ch.partNo u.core) (u.le 8 8) 64 ])
    (fun ch u => ch.modCtx p u.ctxNo fun x => x.push ch.time [.run u (u.byte 5 == 1)]) s (addr := fun u => u.le 8 8)

/-- The depth of a RUNAHEAD value (R551). -/
def runaheadDepth (v : Nat) : Nat := if v == 0 then 2 else v - 1

/-- ATTACH (R546, R551, R583). -/
def execSeAttach (c p : Nat) (s : State) : Host.Outcome State Fault Refusal :=
  seAccept c p 4 (fun ch u => firstCode [
      chk cBOUNDS (u.flagsOk && u.byte 5 == 0 && u.byte 20 < 6 && u.zero 21 63 && u.le 16 4 % 8 == 0 && 8 ≤ u.le 16 4 && u.le 16 4 ≤ 65536),
      ch.ctxCheck p u false,
      chk cBUSY ((ch.ctx p u.ctxNo).state == .idle),
      chk cPERM (u.byte 20 == 0 || (ch.part (ch.partNo u.core)).expert),
      chk cALIGN (u.le 8 8 % 512 == 0),
      ch.usable (ch.partNo u.core) (u.le 8 8) (64 * u.le 16 4) ])
    (fun ch u => (ch.modCtx p u.ctxNo fun x => { x with
      ringBase := u.le 8 8, ringN := u.le 16 4, head := 0, tail := 0, depth := runaheadDepth (u.byte 20), fetched := [] }).complete u cOK 0) s
    (addr := fun u => u.le 8 8)

/-- TAIL (R547). -/
def execSeTail (c p : Nat) (s : State) : Host.Outcome State Fault Refusal :=
  seAccept c p 5 (fun ch u =>
      let x := ch.ctx p u.ctxNo
      let pend := (x.tail + 2 ^ 32 - x.head) % 2 ^ 32
      let want := (u.le 8 4 + 2 ^ 32 - x.head) % 2 ^ 32
      firstCode [chk cBOUNDS (u.flagsOk && u.byte 5 == 0 && u.zero 12 63), ch.ctxCheck p u false, chk cBOUNDS (want ≤ x.ringN && pend ≤ want)])
    (fun ch u =>
      let x := ch.ctx p u.ctxNo
      let new := (u.le 8 4 + 2 ^ 32 - x.tail) % 2 ^ 32
      let items := (List.range new).map fun i => SeItem.ring u ((x.tail + i) % 2 ^ 32)
      (ch.modCtx p u.ctxNo fun y => ({ y with tail := u.le 8 4 }).push ch.time items).complete u cOK 0) s

/-- Re-arm a persistent context: an item that runs its descriptor with new bases (R554). -/
def Chip.rearm (ch : Chip) (p x : Nat) (u : UnitCmd) (far near : Nat) : Chip :=
  ch.modCtx p x fun y => y.push ch.time [.arm u far near]

/-- ARM (R554). -/
def execSeArm (c p : Nat) (s : State) : Host.Outcome State Fault Refusal :=
  seAccept c p 6 (fun ch u => firstCode [
      chk cBOUNDS (u.flagsOk && u.byte 5 == 0 && u.zero 24 63 && u.le 8 8 < 2 ^ 40 && u.le 16 8 < 2 ^ 40),
      ch.ctxCheck p u false,
      chk cBUSY ((ch.ctx p u.ctxNo).state == .persist) ])
    (fun ch u => ch.rearm p u.ctxNo u (u.le 8 8) (u.le 16 8)) s

/-- A 64-bit write of POD.SE_CTX_ARM of context `x` by core `k`: the code of the write, and the chip (R555). -/
def Chip.ctxArm (ch : Chip) (k p x far : Nat) : Nat × Chip :=
  let y := ch.ctx p x
  if y.state == .free || y.owner != k then (cPERM, ch)
  else match y.persist with
    | some (u, _) =>
      if y.state == .persist then (cOK, ch.rearm p x { u with quiet := false } (far % 2 ^ 40) 0)
      else (cOK, ch.completeCore { u with quiet := false } cBUSY 0)
    | none => (cOK, ch.completeCore { core := k, unit := 1 } cBUSY 0)

/-! ## Spill regions (R569 to R572) -/

/-- The pod's slice of the spill region: start and size (R569). -/
def Chip.slice (ch : Chip) (p pod : Nat) : Nat × Nat :=
  let x := (ch.part p).plate
  let pods := ch.podsOf p
  let size := x.spill / pods.length / 4096 * 4096
  (x.dramBase + x.dramSize - x.spill + (pods.idxOf pod) * size, size)

/-- SWAP (R570, R572). -/
def execSwap (c p : Nat) (s : State) : Host.Outcome State Fault Refusal :=
  seAccept c p 8 (fun ch u =>
      let len := u.le 16 4
      let sz := (ch.slice (ch.partNo u.core) p).2
      firstCode [
        chk cBOUNDS (u.flagsOk && u.byte 5 < 4 && u.zero 28 63 && len % 4096 == 0 && 4096 ≤ len && len ≤ 0x400000),
        ch.ctxCheck p u false,
        chk cBOUNDS (u.le 8 4 + len ≤ podStoreEnd && u.le 12 4 + len ≤ podStoreEnd),
        chk cBOUNDS ((ch.part (ch.partNo u.core)).plate.spill != 0 && u.le 20 4 + len ≤ sz && u.le 24 4 + len ≤ sz) ])
    (fun ch u => ch.modCtx p u.ctxNo fun x => x.push ch.time [.swap u]) s

/-- A range of this chip copied line by line, up to the first line that is refused: the chip, the code, the bytes copied and, where a line
failed, its address (R81, R444, R543). -/
def Chip.swapMove (ch : Chip) (p src dst n : Nat) (out : Bool) : Chip × Nat × Nat × Nat :=
  let ch1 := ch.payLines p (if out then 1 else 0) (linesOf (if out then dst else src) n).length
  (pieces src n).foldl (fun x q =>
    let d := dst + (q.1 - src)
    if x.2.1 != cOK then x
    else if x.1.bad q.1 q.2 then (x.1, cECC, x.2.2.1, q.1)
    else match x.1.writeCode d q.2 with
      | 0 => ((x.1.countSoft q.1 q.2).plainStore d (x.1.see none q.1 q.2), cOK, x.2.2.1 + q.2, 0)
      | code => (x.1, code, x.2.2.1, d)) (ch1, cOK, 0, 0)

/-- A SWAP performed: out to its slot, then in from its slot; the chip, the code and where it stopped (R570, R571, R584). -/
def Chip.swapRun (ch : Chip) (pod p : Nat) (u : UnitCmd) : Chip × Nat × Nat :=
  let len := u.le 16 4
  let base := (ch.slice p pod).1
  let (a, c, n, at1) := if bitOf (u.byte 5) 0 then (ch, cOK, 0, 0) else ch.swapMove p (podBase pod + u.le 8 4) (base + u.le 20 4) len true
  let a1 := a.seCount pod (some .dram) true n
  if c != cOK || bitOf (u.byte 5) 1 then (a1, c, at1)
  else
    let (b, d, m, at2) := a1.swapMove p (base + u.le 24 4) (podBase pod + u.le 12 4) len false
    (b.seCount pod (some .dram) false m, d, at2)

/-! ## Running descriptors (R540 to R555) -/

/-- A descriptor with its far base, and its near base where it is not 0, replaced (R554). -/
def descRebase (desc : List Nat) (far near : Nat) : List Nat :=
  desc.take 4 ++ leBytes 5 far ++ (if near == 0 then (desc.drop 9).take 5 else leBytes 5 near) ++ desc.drop 14

/-- The bytes of an item's descriptor, with the code of reading them and where they were read. -/
def Chip.itemDesc (ch : Chip) (pod p : Nat) (far : FarAns) (x : SeCtx) : SeItem → Chip × Nat × List Nat × Nat
  | .run u _ =>
    let r := ch.seFetch pod p far (u.le 8 8) 64
    (r.1, r.2.1, r.2.2, u.le 8 8)
  | .arm _ f n => (ch, cOK, descRebase ((x.persist.map fun e => e.2).getD []) f n, 0)
  | .ring _ k =>
    match x.fetched.find? fun e => e.1 == k with
    | some (_, code, b) => (ch, code, b, x.ringBase + 64 * (k % x.ringN))
    | none => (ch, cBOUNDS, [], 0)
  | _ => (ch, cOK, [], 0)

/-- The next item of a context that may begin its reads (R534, R545, R552). -/
def SeCtx.next (x : SeCtx) : Option SeItem :=
  if x.state == .error || x.state == .free then none else
  match x.q with
  | [] => none
  | .chain _ :: _ => none
  | .ring u k :: _ =>
    match x.fetched.find? fun e => e.1 == k with
    | none => none
    | some (_, _, b) =>
      let order := bitOf (b.getD 1 0) 1
      if x.begun.isEmpty || (!order && x.begun.length ≤ x.depth) then some (.ring u k) else none
  | it :: _ => if x.begun.isEmpty then some it else none

/-- A descriptor of a context begins: its checks and its reads; `code` is that of fetching it from `at0` (R542, R552). -/
def Chip.beginWork (ch : Chip) (pod : Nat) (far : FarAns) (it : SeItem) (code : Nat) (desc : List Nat) (at0 : Nat) : Chip × SeWork :=
  let p := (ch.partOfPod pod).getD 0xFF
  let d := Desc.of desc
  let c := ch.descCode pod p d
  if code != cOK then (ch, { item := it, desc := desc, code := code, stop := at0 })
  else if c != cOK then (ch, { item := it, desc := desc, code := c, stop := d.far })
  else
    let (a, c2, data, stop) := ch.descSource pod p far d
    (a, { item := it, desc := desc, data := data, code := c2, stop := stop })

/-- A transfer of context `x` of pod `p`, paced by the tokens of its partition (R566). -/
def Chip.ctxPaced (ch : Chip) (p x : Nat) (after : Chip) : Chip :=
  ch.paced ((ch.partOfPod p).getD 0xFF) (ch.ctx p x).paid (fun l a => a.modCtx p x fun y => { y with paid := l }) after

/-- The next descriptor of context `x` of pod `p` begins; `far` answers its reads beyond the chip (R542, R552). -/
def execSeDescriptorBegin (c p x : Nat) (far : List (Nat × Nat × List Nat)) (s : State) : Host.Outcome State Fault Refusal :=
  unitOn c (fun ch => ch.podPart p) (fun ch =>
    let y := ch.ctx p x
    match y.next with
    | none => ch
    | some it =>
      let part := (ch.partOfPod p).getD 0xFF
      let (a, code, desc, at0) := ch.itemDesc p part far y it
      let (b, w) := match it with
        | .swap _ => (a, ({ item := it } : SeWork))
        | _ => a.beginWork p far it code desc at0
      ch.ctxPaced p x (b.modCtx p x fun z => { z with q := z.q.drop 1, begun := z.begun ++ [w] })) s

/-- What a descriptor that ends with a code tells: the violation of its command, and the error of host memory that its read met, which a
discarded read does not raise (R543, R553, R760, R907). -/
def Chip.descTell (ch : Chip) (u : UnitCmd) (p : Nat) (w : SeWork) (code : Nat) : Chip :=
  let d := Desc.of w.desc
  let a := if d.kind == 1 && w.code == code then ch.hostFault p w.stop code else ch
  a.violateIf u.core p vCommand code w.stop (code == cECC || d.kind == 1) (u.unit + 256 * u.op)

/-- A descriptor of a context has ended with a code (R545, R550, R554). -/
def Chip.seFinish (ch : Chip) (p x : Nat) (w : SeWork) (code : Nat) : Chip :=
  let ok := code == cOK
  let p1 := (ch.partOfPod p).getD 0xFF
  let ch1 := match w.item with
    | .run u persist => ch.modCtx p x fun y => { y with persist := if ok && persist then some (u, w.desc) else y.persist }
    | .arm _ _ _ => ch.modCtx p x fun y => { y with persist := y.persist.map fun (e : UnitCmd × List Nat) => (e.1, w.desc) }
    | .ring _ k => ch.modCtx p x fun y => { y with
        head := if ok then (k + 1) % 2 ^ 32 else y.head, fetched := y.fetched.filter fun e => e.1 != k }
    | _ => ch
  let ch2 := ch1.modCtx p x fun y => ({ y with
      q := if ok then y.q else y.begun.map SeWork.item ++ y.q
      begun := if ok then y.begun else []
      code := if ok then y.code else code
      state := if ok then y.state else .error
      since := ch.time }).rest
  let tell := fun (u : UnitCmd) (v : Nat) => (ch2.descTell u p1 w code).completeCore u code v
  match w.item with
  | .run u _ => tell u 0
  | .arm u _ _ => tell u 0
  | .ring u k => if !ok || bitOf (w.desc.getD 1 0) 0 then tell { u with quiet := false } k else ch2
  | .swap u => tell u 0
  | _ => ch2

/-- The first begun descriptor of context `x` is out: its own end, or that of the stage of its chain. -/
def Chip.workEnd (ch : Chip) (p x : Nat) (w : SeWork) (code : Nat) : Chip :=
  let p1 := (ch.partOfPod p).getD 0xFF
  let b := ch.modCtx p x fun y => { y with begun := y.begun.drop 1, since := ch.time }
  match w.item with
  | .chainRead u _ => (b.descTell u p1 w code).chainDone p x u.id 0 code
  | .chainWrite u _ => (b.descTell u p1 w code).chainDone p x u.id 4 code
  | _ => b.seFinish p x w code

/-- The current descriptor of context `x` of pod `p` performs its writes and completes (R540, R542, R543). -/
def execSeDescriptorComplete (c p x : Nat) (far : List (Nat × Nat × List Nat)) (s : State) : Host.Outcome State Fault Refusal :=
  unitOn c (fun ch => ch.podPart p) (fun ch =>
    match (ch.ctx p x).begun with
    | [] => ch
    | w :: _ =>
      let part := (ch.partOfPod p).getD 0xFF
      let (a, c1, stop) := match w.item with
        | .swap u => ch.swapRun p part u
        | _ => ch.descWrite p part far w.desc w.data
      ch.ctxPaced p x (if c1 == cOK then a.workEnd p x w w.code else a.workEnd p x { w with stop := stop } c1)) s

/-- The current descriptor has lasted stream_desc_us: it stops after `n` more pieces and completes with TIMEOUT (R544). -/
def execSeDescriptorTimeout (c p x n : Nat) (far : List (Nat × Nat × List Nat)) (s : State) : Host.Outcome State Fault Refusal :=
  unitOn c (fun ch => ch.podPart p) (fun ch =>
    let y := ch.ctx p x
    let part := (ch.partOfPod p).getD 0xFF
    if y.state == .error || y.state == .free || ch.time < y.since + ch.streamNs part then ch
    else match y.begun with
      | w :: _ => (ch.sePartial p x n far).workEnd p x { w with code := cOK } cTIMEOUT
      | [] => match y.q with
        | .chain _ :: _ => ch
        | it :: rest => (ch.modCtx p x fun z => { z with q := rest }).seFinish p x { item := it } cTIMEOUT
        | [] => ch) s

/-- Context `x` fetches the aligned group of eight slots of its first pending descriptor not yet fetched (R548). -/
def execSeRingFetch (c p x : Nat) (far : List (Nat × Nat × List Nat)) (s : State) : Host.Outcome State Fault Refusal :=
  unitOn c (fun ch => ch.podPart p) (fun ch =>
    let y := ch.ctx p x
    let pend := y.q.filterMap fun it => match it with
      | .ring _ k => some k
      | _ => none
    match pend.find? fun k => !y.fetched.any fun e => e.1 == k with
    | none => ch
    | some k =>
      let part := (ch.partOfPod p).getD 0xFF
      let slot := k % y.ringN
      let (a, code, b) := ch.seFetch p part far (y.ringBase + 64 * (slot / 8 * 8)) 512
      let got := (pend.filter fun j => (j + 2 ^ 32 - k) % 2 ^ 32 < 8 - slot % 8 && !y.fetched.any fun e => e.1 == j).map fun j =>
        (j, code, sliceB b (64 * (j % y.ringN % 8)) 64)
      ch.ctxPaced p x (a.modCtx p x fun z => { z with fetched := z.fetched ++ got })) s

/-! ## Chains (R557 to R563) -/

/-- A command's bytes with `new` in place from an offset. -/
def patch (b : List Nat) (off : Nat) (new : List Nat) : List Nat := b.take off ++ new ++ b.drop (off + new.length)

/-- The embedded command of a stage: its unit and bytes, QUIET set, on behalf of the chain's core (R562). -/
def ChainRun.embed (r : ChainRun) (x unit : Nat) (bytes : List Nat) : UnitCmd :=
  { id := r.cmd.id, unit := unit, core := r.cmd.core, tag := 0, quiet := true, bytes := patch bytes 1 [bytes.getD 1 0 ||| 1],
    acw := r.cmd.acw, after := [], chain := x + 1, chainId := r.cmd.id }

/-- The input buffer of iteration `i`. -/
def ChainRun.inOff (r : ChainRun) (i : Nat) : Nat := r.cmd.le (20 + 4 * (i % 2)) 4
/-- The output buffer of group `g`. -/
def ChainRun.outOff (r : ChainRun) (g : Nat) : Nat := r.cmd.le (28 + 4 * (g % 2)) 4

/-- MMA(i) (R560). -/
def ChainRun.mma (r : ChainRun) (x i : Nat) : UnitCmd :=
  let t := r.tmpl.getD 1 []
  let g := i / r.kgroup
  let b4 := setBits (setBits (t.getD 4 0) 0 1 (g % 2)) 1 1 (b2n (i % r.kgroup != 0))
  let t1 := patch t 4 [b4]
  let t2 := if r.has 0 then patch t1 (if r.has 5 then 24 else 16) (leBytes 4 (r.inOff i)) else t1
  r.embed x 0 t2

/-- DRAIN(g) (R560). -/
def ChainRun.drain (r : ChainRun) (x g : Nat) : UnitCmd :=
  let t := r.tmpl.getD 2 []
  r.embed x 0 (patch (patch t 4 [setBits (t.getD 4 0) 0 1 (g % 2)]) 16 (leBytes 4 (r.outOff g)))

/-- ROW(g) (R560). -/
def ChainRun.row (r : ChainRun) (x g : Nat) : UnitCmd :=
  let a := leBytes 8 (podBase (podOf r.cmd.core) + r.outOff g)
  r.embed x 2 (patch (patch (r.tmpl.getD 3 []) 16 a) 24 a)

/-- The descriptor of READ(i) (R560). -/
def ChainRun.readDesc (r : ChainRun) (i : Nat) : List Nat :=
  let t := r.tmpl.getD 0 []
  let far := wrapInt 40 ((leAt t 4 5 : Int) + i * sgn 40 (r.cmd.le 36 5))
  patch (patch t 4 (leBytes 5 far)) 9 (leBytes 5 (podBase (podOf r.cmd.core) + r.inOff i))

/-- The descriptor of WRITE(g) (R560). -/
def ChainRun.writeDesc (r : ChainRun) (g : Nat) : List Nat :=
  let t := r.tmpl.getD 4 []
  let far := wrapInt 40 ((leAt t 4 5 : Int) + g * sgn 40 (r.cmd.le 41 5))
  patch (patch t 4 (leBytes 5 far)) 9 (leBytes 5 (podBase (podOf r.cmd.core) + r.outOff g))

/-- A chain as its command and the template in the pod store give it (R558). -/
def Chip.chainOf (ch : Chip) (p : Nat) (u : UnitCmd) : ChainRun :=
  { cmd := u, tmpl := (List.range 5).map fun i => ch.see none (podBase p + u.le 16 4 + 64 * i) 64 }

/-- The checks of a CHAIN at acceptance; an offset that no stage uses and the slot of an absent stage are not looked at (R460, R557 to
R559). -/
def Chip.chainCheck (ch : Chip) (p : Nat) (u : UnitCmd) : Nat :=
  let r := ch.chainOf p u
  let offs := u.le 16 4 :: ((List.range (if r.has 0 then min 2 r.iterations else 0)).map r.inOff ++
    (List.range (min 2 r.total)).map r.outOff)
  let t := ch.tablesOf u.core
  let ex := (ch.part (ch.partNo u.core)).expert
  let its := [0, 1, r.kgroup, r.kgroup + 1].filter fun i => i < r.iterations
  let gs := [0, 1].filter fun g => g < r.total
  let rowOp := (r.tmpl.getD 3 []).getD 0 0
  firstCode [
    chk cBOUNDS (u.flagsOk && u.byte 5 < 64 && u.byte 11 == 0 && 1 ≤ r.iterations && 1 ≤ r.kgroup && r.kgroup ≤ 4096 && u.zero 14 15 && u.zero 46 63),
    ch.ctxCheck p u false,
    chk cALIGN (offs.all fun o => o % 64 == 0),
    chk cBOUNDS (offs.all fun o => o < podStoreEnd && u.le 16 4 + 320 ≤ podStoreEnd),
    chk cECC ((List.range 5).all fun i => !r.has i || !ch.bad (podBase p + u.le 16 4 + 64 * i) 64),
    chk cBOUNDS (r.has 1 && r.has 2 && r.iterations % r.kgroup == 0 && !bitOf ((r.tmpl.getD 2 []).getD 4 0) 1 &&
      (!r.has 3 || rowOp == 1 || rowOp == 3)),
    chk cBOUNDS ((r.tmpl.getD 1 []).getD 0 0 == 1 && (r.tmpl.getD 2 []).getD 0 0 == 2),
    firstCode (its.map fun i => mmaCheck (r.mma u.ctxNo i) ex),
    firstCode (gs.map fun g => drainCheck t (r.drain u.ctxNo g)),
    if r.has 3 then firstCode (gs.map fun g => ch.rowCheck (r.row u.ctxNo g)) else cOK ]

/-- CHAIN. -/
def execChain (c p : Nat) (s : State) : Host.Outcome State Fault Refusal :=
  seAccept c p 0x10 (fun ch u => ch.chainCheck p u)
    (fun ch u => ch.modCtx p u.ctxNo fun x => x.push ch.time [.chain (ch.chainOf p u)]) s
    (addr := fun u => podBase p + u.le 16 4)

/-- A begun descriptor belongs to chain `id`. -/
def SeWork.ofChain (w : SeWork) (id : Nat) : Bool :=
  match w.item with
  | .chainRead u _ => u.id == id
  | .chainWrite u _ => u.id == id
  | _ => false

/-- The chain at the front of a context runs: the context is not in ERROR and every earlier descriptor is out (R534, R545). -/
def SeCtx.chainRuns (x : SeCtx) (r : ChainRun) : Bool := x.state != .error && x.state != .free && x.begun.all fun w => w.ofChain r.cmd.id

/-- The next start of a stage is allowed (R561, R563). -/
def ChainRun.ready (r : ChainRun) (stage : Nat) : Bool :=
  let n := r.started.getD stage 0
  let dn := fun i => r.done.getD i 0
  r.fail.isNone && match stage with
    | 0 => r.has 0 && n < r.iterations && (n < 2 || n - 2 < dn 1)
    | 1 => n < r.iterations && (!r.has 0 || n < dn 0)
    | 2 => n < r.total && (n + 1) * r.kgroup ≤ dn 1 && (n < 2 || n - 2 < dn r.last)
    | 3 => r.has 3 && n < dn 2
    | 4 => r.has 4 && n < (if r.has 3 then dn 3 else dn 2)
    | _ => false

/-- The chain of context `x` of pod `p` starts its next READ, MMA, DRAIN, ROW or WRITE (stages 0 to 4); a ROW for a fenced SFU completes with
FENCED (R560 to R562, R774). -/
def execChainStageStart (c p x stage : Nat) (far : List (Nat × Nat × List Nat)) (s : State) : Host.Outcome State Fault Refusal :=
  unitOn c (fun ch => ch.podPart p) (fun ch =>
    let y := ch.ctx p x
    match y.q with
    | .chain r :: rest =>
      let n := r.started.getD stage 0
      if !y.chainRuns r || !r.ready stage || (stage == 1 || stage == 2) && 64 ≤ (ch.pod p).arrq.length then ch
      else
        let a := ch.modCtx p x fun z => { z with q := .chain { r with started := r.started.modify stage fun k => k + 1 } :: rest }
        let stream := fun (it : SeItem) (desc : List Nat) =>
          let (b, w) := a.beginWork p far it cOK desc 0
          ch.ctxPaced p x (b.modCtx p x fun z => { z with begun := z.begun ++ [w], since := if z.begun.isEmpty then ch.time else z.since })
        match stage with
        | 0 => stream (.chainRead r.cmd n) (r.readDesc n)
        | 1 => { (a.modPod p fun d => { d with arrq := d.arrq ++ [({ r.mma x n with id := ch.nextReq }, false)] }) with nextReq := ch.nextReq + 1 }
        | 2 => { (a.modPod p fun d => { d with arrq := d.arrq ++ [({ r.drain x n with id := ch.nextReq }, false)] }) with nextReq := ch.nextReq + 1 }
        | 3 =>
          if (ch.core r.cmd.core).sfuFenced then a.complete (r.row x n) cFENCED 0
          else a.modCore r.cmd.core fun k => { k with rowq := k.rowq ++ [r.row x n] }
        | _ => stream (.chainWrite r.cmd n) (r.writeDesc n)
    | _ => ch) s

/-! ## Token buckets (R565) -/

/-- A pod whose engine has a line that waits for tokens counts the window that ends (R584). -/
def Pod.windowEnd (d : Pod) : Pod := if d.ctxs.any fun x => !x.paid.isEmpty then { d with seWait := (d.seWait + 1) % 2 ^ 64 } else d

/-- At a multiple of 1,000 ns every bucket of every partition is set. -/
def execBucketRefill (c : Nat) (s : State) : Host.Outcome State Fault Refusal :=
  onChip c (fun ch =>
    if ch.time % 1000 != 0 then ch
    else ({ ch with pods := ch.pods.map Pod.windowEnd }).forEach (List.range 8) fun p a => a.modPart p fun q =>
      if q.isDefined then q.setTokens (a.fill p) else q) s

/-! ## Stops, reclaim, overlays (R223, R580 to R582) -/

/-- A tick stop on the contexts of pod `p`: each is cut as by CANCEL, and keeps its owner, generation, ring and persistent descriptor
(R581). -/
def Chip.stopStreams (ch : Chip) (p : Nat) : Chip :=
  ch.forEach (List.range 32) fun x a =>
    if (a.ctx p x).state == .free then a
    else ((a.seCut p x).ctxStop p x cOVERRUN).modCtx p x fun y => ({ y with head := y.tail }).rest

/-- The chain at the front of context `x` stops with FENCED: its stages that run complete, it starts no other, and its VALUE is the groups
whose last stage completed (R563, R580). -/
def Chip.chainFence (ch : Chip) (p x : Nat) (r : ChainRun) : Chip :=
  let part := (ch.partOfPod p).getD 0xFF
  let mine := (ch.ctx p x).begun.filter fun w => w.ofChain r.cmd.id
  let out := mine.foldl (fun (z : Chip × Nat) w =>
    let e := z.1.descWrite p part (okAnswers (Desc.of w.desc).farRows) w.desc w.data
    (e.1, z.2 + (match w.item with
      | .chainWrite _ _ => b2n (e.2.1 == cOK && w.code == cOK)
      | _ => 0))) (ch, 0)
  (out.1.modCtx p x fun z => { z with q := z.q.drop 1, begun := z.begun.filter fun w => !w.ofChain r.cmd.id }).completeCore r.cmd cFENCED
    (r.groups + out.2)

/-- The steward reclaims the contexts that core `k` owns: a chain in flight stops with FENCED, other work is cut as by RELEASE and ends
with GEN_STALE (R580). -/
def Chip.reclaimCtxs (ch : Chip) (k : Nat) : Chip × Nat :=
  let p := podOf k
  let own := (List.range 32).filter fun x => (ch.ctx p x).state != .free && (ch.ctx p x).owner == k
  (ch.forEach own fun x a =>
    let b := match (a.ctx p x).q with
      | .chain r :: _ => if (a.ctx p x).chainRuns r then a.chainFence p x r else a
      | _ => a
    ((b.seCut p x).ctxStop p x cGENSTALE).modCtx p x fun y => { ({} : SeCtx) with gen := inc16 y.gen }, own.length)

/-- An overlay frees every context of a pod (R582). -/
def Pod.freeCtxs (d : Pod) : Pod := { d with ctxs := d.ctxs.map fun x => { ({} : SeCtx) with gen := inc16 x.gen } }

/-- A context of the pod has work: its commands are in flight (R221, R556). -/
def Pod.seBusy (d : Pod) : Bool := d.ctxs.any fun x => !x.q.isEmpty || !x.begun.isEmpty

end Sys2Proof.Machine
end

