-- ==== Sys2Proof/Machine/Carousel.lean ====
section
/-! DEFINITION. The carousel of a partition: arming, steps, transfers, disarming (R573 to R579). -/
namespace Sys2Proof.Machine

/-- Change the carousel of partition `p`. -/
def Chip.modCar (ch : Chip) (p : Nat) (f : Carousel → Carousel) : Chip :=
  ch.modPart p fun q => { q with carousel := f q.carousel }

/-- The core-store offset of slot `s mod 2`. -/
def Carousel.slot (x : Carousel) (s : Nat) : Nat := if s % 2 == 0 then x.slot0 else x.slot1

/-- Positions of the ring. -/
def Carousel.size (x : Carousel) : Nat := x.ring.length

/-- The position before `i`. -/
def Carousel.before (x : Carousel) (i : Nat) : Nat := (i + x.size - 1) % x.size

/-- ROTATE(s) of position `i` may complete (R577). -/
def Carousel.may (x : Carousel) (s i : Nat) : Bool := s == 0 || x.done.contains (s - 1, x.before i)

/-- CAROUSEL_ARM; `far` answers the read of a ring table beyond the chip (R573, R574). -/
def execCarouselArm (c p : Nat) (far : List (Nat × Nat × List Nat)) (s : State) : Host.Outcome State Fault Refusal :=
  onChip c (fun ch => ch.pacedAccept (forSe p) 0x20 fun u a =>
    let part := a.partNo u.core
    let n := u.byte 16
    let (b, rc, ring) := a.ureadFor u part far (u.le 8 8) n
    let s0 := u.le 20 4
    let s1 := u.le 24 4
    let len := u.le 28 4
    let pre := firstCode [
      chk cBOUNDS (u.flagsOk && u.ctxOk && u.byte 5 == 0 && 2 ≤ n && n ≤ 64 && u.zero 17 19 && u.zero 32 63 && len % 64 == 0),
      chk cALIGN (u.le 8 8 % 64 == 0 && s0 % 64 == 0 && s1 % 64 == 0),
      a.usable part (u.le 8 8) n ]
    let code := firstCode [
      chk cBOUNDS (ring.all (fun k => k < a.cores.length && a.partNo k == part) && ring.eraseDups == ring &&
        s0 + len ≤ 0x200000 && s1 + len ≤ 0x200000 && !overlaps s0 len s1 len),
      chk cBUSY (!(a.part part).carousel.armed) ]
    if pre != cOK then a.refuse u pre
    else if rc != cOK then b.complete u rc 0
    else if code != cOK then b.refuse u code
    else (b.modCar part fun x => { x with
      armed := true, ring := ring, slot0 := s0, slot1 := s1, bytes := len, last := ring.map (fun _ => none), done := [], moving := [],
      waiting := [] }).complete u cOK (a.part part).carousel.gen) s

/-- ROTATE (R575, R577). -/
def execRotate (c p : Nat) (s : State) : Host.Outcome State Fault Refusal :=
  onChip c (fun ch => ch.accept (forSe p) 0x21 fun u a =>
    let part := a.partNo u.core
    let x := (a.part part).carousel
    let i := x.ring.idxOf u.core
    let st := u.le 8 4
    let code := firstCode [
      chk cBOUNDS (u.flagsOk && u.ctxOk && u.byte 5 == 0 && u.zero 12 63),
      chk cPERM (x.ring.contains u.core),
      chk cGENSTALE (x.armed && x.gen == u.le 6 2),
      chk cBOUNDS (match x.last.getD i none with
        | none => st == 0
        | some l => st == l + 1) ]
    if code != cOK then a.refuse u code
    else
      let b := a.modCar part fun y => { y with last := y.last.set i (some st) }
      if x.may st i then b.complete u cOK 0
      else b.modCar part fun y => { y with waiting := y.waiting ++ [(u, i, st)] }) s

/-- Transfer T(s, i) of partition `p` begins, where R576 allows it. -/
def execCarouselTransfer (c p st i : Nat) (s : State) : Host.Outcome State Fault Refusal :=
  onChip c (fun ch =>
    let x := (ch.part p).carousel
    let next := (i + 1) % x.size
    let asked := match x.last.getD next none with
      | some l => st ≤ l
      | none => false
    if x.armed && i < x.size && asked && x.may st i && !x.done.contains (st, i) && !x.moving.contains (st, i) then
      ch.modCar p fun y => { y with moving := y.moving ++ [(st, i)] }
    else ch) s

/-- Transfer T(s, i) has been made: the shard stands in the next position's slot, ROTATEs go on (R576, R577, R579). -/
def execCarouselTransferDone (c p st i : Nat) (s : State) : Host.Outcome State Fault Refusal :=
  onChip c (fun ch =>
    let x := (ch.part p).carousel
    if !x.moving.contains (st, i) then ch
    else
      let ch1 := ch.modCar p fun y => { y with moving := y.moving.erase (st, i) }
      if x.armed then
        let src := coreBase (x.ring.getD i 0) + x.slot st
        let dst := coreBase (x.ring.getD ((i + 1) % x.size) 0) + x.slot (st + 1)
        let ch2 := (ch1.plainStore dst (ch1.see none src x.bytes)).modCar p fun y => { y with done := y.done ++ [(st, i)] }
        let y := (ch2.part p).carousel
        let go := y.waiting.filter fun e => y.may e.2.2 e.2.1
        go.foldl (fun a e => a.complete e.1 cOK 0)
          (ch2.modCar p fun z => { z with waiting := z.waiting.filter fun e => !y.may e.2.2 e.2.1 })
      else if (ch1.part p).carousel.moving.isEmpty then
        x.disarms.foldl (fun a u => a.complete u cOK 0) (ch1.modCar p fun y => { y with disarms := [] })
      else ch1) s

/-- `n` bytes that the spec leaves undefined, stored from an address (DESIGN CHOICE, log entry 23). -/
def Chip.storeFree (ch : Chip) (a n : Nat) : Chip :=
  let (d, ch1) := ch.draw
  ch1.store a ((List.range n).map fun i => (Config.freeByte d i).toNat)

/-- Disarm the carousel of partition `p`: the generation changes, waiting ROTATEs are stale, the slots undefined (R579). -/
def Chip.carDisarm (ch : Chip) (p : Nat) : Chip :=
  let x := (ch.part p).carousel
  if !x.armed then ch
  else
    let ch1 := ch.modCar p fun y => { y with armed := false, gen := inc16 y.gen, waiting := [] }
    let ch2 := x.waiting.foldl (fun a e => a.complete e.1 cGENSTALE 0) ch1
    ch2.forEach x.ring fun k a => (a.storeFree (coreBase k + x.slot0) x.bytes).storeFree (coreBase k + x.slot1) x.bytes

/-- CAROUSEL_DISARM: completes when no transfer is in flight (R531, R579). -/
def execCarouselDisarm (c p : Nat) (s : State) : Host.Outcome State Fault Refusal :=
  onChip c (fun ch => ch.accept (forSe p) 0x22 fun u a =>
    let part := a.partNo u.core
    if !(u.flagsOk && u.ctxOk && u.byte 5 == 0 && u.zero 8 63) then a.refuse u cBOUNDS
    else
      let b := a.carDisarm part
      if (b.part part).carousel.moving.isEmpty then b.complete u cOK 0
      else b.modCar part fun y => { y with disarms := y.disarms ++ [u] }) s

/-- The carousel of partition `p` is disarmed, its transfers in flight are cut, and CAROUSEL_DISARMs that wait for them end with a code
(R223, R579). -/
def Chip.carCut (ch : Chip) (p code : Nat) : Chip :=
  let x := (ch.part p).carousel
  x.disarms.foldl (fun a u => a.complete u code 0) ((ch.carDisarm p).modCar p fun y => { y with moving := [], disarms := [] })

/-- A core of a ring has been fenced: its partition's carousel is disarmed (R579). -/
def Chip.carFence (ch : Chip) (k : Nat) : Chip :=
  let p := ch.partNo k
  if (ch.part p).carousel.armed && (ch.part p).carousel.ring.contains k then ch.carCut p cOK else ch

/-- A ROTATE or DISARM waits: a command is in flight (R221). -/
def Carousel.busy (x : Carousel) : Bool := !x.waiting.isEmpty || !x.disarms.isEmpty

end Sys2Proof.Machine
end

