-- ==== Sys2Proof/Machine/Coder.lean ====
section
/-! DEFINITION. The coder units and the Amzal stream: sessions, the range coder, distributions, run-ahead, sealing and checking
of frames (R586 to R635). -/
namespace Sys2Proof.Machine

/-! ## Distributions (R149, R605 to R614) -/

/-- bits(T_k) for k = 1 to 63 (R609). -/
def thresholds : List Nat :=
  [0x3E05AAC3, 0x3E11C3D3, 0x3E1EF532, 0x3E2D583F, 0x3E3D08A4, 0x3E4E248C, 0x3E60CCDF, 0x3E75257D,
   0x3E85AAC3, 0x3E91C3D3, 0x3E9EF532, 0x3EAD583F, 0x3EBD08A4, 0x3ECE248C, 0x3EE0CCDF, 0x3EF5257D,
   0x3F05AAC3, 0x3F11C3D3, 0x3F1EF532, 0x3F2D583F, 0x3F3D08A4, 0x3F4E248C, 0x3F60CCDF, 0x3F75257D,
   0x3F85AAC3, 0x3F91C3D3, 0x3F9EF532, 0x3FAD583F, 0x3FBD08A4, 0x3FCE248C, 0x3FE0CCDF, 0x3FF5257D,
   0x4005AAC3, 0x4011C3D3, 0x401EF532, 0x402D583F, 0x403D08A4, 0x404E248C, 0x4060CCDF, 0x4075257D,
   0x4085AAC3, 0x4091C3D3, 0x409EF532, 0x40AD583F, 0x40BD08A4, 0x40CE248C, 0x40E0CCDF, 0x40F5257D,
   0x4105AAC3, 0x4111C3D3, 0x411EF532, 0x412D583F, 0x413D08A4, 0x414E248C, 0x4160CCDF, 0x4175257D,
   0x4185AAC3, 0x4191C3D3, 0x419EF532, 0x41AD583F, 0x41BD08A4, 0x41CE248C, 0x41E0CCDF]

/-- The scale index k of the FP32 bits of a scale under a table with binade offset `e` (R609). -/
def scaleIndex (sigma : Nat) (e : Int) : Nat :=
  if isNan32 sigma then 63
  else if bitOf sigma 31 || sigma == 0 then 0
  else
    let b : Int := (sigma : Int) - e * 2 ^ 23
    (thresholds.filter fun (t : Nat) => decide ((t : Int) ≤ b)).length

/-- m16 of a mean: its integer part and phase (R610). -/
def meanParts (mu : Nat) : Int × Nat :=
  let m : Int := match f32 mu with
    | .nan _ => 0
    | .inf n => if n then -(2 ^ 31) else 2 ^ 31 - 1
    | .fin n m e => sgn 32 (toIntW 32 true rmRNE (.fin n m (e + 4))).1
  let c := max (-(2 ^ 23)) (min (2 ^ 23 - 1) m)
  (c / 16, (c % 16).toNat)

/-- Bins of a table. -/
abbrev CoderTable.n (t : CoderTable) : Nat := t.bins

/-- cdf[s] of a static table. -/
def CoderTable.cdf (t : CoderTable) (s : Nat) : Nat := leAt t.body (2 * s) 2

/-- cdf[s] of subtable sub[k][p] of a parametric table (R607). -/
def CoderTable.sub (t : CoderTable) (k p s : Nat) : Nat := leAt t.body (4 + (k * 16 + p) * 2 * t.bins + 2 * s) 2

/-- scale_exp of a parametric table. -/
def CoderTable.scaleExp (t : CoderTable) : Int := sgn 8 (t.body.getD 0 0)
/-- centre of a parametric table. -/
def CoderTable.centre (t : CoderTable) : Nat := t.body.getD 1 0

/-- The table of a partition with an id and, by `parametric`, of the right kind (R594). -/
def PartTables.coderTable (t : PartTables) (id : Nat) (parametric : Bool) : Option CoderTable :=
  t.coder.find? fun x => x.id == id && (x.kind != 0) == parametric

/-- A distribution ready for coding: its cumulative frequencies and bins, and the identity of its record (R614). -/
structure Dist where
  cdf : Nat → Nat
  bins : Nat
  ident : Nat × Nat × Nat
  mint : Int := 0
  centre : Int := 0

/-- The distribution of a static record: none where R594 or R606 stops the command; an encoder's symbol must be in the table. -/
def staticDist (t : PartTables) (rec : Nat) (enc : Bool) : Option Dist :=
  if bitsOf rec 8 8 != 0 || bitsOf rec 28 4 != 0 then none
  else match t.coderTable (bitsOf rec 16 12) false with
    | some x => if enc && x.bins ≤ rec % 256 then none else some { cdf := x.cdf, bins := x.bins, ident := (x.id, 0, 0) }
    | none => none

/-- The distribution of a parametric record's mean and scale under a table (R609, R610). -/
def paramDist (x : CoderTable) (mu sigma : Nat) : Dist :=
  let (mint, p) := meanParts mu
  let k := scaleIndex sigma x.scaleExp
  { cdf := x.sub k p, bins := x.bins, ident := (x.id, k, p), mint := mint, centre := x.centre }

/-- The distribution that an identity names, as run-ahead guesses it (R615). -/
def identDist (t : PartTables) (id : Nat × Nat × Nat) : Option Dist :=
  match t.coder.find? fun x => x.id == id.1 with
  | some x => some { cdf := if x.kind == 0 then x.cdf else x.sub id.2.1 id.2.2, bins := x.bins, ident := id }
  | none => none

/-! ## The range coder (R596, R597) -/

/-- shift_low: the session after it and the bytes emitted. -/
def Session.shiftLow (s : Session) : Session × List Nat :=
  let (s1, out) :=
    if s.low < 0xFF000000 || 2 ^ 32 ≤ s.low then
      let carry := s.low / 2 ^ 32
      ({ s with cache := s.low / 2 ^ 24 % 256, cached := true, pending := 0 },
        (if s.cached then [(s.cache + carry) % 256] else []) ++ List.replicate s.pending ((0xFF + carry) % 256))
    else ({ s with pending := s.pending + 1 }, [])
  ({ s1 with low := s.low % 2 ^ 24 * 256 }, out)

/-- The renormalisation of an encoder. -/
def Session.renorm : Nat → Session → Session × List Nat
  | 0, s => (s, [])
  | n + 1, s =>
    if s.range < 2 ^ 24 then
      let (s1, o) := { s with range := s.range * 256 }.shiftLow
      let (s2, o2) := Session.renorm n s1
      (s2, o ++ o2)
    else (s, [])

/-- The range of symbol `sym` within r x 65536. -/
def symRange (range r : Nat) (d : Dist) (sym : Nat) : Nat :=
  if sym + 1 == d.bins then range - r * d.cdf sym else r * (d.cdf (sym + 1) - d.cdf sym)

/-- encode (R596): the session after it and the bytes emitted. -/
def Session.encode (s : Session) (d : Dist) (sym : Nat) : Session × List Nat :=
  let r := s.range / 2 ^ 16
  Session.renorm 4 { s with low := s.low + r * d.cdf sym, range := symRange s.range r d sym }

/-- enc_flush (R596): the bytes emitted. -/
def Session.flush (s : Session) : List Nat :=
  let carry := s.low / 2 ^ 32
  (if s.cached then [(s.cache + carry) % 256] else []) ++ List.replicate s.pending ((0xFF + carry) % 256) ++
    [s.low / 2 ^ 24 % 256, s.low / 2 ^ 16 % 256, s.low / 2 ^ 8 % 256, s.low % 256]

/-- The decoder's renormalisation over a byte reader: code, range, position; or the code of a byte that cannot be read. -/
def decRenorm (rd : Nat → Except Nat Nat) : Nat → Nat × Nat × Nat → Except Nat (Nat × Nat × Nat)
  | 0, x => .ok x
  | n + 1, (code, range, pos) =>
    if range < 2 ^ 24 then
      match rd pos with
      | .ok b => decRenorm rd n ((code * 256 + b) % 2 ^ 32, range * 256, pos + 1)
      | .error c => .error c
    else .ok (code, range, pos)

/-- The largest symbol whose cumulative frequency is at most `q`. -/
def symbolOf (d : Dist) (q : Nat) : Nat := ((List.range d.bins).filter fun s => d.cdf s ≤ q).foldl max 0

/-- decode (R597): the symbol and the state after it. -/
def decodeSym (rd : Nat → Except Nat Nat) (d : Dist) (code range pos : Nat) : Except Nat (Nat × Nat × Nat × Nat) :=
  let r := range / 2 ^ 16
  let s := symbolOf d (code / r)
  match decRenorm rd 4 ((code + 2 ^ 32 - r * d.cdf s % 2 ^ 32) % 2 ^ 32, symRange range r d s, pos) with
  | .ok x => .ok (s, x)
  | .error c => .error c

/-! ## Commands (R586 to R592) -/

/-- Session `s` of a unit. -/
def CoderUnit.ses (x : CoderUnit) (s : Nat) : Session := x.sess.getD s {}

/-- Change session `s` of a unit. -/
def CoderUnit.modSes (x : CoderUnit) (s : Nat) (f : Session → Session) : CoderUnit := { x with sess := x.sess.modify s f }

/-- The session number of a command. -/
def UnitCmd.sesNo (u : UnitCmd) : Nat := bitsOf (u.byte 4) 0 3

/-- The command is for coder unit `x`. -/
def forCu (x : Nat) (u : UnitCmd) : Bool := u.unit == 0x10 + x

/-- Bytes of a command beyond 8 that it names; every other one is reserved (R591, R622, R624). -/
def cuUsed (op : Nat) : List (Nat × Nat) :=
  match op with
  | 0x03 => [(8, 19)] | 0x04 => [(8, 19)] | 0x05 => [(8, 21), (24, 31)] | 0x07 => [(8, 19)] | 0x08 => [(8, 19), (24, 31)]
  | 0x09 => [(8, 21), (24, 31)] | 0x10 => [(8, 35)] | 0x11 => [(8, 19), (24, 39)] | _ => []

/-- The address fields of a command. -/
def cuAddrs (op : Nat) : List Nat :=
  match op with
  | 0x03 => [8] | 0x04 => [8] | 0x05 => [8, 24] | 0x07 => [8] | 0x08 => [8, 24] | 0x09 => [8, 24] | 0x10 => [8, 16, 24] | 0x11 => [8, 32]
  | _ => []

/-- Ownership and generation (R586 to R588). -/
def CoderUnit.ownCode (x : CoderUnit) (u : UnitCmd) : Nat :=
  match x.owner with
  | none => cBOUNDS
  | some k => if k != u.core then cPERM else chk cGENSTALE (u.le 6 2 == x.gen)

/-- The session state a command needs (R590). -/
def CoderUnit.stateCode (x : CoderUnit) (u : UnitCmd) : Nat :=
  let st := (x.ses u.sesNo).state
  match u.op with
  | 4 => chk cBUSY (st == .enc) | 5 => chk cBUSY (st == .enc) | 6 => chk cBUSY (st == .enc)
  | 8 => chk cBUSY (st == .dec) | 9 => chk cBUSY (st == .dec) | 10 => chk cBUSY (st == .dec)
  | _ => cOK

/-- The ranges a command may read and write; those of the session's own buffer by its state (R592). -/
def CoderUnit.ranges (x : CoderUnit) (u : UnitCmd) : List (Nat × Nat) :=
  let s := x.ses u.sesNo
  let a := u.le 8 8
  let b := u.le 24 8
  let n := u.le 16 4
  let out := if s.state == .enc then [(s.addr + s.pos, s.len - s.pos)] else []
  let src := if s.state == .dec then [(s.addr, s.len)] else []
  match u.op with
  | 3 => [(a, n)]
  | 4 => (a, 4 * n) :: out
  | 5 => (a, 12 * n) :: (out ++ if b == 0 then [] else [(b, 4 * n)])
  | 6 => out
  | 7 => [(a, n)]
  | 8 => (a, 4 * n) :: (src ++ [(b, n)])
  | 9 => (a, 8 * n) :: (src ++ [(b, 4 * n)])
  | 0x10 => [(a, 24), (u.le 16 8, 16 * u.byte 5), (b, u.le 32 4)]
  | 0x11 => [(a, n), (u.le 32 8, 264)]
  | _ => []

/-- The checks of a command at acceptance but for the session state, in order (R592). -/
def Chip.cuCheck (ch : Chip) (x : Nat) (u : UnitCmd) : Nat :=
  let cu := ch.cu x
  let p := ch.partNo u.core
  let op := u.op
  let n := u.le 16 4
  let used := fun i => (cuUsed op).any fun r => r.1 ≤ i && i ≤ r.2
  let clean := ((List.range 56).map fun i => i + 8).all fun i => used i || u.byte i == 0
  let b5 := u.byte 5
  firstCode [
    chk cBOUNDS (u.flagsOk && clean && bitsOf (u.byte 4) 3 5 == 0 && (cuAddrs op).all (fun o => u.le o 8 < 2 ^ 40) &&
      (if op == 7 then b5 < 32 && !(17 ≤ b5 && b5 ≤ 30) else op == 0x10 || b5 == 0)),
    chk cPERM (op != 7 || b5 == 0 || b5 == 31 || (ch.part p).expert),
    cu.ownCode u,
    chk cALIGN ((cuAddrs op).all fun o => u.le o 8 % 64 == 0),
    chk cBOUNDS (match op with
      | 3 => n % 64 == 0 && 64 ≤ n && n ≤ 16777152
      | 7 => 4 ≤ n && n ≤ 16777215
      | 0x10 => 1 ≤ b5 && b5 ≤ 32
      | 0x11 => true
      | _ => !(op == 4 || op == 5 || op == 8 || op == 9) || (1 ≤ n && n ≤ 16777215)),
    ch.rangesCode p (cu.ranges u) ]

/-- Coder unit `x` accepts its oldest command, when its operation is `op` (R592, R593). -/
def cuAccept (c x op : Nat) (s : State) : Host.Outcome State Fault Refusal :=
  onChip c (fun ch => ch.accept (forCu x) op fun u a =>
    match firstCode [a.cuCheck x u, if (a.cu x).q.isEmpty then (a.cu x).stateCode u else cOK] with
    | 0 => a.modCu x fun y => { y with q := y.q ++ [u] }
    | code => a.refuse u code) s

/-- CLAIM (R587). -/
def execCuClaim (c x : Nat) (s : State) : Host.Outcome State Fault Refusal :=
  onChip c (fun ch => ch.accept (forCu x) 1 fun u a =>
    match firstCode [chk cBOUNDS (u.flagsOk && u.zero 4 63), chk cBUSY ((a.cu x).owner == none)] with
    | 0 => (a.modCu x fun y => { y with owner := some u.core }).complete u cOK (a.cu x).gen
    | code => a.refuse u code) s

/-- RELEASE. -/
def execCuRelease (c x : Nat) (s : State) := cuAccept c x 0x02 s
/-- ENC_OPEN. -/
def execEncOpen (c x : Nat) (s : State) := cuAccept c x 0x03 s
/-- ENC_STATIC. -/
def execEncStatic (c x : Nat) (s : State) := cuAccept c x 0x04 s
/-- ENC_PARAM. -/
def execEncParam (c x : Nat) (s : State) := cuAccept c x 0x05 s
/-- ENC_FLUSH. -/
def execEncFlush (c x : Nat) (s : State) := cuAccept c x 0x06 s
/-- DEC_OPEN. -/
def execDecOpen (c x : Nat) (s : State) := cuAccept c x 0x07 s
/-- DEC_STATIC. -/
def execDecStatic (c x : Nat) (s : State) := cuAccept c x 0x08 s
/-- DEC_PARAM. -/
def execDecParam (c x : Nat) (s : State) := cuAccept c x 0x09 s
/-- DEC_CLOSE. -/
def execDecClose (c x : Nat) (s : State) := cuAccept c x 0x0A s
/-- SEAL. -/
def execSeal (c x : Nat) (s : State) := cuAccept c x 0x10 s
/-- CHECK. -/
def execCheck (c x : Nat) (s : State) := cuAccept c x 0x11 s

/-! ## Running session commands (R594 to R612) -/

/-- What a run of records leaves: the session, its output bytes, other bytes written, the symbols, and the stop as (code, index). -/
structure Run where
  ses : Session
  out : List Nat := []
  side : List Nat := []
  symbols : Nat := 0
  hits : Nat := 0
  rolls : Nat := 0
  stop : Option (Nat × Nat) := none

/-- One record encoded: the bytes fit, or the session stops at the capacity (R603). -/
def Run.enc (r : Run) (i : Nat) (d : Dist) (sym : Nat) (side : List Nat) (clampedBy : Nat) : Run :=
  let (s1, o) := r.ses.encode d sym
  let room := r.ses.len - r.ses.pos
  if room < o.length then
    { r with ses := { s1 with pos := r.ses.len, state := .error, err := cBOUNDS }, out := r.out ++ o.take room, stop := some (cBOUNDS, i) }
  else
    { r with ses := { s1 with pos := r.ses.pos + o.length, clamped := (r.ses.clamped + clampedBy) % 2 ^ 32, last := some d.ident }
             out := r.out ++ o, side := r.side ++ side, symbols := r.symbols + 1 }

/-- A record that stops its command (R594). -/
def Run.bad (r : Run) (i code : Nat) : Run := { r with ses := { r.ses with state := .error, err := code }, stop := some (code, i) }

/-- Signed clamp to the symbols of a table. -/
def clampSym (v : Int) (bins : Nat) : Nat := (max 0 (min ((bins : Int) - 1) v)).toNat

/-- Encode the records of ENC_STATIC or ENC_PARAM from index `i` (R601, R611). -/
def Run.encAll (t : PartTables) (param : Bool) (tid : Nat) (recs : List Nat) : Nat → Nat → Run → Run
  | 0, _, r => r
  | n + 1, i, r =>
    let r1 :=
      if param then
        match t.coderTable tid true with
        | none => r.bad i cBOUNDS
        | some x =>
          let d := paramDist x (leAt recs (12 * i + 4) 4) (leAt recs (12 * i + 8) 4)
          let v : Int := sgn 32 (leAt recs (12 * i) 4) - d.mint + d.centre
          let sym := clampSym v d.bins
          r.enc i d sym (leBytes 4 (wrapInt 32 ((sym : Int) + d.mint - d.centre))) (b2n ((sym : Int) != v))
      else
        let w := leAt recs (4 * i) 4
        match staticDist t w true with
        | none => r.bad i cBOUNDS
        | some d => r.enc i d (w % 256) [] 0
    if r1.stop.isSome then r1 else Run.encAll t param tid recs n (i + 1) r1

/-- One record decoded: a speculated symbol of the same identity is taken, any other is rolled back (R617). -/
def Run.dec (rd : Nat → Except Nat Nat) (r : Run) (i : Nat) (d : Dist) (put : Nat → List Nat) : Run :=
  let fresh := fun (q : Run) =>
    match decodeSym rd d q.ses.code q.ses.range q.ses.pos with
    | .error e => q.bad i e
    | .ok (sym, code, range, pos) =>
      { q with ses := { q.ses with code := code, range := range, pos := pos, last := some d.ident }, side := q.side ++ put sym, symbols := q.symbols + 1 }
  match r.ses.spec with
  | [] => fresh r
  | e :: rest =>
    if e.ident == d.ident then
      { r with ses := { r.ses with code := e.code, range := e.range, pos := e.pos, spec := rest, last := some d.ident }
               side := r.side ++ put e.sym, symbols := r.symbols + 1, hits := r.hits + 1 }
    else fresh { r with ses := { r.ses with spec := [] }, rolls := r.rolls + 1 }

/-- Decode the records of DEC_STATIC or DEC_PARAM from index `i` (R612, R617). -/
def Run.decAll (t : PartTables) (rd : Nat → Except Nat Nat) (param : Bool) (tid : Nat) (recs : List Nat) : Nat → Nat → Run → Run
  | 0, _, r => r
  | n + 1, i, r =>
    let r1 :=
      if param then
        match t.coderTable tid true with
        | none => r.bad i cBOUNDS
        | some x =>
          let d := paramDist x (leAt recs (8 * i) 4) (leAt recs (8 * i + 4) 4)
          r.dec rd i d fun s => leBytes 4 (wrapInt 32 ((s : Int) + d.mint - d.centre))
      else match staticDist t (leAt recs (4 * i) 4) false with
        | none => r.bad i cBOUNDS
        | some d => r.dec rd i d fun s => [s]
    if r1.stop.isSome then r1 else Run.decAll t rd param tid recs n (i + 1) r1

/-- Answers for a byte or piece at `a` from answers that cover it. -/
def farAt (far : FarAns) (a : Nat) : FarAns :=
  match far.find? fun e => e.1 ≤ a && a < e.1 + max 1 e.2.2.length with
  | some e => [(a, e.2.1, e.2.2.drop (a - e.1))]
  | none => []

/-- next_byte of a session: 0 at or beyond its length, else the byte or the code of reading it (R597, R604). -/
def Chip.nextByte (ch : Chip) (p : Nat) (far : FarAns) (addr len pos : Nat) : Except Nat Nat :=
  if len ≤ pos then .ok 0
  else
    let r := ch.fetchPiece p (farAt far (addr + pos)) (addr + pos) 1
    if r.2.1 == cOK then .ok (r.2.2.getD 0 0) else .error r.2.1

/-- What reading the bytes of a substream from position `i` up to `j` does beside giving them: its tokens, counts and errors (R81, R566). -/
def Chip.substream (ch : Chip) (u : UnitCmd) (p : Nat) (far : FarAns) (s : Session) (i j : Nat) : Chip :=
  let n := min j s.len - min i s.len
  (ch.ureadFor u p ((pieces (s.addr + i) n).flatMap fun q => farAt far q.1) (s.addr + i) n).1

/-- Free bytes to the end of the line of an output position (R601). -/
def Chip.tailFree (ch : Chip) (p : Nat) (far : FarAns) (addr pos : Nat) : Chip :=
  let n := (64 - pos % 64) % 64
  if n = 0 then ch
  else
    let (d, a) := ch.draw
    (a.uwrite p far (addr + pos) ((List.range n).map fun i => (Config.freeByte d i).toNat)).1

/-- What the run of a command leaves: the chip, what becomes of the unit, the code and VALUE. -/
structure CuEnd where
  chip : Chip
  unit : CoderUnit → CoderUnit := id
  code : Nat := 0
  value : Nat := 0

/-- The head of the queue completes. -/
def CuEnd.done (e : CuEnd) (x : Nat) (u : UnitCmd) : Chip :=
  (e.chip.modCu x fun y => { e.unit y with q := y.q.drop 1 }).complete u e.code e.value

/-- ENC_STATIC and ENC_PARAM run, as far as the first `most` records (R594, R596, R601, R603, R611). -/
def Chip.encRun (ch : Chip) (x p : Nat) (far : FarAns) (u : UnitCmd) (param : Bool) (most : Nat) : CuEnd :=
  let ses := (ch.cu x).ses u.sesNo
  let size := if param then 12 else 4
  let n := min most (u.le 16 4)
  let (a, rc, recs) := ch.ureadFor u p far (u.le 8 8) (size * n)
  let whole := if rc == cOK then n else recs.length / size
  let r := Run.encAll (ch.tablesOf u.core) param (u.le 20 2) recs whole 0 { ses := ses }
  let r1 := if r.stop.isNone && rc != cOK then r.bad whole rc else r
  let (b, wc) := a.uwriteFor u p far (ses.addr + ses.pos) r1.out
  let (b1, sc) := if param && u.le 24 8 != 0 then b.uwriteFor u p far (u.le 24 8) r1.side else (b, cOK)
  let wcode := firstCode [wc, sc]
  let s1 := if wcode != cOK then { r1.ses with state := .error, err := wcode } else r1.ses
  let (code, v) := match r1.stop with
    | some (c, i) => (c, if c == cBOUNDS then i else 0)
    | none => (wcode, if wcode == cOK then r1.ses.pos else 0)
  { chip := b1.tailFree p far ses.addr r1.ses.pos, code := code, value := v,
    unit := fun y => { y.modSes u.sesNo (fun _ => s1) with
      symbols := (y.symbols + r1.symbols) % 2 ^ 64, bytesOut := (y.bytesOut + r1.out.length) % 2 ^ 64 } }

/-- ENC_FLUSH runs (R602, R603). -/
def Chip.flushRun (ch : Chip) (x p : Nat) (far : FarAns) (u : UnitCmd) : CuEnd :=
  let ses := (ch.cu x).ses u.sesNo
  let out := ses.flush
  let room := ses.len - ses.pos
  if room < out.length then
    { chip := (ch.uwriteFor u p far (ses.addr + ses.pos) (out.take room)).1, code := cBOUNDS,
      unit := fun y => { y.modSes u.sesNo (fun s => { s with pos := s.len, state := .error, err := cBOUNDS }) with bytesOut := (y.bytesOut + room) % 2 ^ 64 } }
  else
    let fin := ses.pos + out.length
    let (a, wc) := ch.uwriteFor u p far (ses.addr + ses.pos) (out ++ List.replicate ((64 - fin % 64) % 64) 0)
    { chip := a, code := wc, value := if wc == cOK then fin else 0,
      unit := fun y => { y.modSes u.sesNo (fun s => if wc == cOK then { ({} : Session) with pos := fin, clamped := s.clamped }
        else { s with state := .error, err := wc }) with bytesOut := (y.bytesOut + out.length) % 2 ^ 64 } }

/-- DEC_OPEN runs (R597, R604, R613). -/
def Chip.decOpenRun (ch : Chip) (p : Nat) (far : FarAns) (u : UnitCmd) : CuEnd :=
  let a := u.le 8 8
  let b5 := u.byte 5
  let depth := if b5 == 0 then 8 else if b5 == 31 then 0 else b5
  let (ch1, rc, b) := ch.ureadFor u p far a 4
  let s : Session := { state := .dec, range := 0xFFFFFFFF, code := beNat b, pos := 4, addr := a, len := u.le 16 4, depth := depth }
  { chip := ch1, code := rc,
    unit := fun y => { y.modSes u.sesNo (fun _ => if rc == cOK then s else { s with state := .error, err := rc }) with
      bytesIn := if rc == cOK then (y.bytesIn + 4) % 2 ^ 64 else y.bytesIn } }

/-- DEC_STATIC and DEC_PARAM run, as far as the first `most` records (R594, R597, R612, R615, R617). -/
def Chip.decRun (ch : Chip) (x p : Nat) (far : FarAns) (u : UnitCmd) (param : Bool) (most : Nat) : CuEnd :=
  let ses := (ch.cu x).ses u.sesNo
  let size := if param then 8 else 4
  let n := min most (u.le 16 4)
  let (a, rc, recs) := ch.ureadFor u p far (u.le 8 8) (size * n)
  let whole := if rc == cOK then n else recs.length / size
  let r := Run.decAll (ch.tablesOf u.core) (a.nextByte p far ses.addr ses.len) param (u.le 20 2) recs whole 0 { ses := ses }
  let r1 := if r.stop.isNone && rc != cOK then r.bad whole rc else r
  let unread := match r.stop with
    | some (c, _) => b2n (c != cBOUNDS)
    | none => 0
  let (b, wc) := (a.substream u p far ses ses.pos (r1.ses.pos + unread)).uwriteFor u p far (u.le 24 8) r1.side
  let s1 := if wc != cOK then { r1.ses with state := .error, err := wc } else r1.ses
  let (code, v) := match r1.stop with
    | some (c, i) => (c, if c == cBOUNDS then i else 0)
    | none => (wc, if wc == cOK then r1.ses.pos else 0)
  { chip := b, code := code, value := v,
    unit := fun y => { y.modSes u.sesNo (fun _ => s1) with
      symbols := (y.symbols + r1.symbols) % 2 ^ 64, bytesIn := (y.bytesIn + (r1.ses.pos - ses.pos)) % 2 ^ 64
      raHits := (y.raHits + r1.hits) % 2 ^ 64, raRollbacks := (y.raRollbacks + r1.rolls) % 2 ^ 64
      speculating := if code == cOK && y.q.length ≤ 1 && !ch.arriving.any (forCu x) then some u.sesNo else none } }

/-! ## Sealing and checking (R620 to R625) -/

/-- CHIP.ARITH_CONTRACT's revision. -/
abbrev contractRev : Nat := 0x0003

/-- A frame from its template, the lengths of its substreams and their bytes (R620 to R622). -/
def sealedFrame (t lens body : List Nat) : List Nat :=
  let f := [0x41, 0x4D, 0x5A, 0x46, 1, t.getD 5 0] ++ leBytes 2 contractRev ++ [t.getD 8 0, lens.length, 0, 0] ++ (t.drop 12).take 12 ++
    (lens.map (leBytes 4)).flatten ++ body
  f ++ leBytes 4 (crc32c f)

/-- Bytes on this chip that the spec leaves undefined from an address on (DESIGN CHOICE, log entry 23). -/
def Chip.undefine (ch : Chip) (a n : Nat) : Chip :=
  match ch.place a n with
  | some pl => if pl.isLocal then ch.storeFree a n else ch
  | none => ch

/-- SEAL runs (R622, R623); its own refusals are violations, as those of CHECK are (R760; DEDUCED, log entry 65). -/
def Chip.sealRun (ch : Chip) (p : Nat) (far : FarAns) (u : UnitCmd) : CuEnd :=
  let n := u.byte 5
  let dst := u.le 24 8
  let (a, c1, t) := ch.ureadFor u p far (u.le 8 8) 24
  let (a2, c2, l) := a.ureadFor u p far (u.le 16 8) (16 * n)
  let subs := (List.range n).map fun i => (leAt l (16 * i) 8, leAt l (16 * i + 8) 4)
  let total := 28 + 4 * n + (subs.map fun e => e.2).sum
  let ty := t.getD 8 0
  let own := firstCode [
    chk cBOUNDS (total ≤ u.le 32 4 && subs.all (fun e => 4 ≤ e.2 && e.2 ≤ 16777152) && 1 ≤ ty && ty ≤ 3 && t.getD 5 0 < 2 &&
      (List.range n).all fun i => leAt l (16 * i + 12) 4 == 0),
    a2.rangesCode p subs ]
  if c1 != cOK then { chip := a, code := c1 }
  else if c2 != cOK then { chip := a2, code := c2 }
  else if own != cOK then { chip := a2.refuseCmd u own (subs.headD (0, 0)).1 false, code := own }
  else
    let (b, rc, body) := subs.foldl (fun z e => if z.2.1 != cOK then z else
      let r := z.1.ureadFor u p far e.1 e.2
      (r.1, r.2.1, z.2.2 ++ r.2.2)) (a2, cOK, ([] : List Nat))
    if rc != cOK then { chip := b.undefine dst total, code := rc }
    else
      let (d, wc) := b.uwriteFor u p far dst (sealedFrame t (subs.map fun e => e.2) body)
      if wc == cOK then { chip := d, value := total } else { chip := d.undefine dst total, code := wc }

/-- The bytes of a frame read so far, and up to `upto` but never beyond what is available: the chip, the code, the bytes. -/
def Chip.frameRead (z : Chip × Nat × List Nat) (u : UnitCmd) (p : Nat) (far : FarAns) (upto : Nat) : Chip × Nat × List Nat :=
  let at0 := z.2.2.length
  let r := z.1.ureadFor u p far (u.le 8 8 + at0) (min upto (u.le 16 4) - at0)
  if z.2.1 != cOK then z else (r.1, r.2.1, z.2.2 ++ r.2.2)

/-- The lengths of a frame's substreams (R620). -/
def frameLens (f : List Nat) : List Nat := (List.range (leAt f 9 1)).map fun i => leAt f (24 + 4 * i) 4

/-- The length of a frame (R620). -/
def frameTotal (f : List Nat) : Nat := 28 + 4 * leAt f 9 1 + (frameLens f).sum

/-- The first failing check of the first 24 bytes (R624). -/
def checkHead (f : List Nat) (avail : Nat) : Option (Nat × Nat) :=
  let n := leAt f 9 1
  if f.take 4 != [0x41, 0x4D, 0x5A, 0x46] then some (1, cBOUNDS)
  else if leAt f 4 1 != 1 then some (2, cBOUNDS)
  else if n == 0 || 32 < n || avail < 28 + 4 * n then some (3, cBOUNDS)
  else none

/-- The first failing check of a frame whose head passes: first its lengths, then the whole (R624). -/
def checkLens (f : List Nat) (avail : Nat) : Option (Nat × Nat) :=
  if (frameLens f).any (fun l => l < 4 || 16777152 < l) || avail < frameTotal f then some (3, cBOUNDS) else none

/-- The first failing check of a frame that is there whole (R624). -/
def checkBody (f : List Nat) (want : List Nat) : Option (Nat × Nat) :=
  let total := frameTotal f
  if leAt f (total - 4) 4 != crc32c (f.take (total - 4)) then some (4, cECC)
  else if leAt f 6 2 != contractRev then some (5, cBOUNDS)
  else if (f.drop 16).take 8 != want then some (6, cBOUNDS)
  else if leAt f 8 1 == 0 || 3 < leAt f 8 1 || 1 < leAt f 5 1 || leAt f 10 2 != 0 then some (7, cBOUNDS)
  else none

/-- One stage of CHECK: it reads up to `upto`, then checks; the rest runs where nothing failed (R624). -/
def frameStage (z : Chip × Nat × List Nat) (u : UnitCmd) (p : Nat) (far : FarAns) (upto : Nat) (check : List Nat → Option (Nat × Nat))
    (rest : Chip × Nat × List Nat → CuEnd) : CuEnd :=
  let y := Chip.frameRead z u p far upto
  if y.2.1 != cOK then { chip := y.1, code := y.2.1 }
  else match check y.2.2 with
    | some (reason, code) => { chip := y.1.refuseCmd u code (u.le 8 8) false, code := code, value := reason }
    | none => rest y

/-- What a CHECK that passes writes (R625). -/
def checkResult (f : List Nat) : List Nat :=
  let n := leAt f 9 1
  leBytes 4 (frameTotal f) ++ [n, leAt f 8 1, leAt f 5 1, 0] ++
    ((List.range n).map fun i => leBytes 4 (24 + 4 * n + ((frameLens f).take i).sum) ++ leBytes 4 ((frameLens f).getD i 0)).flatten

/-- CHECK runs: it reads no further than the check that fails (R624, R625). -/
def Chip.checkRun (ch : Chip) (p : Nat) (far : FarAns) (u : UnitCmd) : CuEnd :=
  let avail := u.le 16 4
  frameStage (ch, cOK, []) u p far 24 (checkHead · avail) fun y =>
    frameStage y u p far (24 + 4 * leAt y.2.2 9 1) (checkLens · avail) fun z =>
      frameStage z u p far (frameTotal z.2.2) (checkBody · ((u.bytes.drop 24).take 8)) fun w =>
        let (b, wc) := w.1.uwriteFor u p far (u.le 32 8) (checkResult w.2.2)
        { chip := b, code := wc }

/-- A command of coder unit `x` run as far as its first `most` records (R594 to R625). -/
def Chip.cuRun (ch : Chip) (x p : Nat) (far : FarAns) (u : UnitCmd) (most : Nat) : CuEnd :=
  let cu := ch.cu x
  match u.op with
  | 2 => { chip := ch, unit := fun y => { y with sess := List.replicate 8 {}, owner := none, gen := inc16 y.gen } }
  | 3 => { chip := ch, unit := fun y => y.modSes u.sesNo fun _ => { state := .enc, range := 0xFFFFFFFF, addr := u.le 8 8, len := u.le 16 4 } }
  | 4 => ch.encRun x p far u false most
  | 5 => ch.encRun x p far u true most
  | 6 => ch.flushRun x p far u
  | 7 => ch.decOpenRun p far u
  | 8 => ch.decRun x p far u false most
  | 9 => ch.decRun x p far u true most
  | 0xA =>
    let ses := cu.ses u.sesNo
    { chip := ch, code := if ses.pos == ses.len then cOK else cBOUNDS, value := ses.pos,
      unit := fun y => y.modSes u.sesNo fun _ => { ({} : Session) with pos := ses.pos, clamped := ses.clamped } }
  | 0x10 => ch.sealRun p far u
  | _ => ch.checkRun p far u

/-- The oldest accepted command of coder unit `x` runs and completes; `far` answers its accesses beyond the chip (R593). -/
def execCuCmdComplete (c x : Nat) (far : List (Nat × Nat × List Nat)) (s : State) : Host.Outcome State Fault Refusal :=
  unitOn c (fun ch => ch.workPart (ch.cu x).q (ch.cu x).owner) (fun ch =>
    let cu := ch.cu x
    match cu.q with
    | [] => ch
    | u :: _ =>
      let p := ch.partNo u.core
      match firstCode [cu.ownCode u, cu.stateCode u] with
      | 0 => ch.paced p cu.paid (fun l a => a.modCu x fun y => { y with paid := l }) ((ch.cuRun x p far u (u.le 16 4)).done x u)
      | code => (CuEnd.mk ch id code 0).done x u) s

/-! ## Run-ahead (R613 to R619) -/

/-- Coder unit `x` decodes one symbol ahead in the session that speculates (R615, R616). -/
def execRunaheadSpeculate (c x : Nat) (far : List (Nat × Nat × List Nat)) (s : State) : Host.Outcome State Fault Refusal :=
  unitOn c (fun ch => ch.workPart (ch.cu x).q (ch.cu x).owner) (fun ch =>
    let cu := ch.cu x
    match cu.speculating, cu.q, cu.owner with
    | some n, [], some k =>
      let ses := cu.ses n
      let p := ch.partNo k
      (match ses.state, ses.last with
      | .dec, some id =>
        if ses.depth ≤ ses.spec.length then ch
        else match identDist (ch.tablesOf k) id with
          | none => ch
          | some d =>
            let (cd, rg, ps) := match ses.spec.getLast? with
              | some e => (e.code, e.range, e.pos)
              | none => (ses.code, ses.range, ses.pos)
            match decodeSym (ch.nextByte p far ses.addr ses.len) d cd rg ps with
            | .ok (sym, code, range, pos) => ch.modCu x fun y => y.modSes n fun z =>
                { z with spec := z.spec ++ [{ ident := id, sym := sym, code := code, range := range, pos := pos }] }
            | .error _ => ch
      | _, _ => ch)
    | _, _, _ => ch) s

/-! ## Ticks, reclaim, overlays (R618, R627 to R630) -/

/-- Every session closed, speculation discarded (R627). -/
def CoderUnit.closeAll (x : CoderUnit) : CoderUnit := { x with sess := List.replicate 8 {}, speculating := none, paid := [] }

/-- The running command of coder unit `x` stops at a symbol or byte boundary that the spec does not fix: the records that it has coded are a
free number, the bytes of a flush, a SEAL or a CHECK are of a free number of 64-byte pieces (DESIGN CHOICE, log entry 62). -/
def Chip.cuCut (ch : Chip) (x : Nat) : Chip :=
  match (ch.cu x).q with
  | [] => ch
  | u :: _ =>
    let p := ch.partNo u.core
    let (i, a) := ch.draw
    let n := (Config.freeValue i).toNat
    match u.op with
    | 2 => a
    | 3 => a
    | 6 =>
      let ses := (ch.cu x).ses u.sesNo
      let out := ses.flush.take (ses.len - ses.pos)
      (a.uwrite p [] (ses.addr + ses.pos) (out.take (n % (out.length + 1)))).1
    | 0xA => a
    | 0x10 => a.undefine (u.le 24 8) (n % (u.le 32 4 + 1))
    | 0x11 => a
    | _ =>
      let e := a.cuRun x p [] u (n % (u.le 16 4 + 1))
      e.chip.modCu x e.unit

/-- A tick stop on coder unit `x` (R628). -/
def Chip.stopCu (ch : Chip) (x : Nat) : Chip :=
  (ch.cu x).q.foldl (fun a u => a.complete u cOVERRUN 0) ((ch.cuCut x).modCu x fun y => { y.closeAll with q := [] })

/-- The steward reclaims coder unit `x` from its owner (R629). -/
def Chip.reclaimCu (ch : Chip) (x : Nat) : Chip :=
  let q := (ch.cu x).q
  let ch1 := (ch.cuCut x).modCu x fun y => { y.closeAll with q := [], owner := none, gen := inc16 y.gen }
  ((List.range q.length).zip q).foldl (fun a e => a.complete e.2 (if e.1 == 0 then cFENCED else cGENSTALE) 0) ch1

/-- An overlay frees a coder unit (R630). -/
def CoderUnit.overlayFree (x : CoderUnit) : CoderUnit := { x.closeAll with q := [], owner := none, gen := inc16 x.gen }

end Sys2Proof.Machine
end

