-- ==== Sys2Proof/Machine/Tree.lean ====
section
/-! DEFINITION. The tree engines: model images, LOAD, SCORE, GATHER, ownership (R636 to R667). -/
namespace Sys2Proof.Machine

/-! ## Model images (R636 to R641) -/

/-- The header of an image. -/
structure TreeHead where
  ok : Bool
  classes : Nat
  link : Nat
  trees : Nat
  nodes : Nat
  features : Nat
  shards : Nat
  base : List Nat

/-- Read a header and check its fields and reserved bytes (R636, R641). -/
def TreeHead.of (b : List Nat) : TreeHead :=
  let le := leAt b
  let classes := le 6 1
  { classes := classes, link := le 7 1, trees := le 8 4, nodes := le 12 4, features := le 16 2, shards := le 19 1,
    base := (List.range 16).map fun i => le (32 + 4 * i) 4,
    ok := b.take 4 == [0x41, 0x4D, 0x5A, 0x54] && le 4 2 == 1 && 1 ≤ classes && classes ≤ 16 && le 7 1 ≤ 3 && (le 7 1 != 2 || 2 ≤ classes) &&
      1 ≤ le 8 4 && le 8 4 ≤ 65535 && 1 ≤ le 12 4 && le 12 4 ≤ 16777215 && 1 ≤ le 16 2 && le 16 2 ≤ 4096 &&
      1 ≤ le 19 1 && le 19 1 ≤ 8 && le 18 1 < le 19 1 && le 20 4 == 0 && leNat (sliceB b 96 32) == 0 &&
      (List.range 16).all fun i => i < classes || le (32 + 4 * i) 4 == 0 }

/-- The offset of the nodes (R638). -/
def TreeHead.nodeBase (h : TreeHead) : Nat := ceilDiv (128 + 8 * h.trees) 64 * 64

/-- Bytes of the image. -/
def TreeHead.size (h : TreeHead) : Nat := h.nodeBase + 16 * h.nodes

/-- A tree table entry: root, class, and whether it is well-formed (R637). -/
def treeEntry (h : TreeHead) (b : List Nat) : Nat × Nat × Bool :=
  (leAt b 0 3, leAt b 4 1, leAt b 3 1 == 0 && leAt b 5 3 == 0 && leAt b 4 1 < h.classes && leAt b 0 3 < h.nodes)

/-- A node (R638). -/
structure TreeNode where
  feature : Nat
  isLeaf : Bool
  right : Bool
  cmp : Nat
  thr : Nat
  leaf : Nat
  child : Nat
  ok : Bool

/-- Read node `i` and check it (R638, R641). -/
def TreeNode.of (h : TreeHead) (i : Nat) (b : List Nat) : TreeNode :=
  let le := leAt b
  let fl := le 2 1
  let isLeaf := bitOf fl 0
  let cmp := bitsOf fl 2 2
  { feature := le 0 2 % 4096, isLeaf := isLeaf, right := bitOf fl 1, cmp := cmp, thr := le 4 4, leaf := le 8 4, child := le 12 3,
    ok := le 0 2 < 4096 && fl < 16 && le 3 1 == 0 && le 15 1 == 0 &&
      (if isLeaf then le 0 2 == 0 && le 4 4 == 0 && le 12 3 == 0
       else i < le 12 3 && le 12 3 + 1 < h.nodes && le 0 2 < h.features && cmp != 3 && (cmp == 2 || !isNan32 (le 4 4)) && le 8 4 == 0) }

/-- The word is missing under a comparison (R639). -/
def TreeNode.missing (n : TreeNode) (x : Nat) : Bool := if n.cmp == 2 then x == 0x80000000 else isNan32 x

/-- A sample goes left (R639, R640). -/
def TreeNode.left (n : TreeNode) (x : Nat) : Bool :=
  if n.missing x then !n.right
  else match n.cmp with
    | 0 => lt32 x n.thr
    | 1 => !lt32 n.thr x
    | _ => decide (sgn 32 x < sgn 32 n.thr)

/-- Deepest depth known per node index: raise the depth of `i` to `d`. -/
def depthPut (l : List (Nat × Nat)) (i d : Nat) : List (Nat × Nat) := Sparse.put l i (max (Sparse.get l i) d)

/-- The first failing node of an image, in ascending index; `depths` holds one more than each node's depth (R641, R644). -/
def firstBadNode (h : TreeHead) (node : Nat → List Nat) : Nat → Nat → List (Nat × Nat) → Option Nat
  | 0, _, _ => none
  | n + 1, i, depths =>
    let x := TreeNode.of h i (node i)
    let d := Sparse.get depths i
    if !x.ok || (!x.isLeaf && 20 < d) then some i
    else firstBadNode h node n (i + 1)
      (if x.isLeaf || d == 0 then depths else depthPut (depthPut depths x.child (d + 1)) (x.child + 1) (d + 1))

/-- The check of a whole image: none when well-formed, else VALUE of R644. -/
def imageCheck (b : List Nat) : Option Nat :=
  let h := TreeHead.of (b.take 128)
  if !h.ok || b.length < h.size then some 0xFFFFFFFF
  else
    let es := (List.range h.trees).map fun t => treeEntry h (sliceB b (128 + 8 * t) 8)
    if es.any (fun e => !e.2.2) then some 0xFFFFFFFF
    else firstBadNode h (fun i => sliceB b (h.nodeBase + 16 * i) 16) h.nodes 0 (es.foldl (fun l e => depthPut l e.1 1) [])

/-! ## Commands (R642 to R646) -/

/-- The command is for tree engine `x`. -/
def forTe (x : Nat) (u : UnitCmd) : Bool := u.unit == 0x18 + x

/-- Ownership and generation (R642). -/
def TreeEngine.ownCode (x : TreeEngine) (u : UnitCmd) : Nat :=
  match x.owner with
  | none => cBOUNDS
  | some k => if k != u.core then cPERM else chk cGENSTALE (u.le 6 2 == x.gen)

/-- STREAMED. -/
def UnitCmd.streamed (u : UnitCmd) : Bool := bitOf (u.byte 4) 0

/-- `n` bytes of the model of a command at an offset: the chip, the code, the bytes. -/
def Chip.modelBytes (ch : Chip) (x p : Nat) (u : UnitCmd) (off n : Nat) : Chip × Nat × List Nat :=
  if u.streamed then ch.ureadFor u p [] (u.le 8 8 + off) n
  else (ch, cOK, Memory.bytes (ch.te x).store (u.le 8 8 + off) n)

/-- The range of a command's model of `n` bytes, in the tree store or in DRAM: the code (R645). -/
def Chip.modelRange (ch : Chip) (p : Nat) (u : UnitCmd) (n : Nat) : Nat :=
  if u.streamed then firstCode [ch.rangesCode p [(u.le 8 8, n)], chk cBOUNDS (u.le 8 8 + n ≤ ch.variant.dramBytes)]
  else chk cBOUNDS (u.le 8 8 + n ≤ 0x800000)

/-- The list entries of a GATHER (R645). -/
def UnitCmd.partials (u : UnitCmd) (list : List Nat) : List Nat := (List.range (u.byte 5)).map fun e => leAt list (8 * e) 8

/-- Checks 6 and 7 of R592 that need the model's header `h`: E or fstride, then every range that the command reads or writes, with the partial
arrays where GATHER's `list` is known (R641, R645, R646, R658). -/
def Chip.teRanges (ch : Chip) (p : Nat) (u : UnitCmd) (h : TreeHead) (list : Option (List Nat)) : Nat :=
  let n := u.le 16 4
  let outs := (u.le 32 8, 4 * h.classes * n)
  if u.op == 5 then firstCode [
    chk cBOUNDS (h.ok && u.byte 5 == h.shards),
    ch.rangesCode p ((u.le 24 8, 8 * u.byte 5) :: outs ::
      match list with
      | some l => (u.partials l).map fun a => (a, 4 * h.classes * n)
      | none => []) ]
  else firstCode [
    chk cBOUNDS (h.ok && 4 * h.features ≤ u.le 20 4),
    ch.modelRange p u h.size,
    ch.rangesCode p ([(u.le 24 8, (n - 1) * u.le 20 4 + 4 * h.features), outs] ++
      if bitOf (u.byte 4) 2 then [(u.le 40 8, 4 * h.trees * n)] else []) ]

/-- GATHER's list where it lies on this chip; nothing is asked beyond the chip before the command runs (DEDUCED, log entry 63). -/
def Chip.nearList (ch : Chip) (p : Nat) (u : UnitCmd) : Option (List Nat) :=
  match ch.fetchLocal p none (u.le 24 8) (8 * u.byte 5) with
  | .ok l => some l
  | .error _ => none

/-- The checks at acceptance that need the model's header; a resident model that an earlier LOAD in the queue may change is checked when
the command runs (R646, R647, R655, R658; DEDUCED, log entry 63). -/
def Chip.teHeadCheck (ch : Chip) (x p : Nat) (u : UnitCmd) : Nat :=
  if !u.streamed && (ch.te x).q.any (fun v => v.op == 3) then cOK
  else
    let b := (ch.modelBytes x p u 0 128).2
    firstCode [ch.modelRange p u 128, b.1, ch.teRanges p u (TreeHead.of b.2) (ch.nearList p u)]

/-- The checks at acceptance, in the order of R592 (R646). A field that the command does not use is not looked at: fstride under GATHER, leaves
without LEAVES (DESIGN CHOICE, log entry 66). -/
def Chip.teCheck (ch : Chip) (x : Nat) (u : UnitCmd) : Nat :=
  let te := ch.te x
  let p := ch.partNo u.core
  let b4 := u.byte 4
  let expert := (ch.part p).expert
  let fields := match u.op with
    | 2 => u.byte 4 == 0 && u.byte 5 == 0 && u.zero 8 63
    | 3 => u.byte 4 == 0 && u.byte 5 == 0 && u.zero 24 63 && u.le 8 8 < 2 ^ 40
    | 4 => b4 < 32 && bitsOf b4 3 2 != 3 && u.zero 48 63 && u.le 8 8 < 2 ^ 40 && u.le 24 8 < 2 ^ 40 && u.le 32 8 < 2 ^ 40 &&
        (!bitOf b4 2 || u.le 40 8 < 2 ^ 40)
    | _ => b4 < 32 && bitsOf b4 3 2 != 3 && !bitOf b4 2 && u.zero 48 63 && u.le 8 8 < 2 ^ 40 && u.le 24 8 < 2 ^ 40 && u.le 32 8 < 2 ^ 40
  let score := u.op == 4 || u.op == 5
  firstCode [
    chk cBOUNDS (u.flagsOk && fields),
    chk cPERM (u.op != 4 || expert || (!bitOf b4 2 && u.byte 5 == 0)),
    te.ownCode u,
    chk cALIGN (match u.op with
      | 3 => u.le 8 8 % 64 == 0 && u.le 20 4 % 64 == 0
      | 4 => (u.streamed || u.le 8 8 % 64 == 0) && u.le 24 8 % 64 == 0 && u.le 32 8 % 64 == 0 && (!bitOf b4 2 || u.le 40 8 % 64 == 0)
      | 5 => (u.streamed || u.le 8 8 % 64 == 0) && u.le 32 8 % 64 == 0
      | _ => true),
    chk cBOUNDS (match u.op with
      | 3 => u.le 20 4 + u.le 16 4 ≤ 0x800000
      | 4 => 1 ≤ u.le 16 4 && u.le 16 4 ≤ 16777215 && u.le 20 4 % 4 == 0
      | 5 => 1 ≤ u.le 16 4 && u.le 16 4 ≤ 16777215 && 2 ≤ u.byte 5 && u.byte 5 ≤ 8
      | _ => true),
    if u.op == 3 then ch.rangesCode p [(u.le 8 8, u.le 16 4)] else cOK,
    if score then ch.teHeadCheck x p u else cOK ]

/-- Tree engine `x` accepts its oldest command, when its operation is `op` (R646, R647). -/
def teAccept (c x op : Nat) (s : State) : Host.Outcome State Fault Refusal :=
  onChip c (fun ch => ch.accept (forTe x) op fun u a =>
    match a.teCheck x u with
    | 0 => a.modTe x fun y => { y with q := y.q ++ [u], since := if y.q.isEmpty then a.time else y.since }
    | code => a.refuse u code) s

/-- CLAIM (R642). -/
def execTeClaim (c x : Nat) (s : State) : Host.Outcome State Fault Refusal :=
  onChip c (fun ch => ch.accept (forTe x) 1 fun u a =>
    match firstCode [chk cBOUNDS (u.flagsOk && u.zero 4 63), chk cBUSY ((a.te x).owner == none)] with
    | 0 => (a.modTe x fun y => { y with owner := some u.core }).complete u cOK (a.te x).gen
    | code => a.refuse u code) s

/-- RELEASE. -/
def execTeRelease (c x : Nat) (s : State) := teAccept c x 0x02 s
/-- LOAD. -/
def execTeLoad (c x : Nat) (s : State) := teAccept c x 0x03 s
/-- SCORE. -/
def execScore (c x : Nat) (s : State) := teAccept c x 0x04 s
/-- GATHER. -/
def execGather (c x : Nat) (s : State) := teAccept c x 0x05 s

/-! ## Scoring (R648 to R659) -/

/-- A walk from node `i` at depth 20 minus the fuel: the chip, nodes visited, the leaf's index and value, or a code (R640, R655). -/
def Chip.walk (x p : Nat) (u : UnitCmd) (h : TreeHead) (feat : Nat → Nat) : Nat → Nat → Nat → Chip → Chip × Nat × Except Nat (Nat × Nat)
  | 0, _, v, ch => (ch, v, .error cBOUNDS)
  | n + 1, i, v, ch =>
    let (a, c, b) := ch.modelBytes x p u (h.nodeBase + 16 * i) 16
    let a1 := if u.streamed && c == cOK then a.modTe x fun y => { y with streamBytes := (y.streamBytes + 16) % 2 ^ 64 } else a
    if c != cOK then (a1, v, .error c)
    else
      let nd := TreeNode.of h i b
      if !nd.ok then (a1, v, .error cBOUNDS)
      else if nd.isLeaf then (a1, v + 1, .ok (i, nd.leaf))
      else Chip.walk x p u h feat n (if nd.left (feat nd.feature) then nd.child else nd.child + 1) (v + 1) a1

/-- What scoring one sample over the trees leaves: partials per class, leaves reached, nodes visited, the code. -/
structure Walked where
  chip : Chip
  sums : List Nat
  leaves : List Nat := []
  visits : Nat := 0
  code : Nat := 0

/-- One sample through every tree, in ascending tree number (R648, R649). -/
def Chip.scoreSample (ch : Chip) (x p : Nat) (u : UnitCmd) (h : TreeHead) (feat : Nat → Nat) : Walked :=
  (List.range h.trees).foldl (fun w t =>
    if w.code != cOK then w else
    let (a, c, b) := w.chip.modelBytes x p u (128 + 8 * t) 8
    let e := treeEntry h b
    if c != cOK then { w with chip := a, code := c }
    else if !e.2.2 then { w with chip := a, code := cBOUNDS }
    else
      let (a1, v, r) := Chip.walk x p u h feat 21 e.1 0 a
      match r with
      | .error code => { w with chip := a1, visits := w.visits + v, code := code }
      | .ok (i, leaf) => { w with chip := a1, visits := w.visits + v, leaves := w.leaves ++ [i], sums := w.sums.modify e.2.1 fun q => add32 q leaf })
    { chip := ch, sums := List.replicate h.classes 0 }

/-- The canonical NaN for a NaN. -/
def canon32 (x : Nat) : Nat := if isNan32 x then nan32 else x

/-- The link function over the sums of a sample (R650). -/
def treeLink (t : PartTables) (h : TreeHead) (raw : Bool) (z : List Nat) : List Nat :=
  if raw then z.map canon32
  else match h.link with
    | 1 => z.map fun v => canon32 (burinEval t.lut ((shippedProgram 0).getD []) v)
    | 2 =>
      let x : RowCmd := ⟨1, 1, 2, false, false, fFP32, fFP32, 1, h.classes, 0, 0, 0, 0, 0, 0, 0⟩
      let b := (rowSoftmax x z fun _ => false).1
      (List.range h.classes).map fun i => leAt b (4 * i) 4
    | 3 => z.map fun v => canon32 (sfuExp v)
    | _ => z.map canon32

/-- The status of a sample's output put into TE.STATUS (R654, R667). -/
def teStatus (st sample : Nat) (y : List Nat) : Nat :=
  if bitOf st 31 || !y.any (fun v => isNan32 v || isInf32 v) then st else 2 ^ 31 + 2 ^ 30 + sample % 2 ^ 24

/-- Samples from `i` on: the chip, the status, the first sample not written and its code (R651, R652, R655, R656). -/
def Chip.teSamples (one : Chip → Nat → Chip × Nat × List Nat × List Nat) (p : Nat) (far : FarAns) (u : UnitCmd) (h : TreeHead) :
    Nat → Nat → Nat → Chip → Chip × Nat × Nat × Nat
  | 0, i, st, ch => (ch, st, i, cOK)
  | n + 1, i, st, ch =>
    let (a, c, y, leaves) := one ch i
    if c != cOK then (a, st, i, c)
    else
      let (b, wc) := a.uwriteFor u p far (u.le 32 8 + 4 * h.classes * i) (y.map (leBytes 4)).flatten
      let (b1, lc) := if leaves.isEmpty then (b, cOK) else b.uwriteFor u p far (u.le 40 8 + 4 * h.trees * i) (leaves.map (leBytes 4)).flatten
      let code := firstCode [wc, lc]
      if code != cOK then (b1, st, i, code) else Chip.teSamples one p far u h n (i + 1) (teStatus st i y) b1

/-- One sample of SCORE: the chip, the code, the outputs, the leaves (R648 to R652, R657). -/
def Chip.scoreOne (x p : Nat) (far : FarAns) (u : UnitCmd) (h : TreeHead) (t : PartTables) (ch : Chip) (i : Nat) : Chip × Nat × List Nat × List Nat :=
  let (a, c, b) := ch.ureadFor u p far (u.le 24 8 + i * u.le 20 4) (4 * h.features)
  if c != cOK then (a, c, [], [])
  else
    let w := a.scoreSample x p u h fun f => leAt b (4 * f) 4
    let a1 := w.chip.modTe x fun y => { y with visits := (y.visits + w.visits) % 2 ^ 64 }
    if w.code != cOK then (a1, w.code, [], [])
    else
      let y := if 1 < h.shards then w.sums.map canon32
        else treeLink t h (bitOf (u.byte 4) 1) ((List.range h.classes).map fun k => add32 (h.base.getD k 0) (w.sums.getD k 0))
      (a1, cOK, y, if bitOf (u.byte 4) 2 then w.leaves else [])

/-- One sample of GATHER (R658). -/
def Chip.gatherOne (p : Nat) (far : FarAns) (u : UnitCmd) (h : TreeHead) (t : PartTables) (list : List Nat) (ch : Chip) (i : Nat) :
    Chip × Nat × List Nat × List Nat :=
  let step := fun (w : Chip × Nat × List Nat) (src : Nat) =>
    if w.2.1 != cOK then w else
    let (a, c, b) := w.1.ureadFor u p far (src + 4 * h.classes * i) (4 * h.classes)
    (a, c, (List.range h.classes).map fun k => add32 (w.2.2.getD k 0) (leAt b (4 * k) 4))
  let (a, c, z) := list.foldl step (ch, cOK, (List.range h.classes).map fun k => h.base.getD k 0)
  if c != cOK then (a, c, [], []) else (a, cOK, treeLink t h (bitOf (u.byte 4) 1) z, [])

/-- What the run of a command leaves: the chip, what becomes of the engine, the code and VALUE. -/
structure TeEnd where
  chip : Chip
  unit : TreeEngine → TreeEngine := id
  code : Nat := 0
  value : Nat := 0

/-- The head of the queue completes. -/
def TeEnd.done (e : TeEnd) (x : Nat) (u : UnitCmd) : Chip :=
  (e.chip.modTe x fun y => { e.unit y with q := y.q.drop 1, since := e.chip.time, paid := [] }).complete u e.code e.value

/-- A SCORE or GATHER that completes with a code before its first sample: no sample is reported (R667). -/
def teNone (ch : Chip) (u : UnitCmd) (code : Nat) : TeEnd :=
  { chip := ch, code := code, unit := fun y => if u.op == 4 || u.op == 5 then { y with status := 0 } else y }

/-- SCORE and GATHER run over their first `most` samples, and end there with `stop` where they have more (R654 to R658). -/
def Chip.scoreRun (ch : Chip) (x p : Nat) (far : FarAns) (u : UnitCmd) (most stop : Nat) : TeEnd :=
  let size := ch.modelRange p u 128
  let (a, hc, hb) := ch.modelBytes x p u 0 128
  let (b, lc, list) := if u.op == 5 then a.ureadFor u p far (u.le 24 8) (8 * u.byte 5) else (a, cOK, [])
  let h := TreeHead.of hb
  let n := u.le 16 4
  if size != cOK then teNone (ch.refuseCmd u size (u.le 8 8) true) u size
  else if hc != cOK then teNone a u hc
  else if lc != cOK then teNone b u lc
  else match b.teRanges p u h (some list) with
    | 0 =>
      let t := ch.tablesOf u.core
      let (d, st, done, code) := Chip.teSamples (if u.op == 4 then Chip.scoreOne x p far u h t else Chip.gatherOne p far u h t (u.partials list))
        p far u h (min most n) 0 0 b
      let rep := reports u (bitsOf (u.byte 4) 3 2)
      { chip := d, code := if code == cOK && most < n then stop else code, value := done,
        unit := fun y => { y with status := if rep then st else 0, samples := (y.samples + done) % 2 ^ 64 } }
    | code => teNone (b.refuseCmd u code (u.le 8 8) true) u code

/-- LOAD runs (R644). -/
def Chip.loadRun (ch : Chip) (p : Nat) (far : FarAns) (u : UnitCmd) : TeEnd :=
  let (a, rc, b) := ch.ureadFor u p far (u.le 8 8) (u.le 16 4)
  let f := fun (y : TreeEngine) => { y with store := Memory.write y.store (u.le 20 4) b }
  if rc != cOK then { chip := a, unit := f, code := rc }
  else match imageCheck b with
    | some v => { chip := a, unit := f, code := cBOUNDS, value := v }
    | none => { chip := a, unit := f, value := (TreeHead.of (b.take 128)).nodes }

/-- A command of tree engine `x` run over its first `most` samples (R644, R647 to R658). -/
def Chip.teRun (ch : Chip) (x p : Nat) (far : FarAns) (u : UnitCmd) (most stop : Nat) : TeEnd :=
  match u.op with
  | 2 => { chip := ch, unit := fun y => { y with owner := none, gen := inc16 y.gen } }
  | 3 => ch.loadRun p far u
  | _ => ch.scoreRun x p far u most stop

/-- The most samples of a streamed command that the tokens already paid and those the buckets hold let it write. -/
def Chip.affordable (ch : Chip) (x p : Nat) (far : FarAns) (u : UnitCmd) : Nat :=
  ((List.range (u.le 16 4)).filter fun m => ch.affords p (ch.te x).paid (ch.scoreRun x p far u m cTIMEOUT).chip).foldl max 0

/-- Tree engine `x` keeps the lines it has paid; where it got some, the read that waits is a new one (R566, R656). -/
def Chip.tePaid (ch : Chip) (x : Nat) (l : List Nat) : Chip :=
  ch.modTe x fun y => { y with paid := l, since := if l.sum == y.paid.sum then y.since else ch.time }

/-- The oldest accepted command of tree engine `x` runs and completes; a streamed one of which a read has waited stream_desc_us for its
tokens completes with TIMEOUT (R647, R656). -/
def execTeCmdComplete (c x : Nat) (far : List (Nat × Nat × List Nat)) (s : State) : Host.Outcome State Fault Refusal :=
  unitOn c (fun ch => ch.workPart (ch.te x).q (ch.te x).owner) (fun ch =>
    match (ch.te x).q with
    | [] => ch
    | u :: _ =>
      let p := ch.partNo u.core
      match (ch.te x).ownCode u with
      | 0 =>
        let after := (ch.teRun x p far u (u.le 16 4) cOK).done x u
        if 4 ≤ u.op && u.streamed && (ch.te x).since + ch.streamNs p ≤ ch.time && !ch.affords p (ch.te x).paid after then
          (ch.scoreRun x p far u (ch.affordable x p far u) cTIMEOUT).done x u
        else ch.paced p (ch.te x).paid (fun l a => a.tePaid x l) after
      | code => (teNone ch u code).done x u) s

/-! ## Ticks, reclaim, overlays (R661 to R663) -/

/-- The running command of tree engine `x` stops with a code at a sample boundary that the spec does not fix: the samples that it has written
are a free number (R655; DESIGN CHOICE, log entry 62). -/
def Chip.teCut (ch : Chip) (x : Nat) (u : UnitCmd) (code : Nat) : TeEnd :=
  let (i, a) := ch.draw
  let n := (Config.freeValue i).toNat % (u.le 16 4 + 1)
  if u.op != 4 && u.op != 5 then { chip := ch, code := code }
  else match (ch.te x).ownCode u with
    | 0 => { a.scoreRun x (ch.partNo u.core) [] u n code with code := code }
    | _ => teNone ch u code

/-- Every command of tree engine `x` ends, the running one with `run`, the others with `wait` (R661, R662, R774). -/
def Chip.teStop (ch : Chip) (x run wait : Nat) : Chip :=
  match (ch.te x).q with
  | [] => ch
  | u :: rest =>
    rest.foldl (fun a v => a.complete v wait 0) (((ch.teCut x u run).done x u).modTe x fun y => { y with q := [] })

/-- A tick stop on tree engine `x` (R661). -/
def Chip.stopTe (ch : Chip) (x : Nat) : Chip := ch.teStop x cOVERRUN cOVERRUN

/-- The steward reclaims tree engine `x` from its owner (R662). -/
def Chip.reclaimTe (ch : Chip) (x : Nat) : Chip :=
  (ch.teStop x cFENCED cGENSTALE).modTe x fun y => { y with owner := none, gen := inc16 y.gen }

/-- An overlay frees a tree engine; one that the partition gives up loses its store (R663). -/
def TreeEngine.overlayFree (x : TreeEngine) (stays : Bool) : TreeEngine :=
  { x with q := [], paid := [], owner := none, gen := inc16 x.gen, store := if stays then x.store else [] }

end Sys2Proof.Machine
end

