-- ==== Sys2Proof/Machine/TickStop.lean ====
section
/-! DEFINITION. The tick stop of a partition (R223, R579, R581, R628, R661, R709, R1020). -/
namespace Sys2Proof.Machine

/-- A channel at a moment of R410: full credits, sequences from 0, nothing queued, in flight or returning. -/
def Chan.fresh (c : Chan) : Chan :=
  { c with credits := c.depth, txSeq := 0, rxSeq := 0, flight := [], queue := [], returning := [] }

/-- A synchronisation object at its plate initial value; a barrier's is its limit (R223, R419). -/
def SyncObj.restore (o : SyncObj) : SyncObj :=
  { o with value := if o.kind == 2 then 0 else o.initial, owner := none, waiters := [] }

/-- The coder units that partition `p` holds. -/
def Chip.cusOf (ch : Chip) (p : Nat) : List Nat := (List.range ch.cus.length).filter fun u => bitOf (ch.part p).plate.cuMask u

/-- The tree engines that partition `p` holds. -/
def Chip.tesOf (ch : Chip) (p : Nat) : List Nat := (List.range ch.tes.length).filter fun u => bitOf (ch.part p).plate.teMask u

/-- The links that partition `p` holds. -/
def Chip.linksOf (ch : Chip) (p : Nat) : List Nat := (List.range ch.links.length).filter fun u => bitOf (ch.part p).plate.linkMask u

/-- Commands of partition `p` that no unit has accepted complete with TICK_OVERRUN (R223). -/
def Chip.stopArriving (ch : Chip) (p : Nat) : Chip :=
  (ch.arriving.filter fun u => ch.partNo u.core == p).foldl
    (fun a u => { a with arriving := a.arriving.erase u }.complete u cOVERRUN 0) ch

/-- Every in-flight unit command of partition `p` is cut with TICK_OVERRUN (R223 step 1). -/
def Chip.stopUnits (ch : Chip) (p : Nat) : Chip :=
  let a1 := (ch.stopArriving p).forEach (ch.podsOf p) fun d a => (a.stopStreams d).stopArray d
  let a2 := a1.forEach (ch.coresOf p) fun k a => a.stopRows k cOVERRUN
  let a3 := a2.forEach (ch.cusOf p) fun u a => a.stopCu u
  let a4 := a3.forEach (ch.tesOf p) fun u a => a.stopTe u
  (a4.carCut p cOVERRUN).modPart p Part.lnuStop

/-- A core is stopped by a tick stop; one in DEBUG stays there (R223 step 2). An error of a store that it had posted finds no
store of the core and raises only its event (R401). -/
def Core.stop (x : Core) : Core :=
  match x.state with
  | .running => { x with state := .halted, wait := none, posted := [], stopped := true, dbg := { x.dbg with skip := false, stepping := false } }
  | .waiting => { x with state := .halted, wait := none, posted := [], stopped := true, dbg := { x.dbg with skip := false, stepping := false } }
  | .debug => { x with wait := none, posted := [], stopped := true, dbg := { x.dbg with resumeTo := .halted } }
  | _ => x

/-- The RETIRE_JOBs that wait on a job complete, and the job is gone (R217). -/
def Chip.retireJob (ch : Chip) (p : Nat) (j : Job) : Chip :=
  j.retire.foldl (fun a x => a.cmdCpl p x cOK 0 0)
    (ch.modPart p fun q => { q with jobs := q.jobs.filter fun i => i.slot != j.slot })

/-- RETIRE_JOBs that wait take effect when no tick runs (R217). -/
def Chip.settleRetires (ch : Chip) (p : Nat) : Chip :=
  ((ch.part p).jobs.filter fun j => !j.retire.isEmpty).foldl (fun a j => a.retireJob p j) ch

/-- Every admitted job of partition `p` is retired with an unsolicited completion (R219, R220, R921). -/
def Chip.retireAllJobs (ch : Chip) (p code sub : Nat) : Chip :=
  (ch.part p).jobs.foldl (fun a j => a.unsolicited p false code sub j.handle) (ch.modPart p fun q => { q with jobs := [] })

/-- A tick of partition `p` has ended: tick completions with `code`, retirements that waited (R217, R225, R918, R938). -/
def Chip.endTick (ch : Chip) (p code : Nat) : Chip :=
  let q := ch.part p
  let a1 := ch.modPart p fun x => { x with running := false, extended := false, prevExtended := x.extended, deadline := 0 }
  let a2 := (q.jobs.filter fun j => j.begun && j.tickCpl).foldl (fun a j => a.unsolicited p true code 0 j.handle) a1
  let a3 := (q.jobs.filter fun j => !j.retire.isEmpty).foldl (fun a j => a.retireJob p j) a2
  if q.retireAll then (a3.retireAllJobs p cFENCED 0).modPart p fun x => { x with retireAll := false } else a3

/-- The link of a request is still replaying or retraining: the lowest level is recovering the request (R765, R801). -/
def Chip.linkBusy (ch : Chip) (n : Nat) : Bool :=
  let l := ch.link n
  l.state == .retraining || (l.state == .up && 0 < l.episode)

/-- An upper level (0 for none) has completed a request: SUPERSEDED where its link was still recovering it (R801, R803). -/
def Chip.supersede (ch : Chip) (r : Remote) (upper : Nat) : Chip :=
  let l := ch.link r.link
  if upper != 0 && ch.linkBusy r.link then
    ch.ev 0x0502 err r.agent r.part cOK r.addr (0x100 + min 255 (l.episode + l.recent)) upper
  else ch

/-- Waiting flits without data flit `i` of them. -/
def dropData : Nat → List (Nat × List Nat) → List (Nat × List Nat)
  | _, [] => []
  | i, t :: r => if t.1 == 2 then t :: dropData i r else if i == 0 then r else t :: dropData (i - 1) r

/-- A load that has not been packed into a flit is dropped: its flit leaves the queue of its link (R801). -/
def Chip.unpack (ch : Chip) (r : Remote) : Chip :=
  if r.behind == 0 then ch
  else
    { ch.modLink r.link (fun l => { l with waiting := dropData (r.behind - 1) l.waiting }) with
      remotes := ch.remotes.map fun x => if x.link == r.link && r.behind < x.behind then { x with behind := x.behind - 1 } else x }

/-- Core `k` waits for its request no longer: one not yet sent is dropped, and a response that still comes is discarded (R690, R801). -/
def Chip.dropLoads (ch : Chip) (k upper : Nat) : Chip :=
  let mine := fun (r : Remote) => match r.kind with
    | .load j _ _ _ => j == k
    | .vload j _ _ _ => j == k
    | _ => false
  (ch.remotes.filter mine).foldl (fun a r => (a.supersede r upper).unpack r) { ch with remotes := ch.remotes.filter fun r => !mine r }

/-- A tick stop of partition `p` (R223); a tick that was running has ended. -/
def Chip.tickStop (ch : Chip) (p : Nat) : Chip :=
  let a1 := (ch.stopUnits p).forEach (ch.coresOf p) fun k a => ((a.dropLoads k 4).modCore k Core.stop).closeEpochs k
  let a2 : Chip := { a1 with
    chans := a1.chans.map fun c => if c.part == p then c.fresh else c
    syncs := a1.syncs.map fun o => if o.part == p then o.restore else o }
  if (ch.part p).running then a2.endTick p cOVERRUN else a2

end Sys2Proof.Machine
end

