-- ==== Sys2Proof/Machine/Halt.lean ====
section
/-! DEFINITION. Fencing a core, and the halt of a chip on FATAL (R403, R430, R774, R777, R793, R794). -/
namespace Sys2Proof.Machine

/-- A core stops and becomes FENCED; unless it had faulted its record takes cause FENCED (R368, R403, R777); its queued
completions are discarded (R778, R779). -/
def Core.fenceNow (x : Core) : Core :=
  if x.state == .fenced then x
  else { x with
    state := .fenced
    wait := none
    ended := true
    posted := []
    cq := []
    dbg := { x.dbg with skip := false, stepping := false }
    outst := x.outst.filter fun o => !(x.cq.map fun c => (c.unit, c.tag)).contains o
    fault := if x.state == .faulted then x.fault
      else { valid := true, imprecise := false, multi := false, code := cFENCED, cause := 0x0A, pc := x.pc, addr := 0 } }

/-- Every core and unit is fenced. -/
def Chip.fenceAll (ch : Chip) : Chip :=
  { ch with
    cores := ch.cores.map fun x => { x.fenceNow with sfuFenced := true }
    pods := ch.pods.map fun x => { x with fenced := true }
    cus := ch.cus.map fun x => { x with fenced := true }
    tes := ch.tes.map fun x => { x with fenced := true }
    links := ch.links.map fun x => { x with fenced := true } }

/-- Halt on FATAL: FAIL to the twin, a tick stop in every partition, every core and unit fenced, the chip state
halted (R794). -/
def Chip.haltFatal (ch : Chip) : Chip :=
  if ch.wdg.fatalHalt then ch
  else
    let a := (ch.sendFail 0xFF failHalt).forEach ((List.range 8).filter fun p => (ch.part p).isDefined) fun p b => b.tickStop p
    { a.fenceAll with wdg := { ch.wdg with fatalHalt := true } }

end Sys2Proof.Machine
end

