-- ==== Sys2Proof/Machine/Operands.lean ====
section
/-! DEFINITION. The fields of an instruction word and the operand forms of a core (R309 to R313, R317). -/
namespace Sys2Proof.Machine

/-! ## Fields (R309) -/

/-- D, bits 55:51. -/
def fD (w : W64) : Nat := bitsOf w.toNat 51 5
/-- A, bits 50:46. -/
def fA (w : W64) : Nat := bitsOf w.toNat 46 5
/-- B, bits 45:41. -/
def fB (w : W64) : Nat := bitsOf w.toNat 41 5
/-- C, bits 40:36. -/
def fC (w : W64) : Nat := bitsOf w.toNat 36 5
/-- P of format R, bits 35:33. -/
def fP (w : W64) : Nat := bitsOf w.toNat 33 3
/-- RM, bits 32:30. -/
def fRM (w : W64) : Nat := bitsOf w.toNat 30 3
/-- FMT, bits 29:26. -/
def fFMT (w : W64) : Nat := bitsOf w.toNat 26 4
/-- EW, bits 25:24. -/
def fEW (w : W64) : Nat := bitsOf w.toNat 24 2
/-- FN, bits 23:16. -/
def fFN (w : W64) : Nat := bitsOf w.toNat 16 8
/-- IMM32 and OFF, bits 31:0. -/
def fIMM (w : W64) : Nat := bitsOf w.toNat 0 32
/-- IMM48, bits 47:0. -/
def fIMM48 (w : W64) : Nat := bitsOf w.toNat 0 48
/-- P of format M, bits 40:38. -/
def fMP (w : W64) : Nat := bitsOf w.toNat 38 3
/-- ORD, bits 37:36. -/
def fORD (w : W64) : Nat := bitsOf w.toNat 36 2
/-- SP, bit 35. -/
def fSP (w : W64) : Bool := bitOf w.toNat 35
/-- EP, bits 34:33. -/
def fEP (w : W64) : Nat := bitsOf w.toNat 33 2
/-- X, bit 32. -/
def fX (w : W64) : Bool := bitOf w.toNat 32
/-- UNIT of format U, bits 40:33. -/
def fUNIT (w : W64) : Nat := bitsOf w.toNat 33 8

/-- Masks of the fields an instruction uses; every other bit below the opcode is reserved (R310). -/
abbrev mD : Nat := 0x1F <<< 51
abbrev mA : Nat := 0x1F <<< 46
abbrev mB : Nat := 0x1F <<< 41
abbrev mC : Nat := 0x1F <<< 36
abbrev mP : Nat := 0x7 <<< 33
abbrev mRM : Nat := 0x7 <<< 30
abbrev mFMT : Nat := 0xF <<< 26
abbrev mEW : Nat := 0x3 <<< 24
abbrev mFN : Nat := 0xFF <<< 16
abbrev mIMM : Nat := 0xFFFFFFFF
abbrev mIMM48 : Nat := 0xFFFFFFFFFFFF
/-- P, ORD, SP, EP, X and OFF of format M. -/
abbrev mMem : Nat := 0x1FFFFFFFFFF
/-- The same without P, for a scalar access. -/
abbrev mMemS : Nat := 0x3FFFFFFFFF
abbrev mUNIT : Nat := 0xFF <<< 33

/-- Every bit below the opcode that the instruction does not use is 0 (R310). -/
def fieldsOk (used : Nat) (w : W64) : Bool := (w.toNat % 2 ^ 56) &&& used == w.toNat % 2 ^ 56

/-- IMM32 or OFF, sign-extended to 64 bits. -/
def simm (w : W64) : W64 := (BitVec.ofNat 32 (fIMM w)).signExtend 64

/-- A format code that R246 leaves reserved. -/
def fmtReserved (f : Nat) : Bool := f ≥ 0xD

/-- The opcode tables list an opcode (R310). -/
def opcodeListed (op : Nat) : Bool :=
  (0x01 ≤ op && op ≤ 0x1C) || (0x20 ≤ op && op ≤ 0x29) || op == 0x2E || op == 0x2F || (0x30 ≤ op && op ≤ 0x39) ||
  (0x40 ≤ op && op ≤ 0x46) || (0x48 ≤ op && op ≤ 0x59) || (0x60 ≤ op && op ≤ 0x74) || (0x80 ≤ op && op ≤ 0x96) ||
  (0xA0 ≤ op && op ≤ 0xA8) || (0xB0 ≤ op && op ≤ 0xB5) || (0xC0 ≤ op && op ≤ 0xC2) || (0xD0 ≤ op && op ≤ 0xD3) ||
  (0xE0 ≤ op && op ≤ 0xE4) || (0xE8 ≤ op && op ≤ 0xEA) || (0xF0 ≤ op && op ≤ 0xF7)

/-! ## Lanes (R312, R313) -/

/-- Lane width in bits of an EW code. -/
def ewBits (ew : Nat) : Nat := 8 * 2 ^ ew

/-- Lane `i` of width `w`, as a number. -/
def lane (v : V512) (w i : Nat) : Nat := bitsOf v.toNat (i * w) w

/-- A vector from its lanes of width `w`, lane 0 first. -/
def fromLanes (w : Nat) (l : List Nat) : V512 :=
  BitVec.ofNat 512 (l.reverse.foldl (fun a x => a * 2 ^ w + x % 2 ^ w) 0)

/-- Every lane of width `w`. -/
def lanes (w : Nat) (v : V512) : List Nat := (List.range (512 / w)).map fun i => lane v w i

/-- A vector whose active lanes are `f i` and whose other lanes are those of `old` (R312). -/
def mapLanes (w : Nat) (pred : W64) (old : V512) (f : Nat → Nat) : V512 :=
  fromLanes w ((List.range (512 / w)).map fun i => if pred.getLsbD i then f i else lane old w i)

/-- A predicate from a truth per lane; bits at or above the lane count are 0 (R328). -/
def predOf (n : Nat) (f : Nat → Bool) : W64 :=
  BitVec.ofNat 64 ((List.range n).reverse.foldl (fun a i => a * 2 + b2n (f i)) 0)

/-- The effective address of a format M access (sA + sB, or sA + OFF). -/
def effAddr (c : Core) (w : W64) : Nat :=
  (c.getS (fA w) + (if fX w then c.getS (fB w) else simm w)).toNat

/-- How a format M instruction uses B, SP and EP. -/
inductive MemUse where
  | load | store | atomic
  deriving DecidableEq, Repr

/-- The form of a format M access is not reserved: OFF with X (R317), B without X, ORD (R358), SP and EP of a load
(R324) or an atomic. -/
def memFormOk (u : MemUse) (w : W64) : Bool :=
  (if fX w then fIMM w == 0 else (fB w == 0 || u == .atomic)) && fORD w != 3 && (u == .store || (!fSP w && fEP w == 0))

end Sys2Proof.Machine
end

