-- ==== Sys2Proof/Machine/Issue.lean ====
section
/-! DEFINITION. Taking a core fault, and the issue of one instruction by a core: the fetch checks, breakpoints,
reserved fields, the instruction's own effect, retirement, watchpoints (R308 to R311, R368 to R377, R387). -/
namespace Sys2Proof.Machine

/-! ## Fault causes (R368) -/

abbrev fcILLEGAL : Nat := 0x01
abbrev fcOPERAND : Nat := 0x02
abbrev fcACCESS : Nat := 0x03
abbrev fcABSENT : Nat := 0x04
abbrev fcFETCH : Nat := 0x05
abbrev fcEXPERT : Nat := 0x06
abbrev fcTRAP : Nat := 0x07
abbrev fcBREAK : Nat := 0x08
abbrev fcWATCHDOG : Nat := 0x09
abbrev fcFENCED : Nat := 0x0A

/-- Notify the steward of core `k`: the recovery is due at once, or waits in the hardware queue while the steward does
not run; an overflow of its 256 entries is FATAL (R373, R784). -/
def Chip.notify (ch : Chip) (k : Nat) : Chip :=
  if ch.wdg.steward = .running then ch.modCore k fun x => { x with recover := true }
  else if ch.wdg.notify.length < 256 then { ch with wdg := { ch.wdg with notify := ch.wdg.notify ++ [k] } }
  else (ch.ev 0x0803 fatal 0x70).haltFatal

abbrev kCOUNTER : Nat := 0
abbrev kEVENT : Nat := 1
abbrev kBARRIER : Nat := 2
abbrev kMUTEX : Nat := 3
abbrev kSEQUENCE : Nat := 4

/-- The object with a number, while a plate gives it to a partition. -/
def Chip.sync (ch : Chip) (n : Nat) : Option SyncObj := ch.syncs.find? fun o => o.obj == n

/-- Change the object with a number. -/
def Chip.modSync (ch : Chip) (n : Nat) (f : SyncObj → SyncObj) : Chip :=
  { ch with syncs := ch.syncs.map fun o => if o.obj == n then f o else o }

/-- Take core `k` out of the queue of the object it waits on; a barrier arrival is withdrawn (R422). -/
def Chip.unqueue (ch : Chip) (k : Nat) : Chip :=
  match (ch.core k).wait with
  | some (.sync _ n _ _) => ch.modSync n fun o =>
      if o.waiters.any fun w => w.1 == k then
        { o with waiters := o.waiters.filter (fun w => w.1 != k), value := if o.kind == kBARRIER then o.value - 1 else o.value }
      else o
  | _ => ch

/-- A core fault (R373, R375): FAULTED, the record, an ERROR event, the steward notified; RECOVERY reads 1 (R768). The core waits no
longer on an object. -/
def Chip.fault (ch0 : Chip) (k cause code addr : Nat) (imprecise : Bool := false) (pc : Option Nat := none) : Chip :=
  let x := ch0.core k
  let ch := if x.state = .faulted then ch0 else ch0.unqueue k
  if x.state = .faulted then
    (ch.modCore k fun x => { x with fault := { x.fault with multi := true } }).ev 0x0202 err k (ch.partNo k) code 0 cause
  else
    let p := ch.partNo k
    let wi := (ch.part p).workIndex
    let ch1 := ch.modCore k fun x => { x with
      state := .faulted
      wait := none
      dbg := { x.dbg with skip := false, stepping := false }
      inRec := true
      fault := { valid := true, imprecise := imprecise, multi := false, code := code, cause := cause,
                 pc := pc.getD x.pc, addr := addr }
      faultRun := if x.faultRun > 0 && x.faultTick + 1 == wi then x.faultRun + 1 else if x.faultRun > 0 && x.faultTick == wi then x.faultRun else 1
      faultTick := wi }
    let ch2 := ch1.modPart p fun q => { q with recovery := true }
    (ch2.ev 0x0201 err k p code addr cause).notify k

/-- A fault of an access: the violation is logged too, with no event of its own; a register access by its offset (R760, R761, R764). -/
def Chip.accessFault (ch : Chip) (k code addr kind : Nat) : Chip :=
  let at' := if kind == vRegRead || kind == vRegWrite then addr - regBase else addr
  let ch1 := if isViolation code (kind != vWrite && kind != vRegWrite) then ch.violate k (ch.partNo k) kind code at' 0 true else ch
  ch1.fault k fcACCESS code addr

/-- What an instruction does once its fields are read. -/
inductive Res where
  /-- it retires, the core going on at the next word -/
  | next (ch : Chip)
  /-- it retires, the core going on at a target -/
  | jump (ch : Chip) (pc : Nat)
  /-- it retires after touching memory, whose ranges watchpoints see -/
  | touch (ch : Chip) (ranges : List (Nat × Nat)) (store : Bool)
  /-- a precise fault: no effect (R369) -/
  | fault (cause code addr : Nat)
  /-- a precise ACCESS fault; the kind is that of the violation log -/
  | access (code addr kind : Nat)
  /-- no effect yet: the instruction waits and issues again -/
  | block
  /-- the instruction has taken its first effects and waits -/
  | wait (ch : Chip) (w : Wait)
  /-- the instruction has decided the core's state itself -/
  | done (ch : Chip)

/-- A breakpoint of the core stands at its PC and is armed (R387). -/
def Core.breakAt (x : Core) : Option Nat :=
  if x.dbg.en && !x.dbg.skip then
    (List.range 4).find? fun i => let b := x.dbg.bkpt.getD i 0; bitOf b 63 && bitsOf b 3 15 * 8 == x.pc
  else none

/-- A watchpoint that an access touches (R387, R399). -/
def Core.watchAt (x : Core) (a n : Nat) (store : Bool) : Option Nat :=
  if x.dbg.en then
    (List.range 2).find? fun i =>
      let cfg := x.dbg.wptCfg.getD i 0
      let base := x.dbg.wpt.getD i 0
      bitOf cfg 31 && bitOf cfg (if store then 1 else 0) && base < a + n && a < base + 2 ^ bitsOf cfg 4 4
  else none

/-- A watchpoint that one of the ranges of an access touches. -/
def Core.watchHit (x : Core) (l : List (Nat × Nat)) (store : Bool) : Option Nat := l.findSome? fun r => x.watchAt r.1 r.2 store

/-- An access of core `k` to some ranges has retired: a watchpoint that it touched halts the core (R387). -/
def Chip.watched (ch : Chip) (k : Nat) (l : List (Nat × Nat)) (store : Bool) : Chip :=
  match (ch.core k).watchHit l store with
  | some i => if (ch.core k).state == .running then ch.haltCore k 5 i else ch
  | none => ch

/-- The core may issue: RUNNING, or WAITING with an instruction that has had no effect yet; its fabric clock runs and no
stipple slot holds it. -/
def Chip.canIssue (ch : Chip) (k : Nat) : Bool :=
  let x := ch.core k
  let go := match x.state, x.wait with
    | .running, _ => true
    | .waiting, some (.blocked _) => true
    | _, _ => false
  k < ch.cores.length && go && ch.alive && ch.fcRuns && !(ch.part (ch.partNo k)).inSlot

/-- The end of an instruction: retirement, fault or wait. -/
def Chip.settleRes (ch : Chip) (k : Nat) : Res → Chip
  | .next a => a.retire k
  | .jump a pc => a.retireTo k pc
  | .touch a l store => (a.retire k).watched k l store
  | .fault cause code addr => ch.fault k cause code addr
  | .access code addr kind => ch.accessFault k code addr kind
  | .block => ch.modCore k fun x => { x with state := .waiting, wait := some (match x.wait with | some (.blocked t) => .blocked t | _ => .blocked ch.time) }
  | .wait a w => (a.modCore k fun x => { x with state := .waiting, wait := some w }).settle k
  | .done a => a

/-- A FETCH fault (R308, R368): the violation is logged with no event of its own (R764). -/
def Chip.fetchFault (ch : Chip) (k code : Nat) : Chip :=
  (ch.violate k (ch.partNo k) vFetch code (ch.core k).pc 0 true).fault k fcFETCH code 0

/-- A corrected fetch error proceeds and is counted (R308). -/
def Chip.countFetch (ch : Chip) (k : Nat) : Chip :=
  let x := ch.core k
  if x.softCode.contains (lineOf x.pc) then
    { ch with rcv := { ch.rcv with corrCore := ch.rcv.corrCore.modify k fun n => (n + 1) % 2 ^ 32 } }
  else ch

/-- Issue one instruction word on core `k`: `used` is the mask of its fields, `body` its effect. The word is the one that the core's
instruction memory holds at its PC; a command with another word is no event of the chip and changes nothing (R307, R308). -/
def Chip.issue (ch : Chip) (k : Nat) (w : W64) (used : Nat) (body : Chip → Core → Res) : Chip :=
  if !ch.canIssue k then ch else
  let x := ch.core k
  if x.dbg.request then ch.haltCore k 1 0 else
  match x.breakAt with
  | some i => ch.haltCore k 4 i
  | none =>
    if x.pc % 8 != 0 then ch.fetchFault k cALIGN
    else if 8 * x.image.length ≤ x.pc then ch.fetchFault k cBOUNDS
    else if x.badCode.contains (lineOf x.pc) then ch.fetchFault k cECC
    else if x.image.getD (x.pc / 8) 0 != w then ch
    else
      let a := if x.state == .running then ch.countFetch k else ch
      if !opcodeListed (bitsOf w.toNat 56 8) || !fieldsOk used w then a.fault k fcILLEGAL cBOUNDS 0
      else if x.posted.any Posted.seq then a.settleRes k .block
      else a.settleRes k (body a x)

/-- The meaning of an instruction that acts through `Chip.issue`. -/
def issueOn (c k : Nat) (w : W64) (used : Nat) (body : Chip → Core → Res) (s : State) : Host.Outcome State Fault Refusal :=
  onChip c (fun ch => ch.issue k w used body) s

/-- An instruction that only changes its core's registers. -/
def regOp (c k : Nat) (w : W64) (used : Nat) (f : Core → Core) (s : State) : Host.Outcome State Fault Refusal :=
  issueOn c k w used (fun ch _ => .next (ch.modCore k f)) s

end Sys2Proof.Machine
end

