-- ==== Sys2Proof/Machine/Sync.lean ====
section
/-! DEFINITION. Channels, the sync unit and append regions: their checks, waits, releases and generations
(R405 to R432, R443 to R450). -/
namespace Sys2Proof.Machine

/-- The outcome of a wait reaches core `k`: sD is written and the instruction retires; while the debugger holds the core
the outcome is kept for its resumption (R381, R383). -/
def Chip.answer (ch : Chip) (k rd : Nat) (word : W64) : Chip :=
  match (ch.core k).state with
  | .waiting => (ch.modCore k fun x => x.setS rd word).retire k
  | .debug => ch.modCore k fun x => { x with wait := some (.answered rd word.toNat) }
  | _ => ch

/-! ## Channels (R405 to R418) -/

/-- The channel with an id, if the plate in force defines it; channel 0 is no plate's (R407). -/
def Chip.chan (ch : Chip) (id : Nat) : Option Chan := if id = 0 then none else ch.chans.find? fun c => c.id == id

/-- Change the channel with an id. -/
def Chip.modChan (ch : Chip) (id : Nat) (f : Chan → Chan) : Chip :=
  { ch with chans := ch.chans.map fun c => if c.id == id then f c else c }

/-- A channel whose generation changes: as R410, and what is in flight or returning keeps its old generation (R417, R432). -/
def Chan.bump (c : Chan) : Chan :=
  { c with gen := inc16 c.gen, credits := c.depth, txSeq := 0, rxSeq := 0, queue := [] }

/-- The length code of a message (R415). -/
def lenCode (bytes : Nat) : Nat := if bytes ≤ 64 then 0 else if bytes ≤ 128 then 1 else if bytes ≤ 256 then 2 else 3

/-- The header of a message or a credit return on the mesh (R415). -/
def Chan.header (c : Chan) (m : Msg) (credit : Bool) : List Nat :=
  [if credit then c.srcCore else c.dstCore,
   (if credit then c.srcPort else c.dstPort) + (if credit then 16 else 0) + 32 * lenCode c.msgBytes,
   c.id % 256, c.id / 256] ++ leBytes 2 m.gen ++ leBytes 2 m.seq ++ [if credit then c.dstCore else c.srcCore, 0, 0, 0] ++
  leBytes 4 (if credit then 0 else crc32c m.payload)

/-- The checks of a channel instruction before its buffer: the code and the generation checked, or the channel (R407). -/
def Chip.chanCheck (ch : Chip) (k id : Nat) (sender : Bool) : Except (Nat × Nat) Chan :=
  match ch.chan id with
  | none => .error (cBOUNDS, 0)
  | some c =>
    if c.part != ch.partNo k then .error (cPERM, c.gen)
    else if (if sender then c.srcCore else c.dstCore) != k then .error (cPERM, c.gen)
    else .ok c

/-- The code of a message buffer (R349): ALIGN, BOUNDS or OK. -/
def bufferCode (k a n : Nat) : Nat :=
  if a % 64 != 0 then cALIGN else if coreBase k ≤ a && a + n ≤ coreBase (k + 1) then cOK else cBOUNDS

/-- The other endpoint of a channel. -/
def Chan.other (c : Chan) (sender : Bool) : Nat := if sender then c.dstCore else c.srcCore

/-- A send takes effect: one credit consumed, the message in flight (R411, R416). -/
def Chip.sendNow (ch : Chip) (k addr : Nat) (c : Chan) : Chip × W64 :=
  (ch.modChan c.id fun x => { x with
      credits := x.credits - 1
      txSeq := inc16 x.txSeq
      flight := x.flight ++ [{ gen := x.gen, seq := x.txSeq, payload := ch.see (some k) addr c.msgBytes }] },
    outcomeWord cOK c.gen (c.credits - 1) 0)

/-- A recv takes effect: the oldest message goes into the buffer, one credit returns (R413). -/
def Chip.recvNow (ch : Chip) (addr : Nat) (c : Chan) (m : Msg) : Chip × W64 :=
  let ch1 := ch.modChan c.id fun x => { x with queue := x.queue.drop 1, returning := x.returning ++ [(x.gen, m.seq)] }
  (ch1.plainStore addr m.payload, outcomeWord cOK c.gen (c.queue.length - 1) m.seq)

/-- A core that waits in send, recv or a completion wait goes on if it can; an outcome kept under debug is taken. -/
def Chip.poke (ch : Chip) (k : Nat) : Chip :=
  if (ch.core k).state != .waiting then ch else
  match (ch.core k).wait with
  | some (.send rd id addr _) =>
    match ch.chan id with
    | some c =>
      if c.credits = 0 then ch
      else if ch.bad addr c.msgBytes then ch.accessFault k cECC addr vRead
      else let (a, w) := ch.sendNow k addr c; a.answer k rd w
    | none => ch
  | some (.recv rd id addr _) =>
    match ch.chan id with
    | some c => match c.queue with
      | m :: _ => if m.bad then ch.accessFault k cECC addr vRead else let (a, w) := ch.recvNow addr c m; a.answer k rd w
      | [] => ch
    | none => ch
  | some (.answered rd w) => ch.answer k rd (BitVec.ofNat 64 w)
  | some (.loaded l) => (ch.retire k).watched k l false
  | _ => ch.settle k

/-- send and tsend (R407 to R412, R430, R1018), ordered after every earlier store of the core (R362). -/
def sendOp (try_ : Bool) (k : Nat) (w : W64) (ch : Chip) (x : Core) : Res :=
  if 4096 ≤ fIMM w then .fault fcILLEGAL cBOUNDS 0 else
  if !x.posted.isEmpty then .block else
  let ret := fun (a : Chip) (v : W64) => Res.next (a.modCore k fun y => y.setS (fD w) v)
  match ch.chanCheck k (fIMM w) true with
  | .error (code, gen) => ret ch (outcomeWord code gen 0 0)
  | .ok c =>
    let addr := (x.getS (fA w)).toNat
    match bufferCode k addr c.msgBytes with
    | 0 =>
      if ch.isFenced (c.other true) then ret ch (outcomeWord cFENCED c.gen 0 0)
      else if c.credits = 0 then
        (if try_ then ret ch (outcomeWord cBUSY c.gen 0 0) else .wait ch (.send (fD w) c.id addr ch.time))
      else if ch.bad addr c.msgBytes then .access cECC addr vRead
      else let (a, v) := ch.sendNow k addr c; ret a v
    | code => .access code addr vRead

/-- recv and trecv (R407 to R413, R430, R1018). -/
def recvOp (try_ : Bool) (k : Nat) (w : W64) (ch : Chip) (x : Core) : Res :=
  if 4096 ≤ fIMM w then .fault fcILLEGAL cBOUNDS 0 else
  let ret := fun (a : Chip) (v : W64) => Res.next (a.modCore k fun y => y.setS (fD w) v)
  match ch.chanCheck k (fIMM w) false with
  | .error (code, gen) => ret ch (outcomeWord code gen 0 0)
  | .ok c =>
    let addr := (x.getS (fA w)).toNat
    match bufferCode k addr c.msgBytes with
    | 0 =>
      if ch.isFenced (c.other false) then ret ch (outcomeWord cFENCED c.gen 0 0)
      else match c.queue with
        | m :: _ => if m.bad then .access cECC addr vRead else let (a, v) := ch.recvNow addr c m; ret a v
        | [] => if try_ then ret ch (outcomeWord cBUSY c.gen 0 0) else .wait ch (.recv (fD w) c.id addr ch.time)
    | code => .access code addr vWrite

/-- send. -/
def execSend (c k : Nat) (w : W64) (s : State) := issueOn c k w (mD ||| mA ||| mIMM) (sendOp false k w) s
/-- tsend. -/
def execTsend (c k : Nat) (w : W64) (s : State) := issueOn c k w (mD ||| mA ||| mIMM) (sendOp true k w) s
/-- recv. -/
def execRecv (c k : Nat) (w : W64) (s : State) := issueOn c k w (mD ||| mA ||| mIMM) (recvOp false k w) s
/-- trecv. -/
def execTrecv (c k : Nat) (w : W64) (s : State) := issueOn c k w (mD ||| mA ||| mIMM) (recvOp true k w) s

/-- Bytes as a path with errors delivers them: each error is an offset and the bits that it turns. -/
def corrupt (b : List Nat) (errs : List (Nat × Nat)) : List Nat := errs.foldl (fun l e => l.modify e.1 fun x => (x ^^^ e.2) % 256) b

/-- The oldest message in flight on channel `id` reaches its port with the errors of the mesh, header first (R415, R417, R418). The port
reads gen, seq and crc; errors of the fields that route the message are not modelled (DEDUCED, log entry 60). -/
def execMessageArrival (c id : Nat) (errs : List (Nat × Nat)) (s : State) : Host.Outcome State Fault Refusal :=
  onChip c (fun ch =>
    match ch.chan id with
    | none => ch
    | some x => match x.flight with
      | [] => ch
      | m :: rest =>
        let ch1 := ch.modChan id fun y => { y with flight := rest }
        let f := corrupt (x.header m false ++ m.payload) errs
        let seq := leAt f 6 2
        let body := f.drop 16
        if leAt f 4 2 != x.gen then ch1.modChan id fun y => { y with stale := min (y.stale + 1) 0xFFFF }
        else if crc32c body != leAt f 12 4 || seq != x.rxSeq then
          (ch1.modChan id fun y => { y with rxSeq := inc16 seq, returning := y.returning ++ [(y.gen, seq)] }).ev
            0x0604 err x.dstCore x.part cECC 0 id
        else (ch1.modChan id fun y => { y with rxSeq := inc16 y.rxSeq, queue := y.queue ++ [{ m with payload := body }] }).poke x.dstCore) s

/-- The oldest credit on its way back on channel `id` reaches the sender (R413); one of an old generation is dropped. -/
def execCreditReturn (c id : Nat) (s : State) : Host.Outcome State Fault Refusal :=
  onChip c (fun ch =>
    match ch.chan id with
    | none => ch
    | some x => match x.returning with
      | [] => ch
      | g :: rest =>
        let ch1 := ch.modChan id fun y => { y with returning := rest }
        if leAt (x.header { gen := g.1, seq := g.2 } true) 4 2 != x.gen then ch1
        else (ch1.modChan id fun y => { y with credits := min (y.credits + 1) y.depth }).poke x.srcCore) s

/-- A wait of partition `p` that began at `since` has reached msg_wait_us, which a slot freezes (R412, R413, R422, R845). -/
def Chip.waitedMsg (ch : Chip) (p since : Nat) : Bool := ch.alive && !(ch.part p).inSlot && since + ch.msgWaitNs p ≤ ch.time

/-- A send that has waited msg_wait_us completes with TIMEOUT (R412). -/
def execSendTimeout (c k : Nat) (s : State) : Host.Outcome State Fault Refusal :=
  onChip c (fun ch =>
    match (ch.core k).state, (ch.core k).wait with
    | .waiting, some (.send rd id _ since) =>
      if ch.waitedMsg (ch.partNo k) since then
        ch.answer k rd (outcomeWord cTIMEOUT (((ch.chan id).map Chan.gen).getD 0) 0 0) else ch
    | _, _ => ch) s

/-- A recv that has waited msg_wait_us completes with TIMEOUT (R413). -/
def execRecvTimeout (c k : Nat) (s : State) : Host.Outcome State Fault Refusal :=
  onChip c (fun ch =>
    match (ch.core k).state, (ch.core k).wait with
    | .waiting, some (.recv rd id _ since) =>
      if ch.waitedMsg (ch.partNo k) since then
        ch.answer k rd (outcomeWord cTIMEOUT (((ch.chan id).map Chan.gen).getD 0) 0 0) else ch
    | _, _ => ch) s

/-! ## Synchronisation objects (R419 to R426, R1019) -/

/-- The condition of a WAIT with operand `b` (R421). -/
def SyncObj.holds (o : SyncObj) (b : Nat) : Bool :=
  match o.kind with
  | 0 => b ≤ o.value
  | 1 => o.value == 1
  | 3 => o.value == 0
  | 4 => o.value == b % 2 ^ 32
  | _ => false

/-- What a met WAIT of core `k` does to the object (R421). -/
def SyncObj.met (o : SyncObj) (k b : Nat) : SyncObj :=
  match o.kind with
  | 0 => { o with value := o.value - b }
  | 1 => { o with value := if bitOf b 0 then 0 else o.value }
  | 3 => { o with value := k + 1, owner := some k }
  | _ => o

/-- Where core `k` waits in a sop, the register of its outcome. -/
def Core.syncRd (x : Core) : Nat := match x.wait with
  | some (.sync rd _ _ _) => rd
  | _ => 0

/-- Release the queued waiters of a SEQUENCE whose condition holds, in queue order (R424). -/
def Chip.releaseSeq (ch : Chip) (n : Nat) (o : SyncObj) : Chip :=
  let free := o.waiters.filter fun w => o.holds w.2
  let left := o.waiters.filter fun w => !o.holds w.2
  let ch1 := ch.modSync n fun x => { x with waiters := left }
  free.foldl (fun a w => a.answer w.1 (a.core w.1).syncRd (outcomeWord cOK o.gen left.length o.value)) ch1

/-- Release the waiters at the head of the queue while the head's condition holds (R424, R426); `before` is VALUE before
a hand-over of a mutex. -/
def Chip.releaseHead (n : Nat) : Nat → Nat → Chip → Chip
  | 0, _, ch => ch
  | m + 1, before, ch =>
    match ch.sync n with
    | none => ch
    | some o => match o.waiters with
      | [] => ch
      | (k, b) :: rest =>
        if o.holds b then
          let v := if o.kind == kMUTEX then before else o.value
          let ch1 := ch.modSync n fun x => { x.met k b with waiters := rest }
          Chip.releaseHead n m before (ch1.answer k (ch1.core k).syncRd (outcomeWord cOK o.gen rest.length v))
        else ch

/-- VALUE of object `n` has changed (R424). -/
def Chip.released (ch : Chip) (n before : Nat) : Chip :=
  match ch.sync n with
  | none => ch
  | some o => if o.kind == kSEQUENCE then ch.releaseSeq n o else if o.kind == kBARRIER then ch
    else Chip.releaseHead n o.waiters.length before ch

/-- The generation of a channel (0) or object (1) that no plate defines now: 0, or what an overlay left (R428). -/
def Chip.idleGen (ch : Chip) (kind id : Nat) : Nat := (ch.oldGens.lookup (kind, id)).getD 0

/-- The checks of a sop on a synchronisation object (R406, R420): code and generation checked, or the object. -/
def Chip.objCheck (ch : Chip) (k n : Nat) : Except (Nat × Nat) SyncObj :=
  if 0x440 ≤ n then .error (cBOUNDS, 0)
  else match ch.sync n with
    | some o => if o.part == ch.partNo k then .ok o else .error (cPERM, o.gen)
    | none => .error (cPERM, ch.idleGen 1 n)

/-- The checks of an operation on append region `r` (R420): ABIND may name an unbound region. -/
def Chip.regCheck (ch : Chip) (k r : Nat) (bind : Bool) : Except (Nat × Nat) Region :=
  let g := ch.region r
  if g.bound && g.part != ch.partNo k then .error (cPERM, g.gen)
  else if !g.bound && !bind then .error (cBOUNDS, g.gen)
  else .ok g

/-- Bits of format R that every sop uses: D, A, B, FN; ABIND also C (R421). -/
abbrev mSop : Nat := mD ||| mA ||| mB ||| mFN

/-- Post to an object: its new VALUE, or the code that refuses it (R421). -/
def SyncObj.post (o : SyncObj) (k b : Nat) : Except Nat SyncObj :=
  match o.kind with
  | 0 => if o.value + b > 0xFFFFFFFF then .error cBOUNDS else .ok { o with value := o.value + b }
  | 1 => .ok { o with value := 1 }
  | 3 => if o.value == k + 1 then .ok { o with value := 0, owner := none } else .error cPERM
  | 4 => .ok { o with value := (o.value + b) % 2 ^ 32 }
  | _ => .error cBOUNDS

/-- A POST of any agent on object `n`: VALUE changes and waiters are released (R421, R424). -/
def Chip.postTo (ch : Chip) (n k b : Nat) : Except Nat Chip :=
  match ch.sync n with
  | none => .error cPERM
  | some o => match o.post k b with
    | .error c => .error c
    | .ok o1 => .ok ((ch.modSync n fun _ => o1).released n o.value)

/-- A sop that answers at once. -/
def sopRet (k : Nat) (w : W64) (ch : Chip) (v : W64) : Res := .next (ch.modCore k fun y => y.setS (fD w) v)

/-- sop on an object number or, for READ, a region number: `f` acts on the object. An operation that signals is ordered after
every earlier store of the core (R362). -/
def sopOn (read : Bool) (k : Nat) (w : W64) (ch : Chip) (x : Core) (f : Nat → SyncObj → Nat → Res) : Res :=
  let n := (x.getS (fA w)).toNat
  if 0x400 ≤ n && n < 0x440 then
    match ch.regCheck k (n - 0x400) false with
    | .error (code, gen) => sopRet k w ch (outcomeWord code gen 0 0)
    | .ok g => sopRet k w ch (if read then outcomeWord cOK g.gen 0 g.committed else outcomeWord cBOUNDS g.gen 0 0)
  else match ch.objCheck k n with
    | .error (code, gen) => sopRet k w ch (outcomeWord code gen 0 0)
    | .ok o => f n o (x.getS (fB w)).toNat

/-- A mutex that a fenced core holds (R431). -/
def Chip.heldByFenced (ch : Chip) (o : SyncObj) : Bool :=
  o.kind == kMUTEX && o.value != 0 && ch.isFenced (o.value - 1)

/-- The last waiter of a barrier phase has arrived: every waiter completes OK and VALUE returns to 0 (R425). The number
each waiter stored is VALUE before its own arrival. -/
def Chip.barrierDone (ch : Chip) (n : Nat) (o : SyncObj) : Chip :=
  let ch1 := ch.modSync n fun y => { y with value := 0, waiters := [] }
  o.waiters.foldl (fun a w => a.answer w.1 (a.core w.1).syncRd (outcomeWord cOK o.gen 0 w.2)) ch1

/-- WAIT (R421, R422, R425, R431, R1019). -/
def sopWait (k : Nat) (w : W64) (ch : Chip) (n : Nat) (o : SyncObj) (b : Nat) : Res :=
  if o.kind == kBARRIER then
    if !(ch.core k).posted.isEmpty then .block
    else if o.value + 1 ≥ o.limit then sopRet k w (ch.barrierDone n o) (outcomeWord cOK o.gen 0 o.value)
    else .wait (ch.modSync n fun y => { y with value := y.value + 1, waiters := y.waiters ++ [(k, o.value)] }) (.sync (fD w) n b ch.time)
  else if ch.heldByFenced o then sopRet k w ch (outcomeWord cFENCED o.gen 0 0)
  else if o.holds b && (o.kind == kSEQUENCE || o.waiters.isEmpty) then
    sopRet k w (ch.modSync n fun y => y.met k b) (outcomeWord cOK o.gen o.waiters.length o.value)
  else .wait (ch.modSync n fun y => { y with waiters := y.waiters ++ [(k, b)] }) (.sync (fD w) n b ch.time)

/-- TRY (R421, R431, R1019). -/
def sopTry (k : Nat) (w : W64) (ch : Chip) (n : Nat) (o : SyncObj) (b : Nat) : Res :=
  if o.kind == kBARRIER then sopRet k w ch (outcomeWord cBOUNDS o.gen 0 0)
  else if ch.heldByFenced o then sopRet k w ch (outcomeWord cFENCED o.gen 0 0)
  else if o.holds b && (o.kind == kSEQUENCE || o.waiters.isEmpty) then
    sopRet k w (ch.modSync n fun y => y.met k b) (outcomeWord cOK o.gen o.waiters.length o.value)
  else sopRet k w ch (outcomeWord cBUSY o.gen 0 0)

/-- sop READ. -/
def execSopRead (c k : Nat) (w : W64) (s : State) :=
  issueOn c k w mSop (fun ch x => sopOn true k w ch x fun _ o _ =>
    sopRet k w ch (outcomeWord cOK o.gen o.waiters.length o.value)) s

/-- sop POST. -/
def execSopPost (c k : Nat) (w : W64) (s : State) :=
  issueOn c k w mSop (fun ch x => if !x.posted.isEmpty then .block else sopOn false k w ch x fun n o b =>
    match ch.postTo n k b with
    | .error code => sopRet k w ch (outcomeWord code o.gen 0 0)
    | .ok a => sopRet k w a (outcomeWord cOK o.gen (((a.sync n).map fun y => y.waiters.length).getD 0) o.value)) s

/-- sop WAIT. -/
def execSopWait (c k : Nat) (w : W64) (s : State) :=
  issueOn c k w mSop (fun ch x => sopOn false k w ch x (sopWait k w ch)) s

/-- sop TRY. -/
def execSopTry (c k : Nat) (w : W64) (s : State) :=
  issueOn c k w mSop (fun ch x => sopOn false k w ch x (sopTry k w ch)) s

/-- sop CLEAR: an EVENT only. -/
def execSopClear (c k : Nat) (w : W64) (s : State) :=
  issueOn c k w mSop (fun ch x => sopOn false k w ch x fun n o _ =>
    if o.kind == kEVENT then
      sopRet k w (ch.modSync n fun y => { y with value := 0 }) (outcomeWord cOK o.gen o.waiters.length o.value)
    else sopRet k w ch (outcomeWord cBOUNDS o.gen 0 0)) s

/-- The partition of core `k` has expert_unlock 1. -/
def Chip.expertOf (ch : Chip) (k : Nat) : Bool := (ch.part (ch.partNo k)).expert

/-- sop SET, expert: a COUNTER or SEQUENCE only (R451). -/
def execSopSet (c k : Nat) (w : W64) (s : State) :=
  issueOn c k w mSop (fun ch x => if !x.posted.isEmpty then .block else sopOn false k w ch x fun n o b =>
    if o.kind != kCOUNTER && o.kind != kSEQUENCE then sopRet k w ch (outcomeWord cBOUNDS o.gen 0 0)
    else if !ch.expertOf k then sopRet k w ch (outcomeWord cPERM o.gen 0 0)
    else
      let a := (ch.modSync n fun y => { y with value := b % 2 ^ 32 }).released n o.value
      sopRet k w a (outcomeWord cOK o.gen (((a.sync n).map fun y => y.waiters.length).getD 0) o.value)) s

/-- A sop WAIT that has waited msg_wait_us completes with TIMEOUT; VALUE changes only by a barrier's withdrawn arrival, which releases
no waiter (R422, R424). -/
def execSyncWaitTimeout (c k : Nat) (s : State) : Host.Outcome State Fault Refusal :=
  onChip c (fun ch =>
    match (ch.core k).state, (ch.core k).wait with
    | .waiting, some (.sync rd n _ since) =>
      if ch.waitedMsg (ch.partNo k) since then
        let g := ((ch.sync n).map SyncObj.gen).getD 0
        (ch.unqueue k).answer k rd (outcomeWord cTIMEOUT g 0 0)
      else ch
    | _, _ => ch) s

/-! ## Append regions (R443 to R449) -/

/-- An append region operation: `f` acts on the region. -/
def regionOp (k : Nat) (w : W64) (bind : Bool) (ch : Chip) (x : Core) (f : Nat → Region → Nat → Nat × Chip) : Res :=
  let n := (x.getS (fA w)).toNat
  if 0x400 ≤ n && n < 0x440 then
    match ch.regCheck k (n - 0x400) bind with
    | .error (code, gen) => sopRet k w ch (outcomeWord code gen 0 0)
    | .ok g =>
      let (code, a) := f (n - 0x400) g (x.getS (fB w)).toNat
      sopRet k w a (outcomeWord code (a.region (n - 0x400)).gen 0 g.committed)
  else match ch.objCheck k n with
    | .error (code, gen) => sopRet k w ch (outcomeWord code gen 0 0)
    | .ok o => sopRet k w ch (outcomeWord cBOUNDS o.gen 0 0)

/-- ABIND (R443). -/
def execAbind (c k : Nat) (w : W64) (s : State) :=
  issueOn c k w (mSop ||| mC) (fun ch x => regionOp k w true ch x fun r g b =>
    let size := (x.getS (fC w)).toNat
    let pl := (ch.part (ch.partNo k)).plate
    if b % 64 != 0 || size == 0 || b < pl.dramBase || pl.dramBase + pl.dramSize < b + 64 * size then (cBOUNDS, ch)
    else if g.bound then (cBUSY, ch)
    else (cOK, ch.modRegion r fun y => { y with
      bound := true, part := ch.partNo k, base := b, size := size, committed := 0, gen := inc16 y.gen })) s

/-- Set a core's mark of epoch `n` in region `r`; none where all eight marks are in use (R446, R447). -/
def Core.setMark (x : Core) (n r v : Nat) : Option Core :=
  if (x.epoch n).marks.any fun m => m.1 == r then
    some (x.modEpoch n fun e => { e with marks := e.marks.map fun m => if m.1 == r then (r, v) else m })
  else if x.marksUsed < 8 then some (x.modEpoch n fun e => { e with marks := e.marks ++ [(r, v)] })
  else none

/-- ATAIL (R447). -/
def execAtail (c k : Nat) (w : W64) (s : State) :=
  issueOn c k w mSop (fun ch x => regionOp k w false ch x fun r g b =>
    match x.youngest with
    | none => (cBOUNDS, ch)
    | some n =>
      if b < g.committed || g.size < b then (cBOUNDS, ch)
      else match x.setMark n r b with
        | some y => (cOK, ch.modCore k fun _ => y)
        | none => (cSPECABORT, ch.doom k n)) s

/-- AADV (R449). -/
def execAadv (c k : Nat) (w : W64) (s : State) :=
  issueOn c k w mSop (fun ch x => regionOp k w false ch x fun r g b =>
    if ch.marksIn r != 0 then (cBUSY, ch)
    else if g.size < g.committed + b then (cBOUNDS, ch)
    else (cOK, ch.modRegion r fun y => { y with committed := y.committed + b })) s

/-- ATRUNC, expert (R449, R451). -/
def execAtrunc (c k : Nat) (w : W64) (s : State) :=
  issueOn c k w mSop (fun ch x => regionOp k w false ch x fun r g b =>
    if !ch.expertOf k then (cPERM, ch)
    else if ch.marksIn r != 0 then (cBUSY, ch)
    else if g.committed < b then (cBOUNDS, ch)
    else (cOK, ch.modRegion r fun y => { y with committed := b })) s

/-- AUNBIND (R449). -/
def execAunbind (c k : Nat) (w : W64) (s : State) :=
  issueOn c k w mSop (fun ch x => regionOp k w false ch x fun r _ _ =>
    if ch.marksIn r != 0 then (cBUSY, ch)
    else (cOK, ch.modRegion r fun y => { gen := inc16 y.gen })) s

/-! ## Epoch instructions (R433, R439, R440) -/

/-- The outcome word of an epoch instruction (R405). -/
def Chip.epochWord (ch : Chip) (k n code : Nat) : W64 :=
  let x := ch.core k
  outcomeWord code (x.epoch n).gen x.openMask (4096 - x.shadowUsed)

/-- An epoch instruction: IMM32 is 0 to 3, or R310 applies to all three. -/
def epochOp (k : Nat) (w : W64) (f : Nat → Chip × Nat) : Res :=
  if 4 ≤ fIMM w then .fault fcILLEGAL cBOUNDS 0
  else
    let (a, code) := f (fIMM w)
    .next (a.modCore k fun y => y.setS (fD w) (a.epochWord k (fIMM w) code))

/-- eopen (R433). -/
def execEopen (c k : Nat) (w : W64) (s : State) :=
  issueOn c k w (mD ||| mIMM) (fun ch x => epochOp k w fun n =>
    if (x.epoch n).state == .openE then (ch, cBUSY)
    else if x.anyDoomed then (ch, cSPECABORT)
    else (ch.modCore k fun y => { y.modEpoch n (fun e => { e with state := .openE, lines := [], marks := [], bad := [] }) with
      epochOrder := y.epochOrder ++ [n] }, cOK)) s

/-- Apply the append marks of an epoch to the committed lengths (R448). -/
def Chip.applyMarks (ch : Chip) (e : Epoch) : Chip :=
  e.marks.foldl (fun a m => a.modRegion m.1 fun r => { r with committed := max r.committed m.2 }) ch

/-- Commit epoch `n` and every older OPEN one of core `k` (R439, R448). -/
def Chip.commitEpochs (ch : Chip) (k n : Nat) : Chip :=
  let x := ch.core k
  let l := (x.epochOrder.takeWhile fun m => m != n) ++ [n]
  ch.forEach l fun m a => (a.applyMarks (x.epoch m)).modCore k fun y => y.closeEpoch m

/-- ecommit (R439). -/
def execEcommit (c k : Nat) (w : W64) (s : State) :=
  issueOn c k w (mD ||| mIMM) (fun ch x => epochOp k w fun n =>
    match (x.epoch n).state with
    | .openE => (ch.commitEpochs k n, cOK)
    | .doomed => (ch.modCore k fun y => y.closeEpoch n, cSPECABORT)
    | .closed => (ch, cBOUNDS)) s

/-- Abort epoch `n` and every younger epoch of core `k` (R440). -/
def Chip.abortEpochs (ch : Chip) (k n : Nat) : Chip :=
  ch.forEach ((ch.core k).fromEpoch n) fun m a => (a.restore k m).modCore k fun y => y.closeEpoch m

/-- eabort (R440). -/
def execEabort (c k : Nat) (w : W64) (s : State) :=
  issueOn c k w (mD ||| mIMM) (fun ch x => epochOp k w fun n =>
    match (x.epoch n).state with
    | .openE => (ch.abortEpochs k n, cOK)
    | .doomed => (ch.modCore k fun y => y.closeEpoch n, cSPECABORT)
    | .closed => (ch, cOK)) s

/-! ## Fences, generations and reclaim (R428 to R432) -/

/-- End the wait of core `k` with a code; it leaves any queue first. -/
def Chip.endWait (ch : Chip) (k code : Nat) : Chip :=
  match (ch.core k).wait with
  | some (.send rd id _ _) => ch.answer k rd (outcomeWord code (((ch.chan id).map Chan.gen).getD 0) 0 0)
  | some (.recv rd id _ _) => ch.answer k rd (outcomeWord code (((ch.chan id).map Chan.gen).getD 0) 0 0)
  | some (.sync rd n _ _) => (ch.unqueue k).answer k rd (outcomeWord code (((ch.sync n).map SyncObj.gen).getD 0) 0 0)
  | _ => ch

/-- The cores that wait on channel `id`. -/
def Chip.waitersOnChan (ch : Chip) (id : Nat) : List Nat :=
  (List.range ch.cores.length).filter fun k => match (ch.core k).wait with
    | some (.send _ i _ _) => i == id
    | some (.recv _ i _ _) => i == id
    | _ => false

/-- The generation of channel `id` changes: its waits end with GEN_STALE (R429, R432). -/
def Chip.bumpChan (ch : Chip) (id : Nat) : Chip :=
  let l := ch.waitersOnChan id
  (ch.modChan id Chan.bump).forEach l fun k a => a.endWait k cGENSTALE

/-- The generation of object `n` changes, with VALUE `v`: its waits end with GEN_STALE (R429, R432). -/
def Chip.bumpSync (ch : Chip) (n v : Nat) : Chip :=
  let l := ((ch.sync n).map SyncObj.waiters).getD []
  let ch1 := ch.modSync n fun o => { o with gen := inc16 o.gen, value := v, owner := none, waiters := [] }
  l.foldl (fun a w => a.answer w.1 (a.core w.1).syncRd (outcomeWord cGENSTALE (((ch1.sync n).map SyncObj.gen).getD 0) 0 0)) ch1

/-- Core `k` has been fenced: waits on its channels end with FENCED (R430). -/
def Chip.fenceChans (ch : Chip) (k : Nat) : Chip :=
  ch.chans.foldl (fun a c =>
    if c.srcCore == k || c.dstCore == k then (a.waitersOnChan c.id).foldl (fun b j => if j == k then b else b.endWait j cFENCED) a else a) ch

/-- The steward reclaims the synchronisation resources of core `k`: its epochs first, then channels and mutexes (R432, R778);
also how many of these two. -/
def Chip.reclaimCore (ch : Chip) (k : Nat) : Chip × Nat :=
  let ch1 := (ch.closeEpochs k).modCore k fun x => { x with epochs := x.epochs.map fun e => { e with gen := inc16 e.gen } }
  let cs := (ch1.chans.filter fun c => c.srcCore == k || c.dstCore == k).map Chan.id
  let ms := (ch1.syncs.filter fun o => o.kind == kMUTEX && o.value == k + 1).map SyncObj.obj
  let ch2 := cs.foldl (fun a i => a.bumpChan i) ch1
  (ms.foldl (fun a n => a.bumpSync n 0) ch2, cs.length + ms.length)

/-- Every barrier of partition `p` is released at a reclaim (R432). -/
def Chip.reclaimBarriers (ch : Chip) (p : Nat) : Chip :=
  let bs := (ch.syncs.filter fun o => o.kind == kBARRIER && o.part == p).map SyncObj.obj
  bs.foldl (fun a n => a.bumpSync n 0) ch

end Sys2Proof.Machine
end

