-- ==== Sys2Proof/Machine/TickMath.lean ====
section
/-! DEFINITION. The figures of a tick: guard, stipple share, budget, deadline, the work test, the slot schedule, PART.STATUS
(R204 to R211, R214, R238 to R240, R843). -/
namespace Sys2Proof.Machine

/-- The guard in us (R204). -/
def guardUs (p : Nat) : Nat := max (ceilDiv p 20) 50

/-- The stipple share in us (R205). -/
def shareUs (p s : Nat) : Nat := ceilDiv (p * s) 100

/-- The budget in us (R206). -/
def budgetUs (p s : Nat) : Nat := p - guardUs p - shareUs p s

/-- The budget of a partition's plate content. -/
def PartPlate.budget (x : PartPlate) : Nat := budgetUs x.period x.stipple

/-- The work test (R210). -/
def workTest (budget c u f : Nat) : Bool := u ≤ budget && c ≤ (budget - u) * f

/-- Admitted cycles of a partition. -/
def Part.admCycles (q : Part) : Nat := (q.jobs.map fun j => j.cycles).sum

/-- Admitted us of a partition. -/
def Part.admUs (q : Part) : Nat := (q.jobs.map fun j => j.us).sum

/-- A real-time partition (R131). -/
def PartPlate.rt (x : PartPlate) : Bool := x.cls == 0

/-- The defined partitions. -/
def Chip.defined (ch : Chip) : List Nat := (List.range 8).filter fun p => (ch.part p).isDefined

/-- A core of the partition is halted by the debugger (R384). -/
def Chip.partDebug (ch : Chip) (p : Nat) : Bool := (ch.coresOf p).any fun k => (ch.core k).state == .debug

/-- PART.STATUS (R239). -/
def Chip.status (ch : Chip) (p : Nat) : Nat :=
  let q := ch.part p
  if !q.isDefined then 0
  else b2n q.overrunBit + 2 * b2n q.prevSkipped + 4 * b2n q.extended + 8 * b2n q.subst + 16 * b2n q.onFallback +
    32 * b2n q.recovery + 64 * b2n (ch.partDebug p) + 128

/-- fc_adm: the lowest of the fc in force, the committed fc, a held offer's fc, and 600 MHz while throttled (R214, R883, R889). -/
def Chip.fcAdm (ch : Chip) : Nat :=
  let w := ch.pwr
  let f := min w.fc w.target
  let g := match w.held with | some h => min f h.2.1 | none => f
  if w.throttled then min g 600 else g

/-- The slots of a tick, as offsets from its start in ns (R843). -/
def slotsFor (p s : Nat) : List StippleSlot :=
  let share := shareUs p s
  let k := ceilDiv share 50
  let d := p - guardUs p
  let base := share / k
  let extra := share - k * base
  (List.range k).map fun j =>
    let stop := d * (j + 1) / k
    let len := if j < extra then base + 1 else base
    { start := 1000 * (stop - len), stop := 1000 * stop }

/-- PART.CFG (R238). -/
def Part.cfg (q : Part) : Nat :=
  let x := q.plate
  if !q.isDefined then 0
  else x.podMask * 2 ^ 24 + x.stipple * 2 ^ 16 + b2n x.tickOut * 512 + b2n q.expert * 256 + x.policy * 16 +
    x.source * 4 + x.cls

/-- The last tick start, or the apply while none has been under the content in force (R197, R202). -/
def Part.lastStart (q : Part) : Nat := if q.fresh then q.appliedAt else q.tickStart

/-- The first instant after `t` at which source TIME starts a tick (R197). -/
def PartPlate.nextTime (x : PartPlate) (t : Nat) : Nat :=
  let ph := 1000 * x.phase
  let pd := 1000 * x.period
  if t < ph then ph else ph + ((t - ph) / pd + 1) * pd

/-- The last instant up to `t` at which source TIME starts a tick (R197). -/
def PartPlate.lastTime (x : PartPlate) (t : Nat) : Option Nat :=
  if t < 1000 * x.phase then none else some (1000 * x.phase + (t - 1000 * x.phase) / (1000 * x.period) * (1000 * x.period))

/-- A tick start of partition `p` under source TIME is due now (R197). -/
def Chip.startDue (ch : Chip) (p : Nat) : Bool :=
  let q := ch.part p
  q.plate.source == 0 && (q.startNow || q.plate.nextTime q.lastStart ≤ ch.time)

/-- An edge or message is late enough to start a tick, or the first under the content in force (R199, R202). -/
def Part.mayStart (q : Part) (now : Nat) : Bool := q.fresh || 4 * q.tickStart + 3000 * q.plate.period ≤ 4 * now

/-- Content that applies at a boundary at TIME `now` starts its first tick there (R175): under source TIME where the boundary is an
instant of its own schedule (R197), else where it keeps the source whose edge or message the boundary is (R202; DEDUCED, log entry
57). -/
def PartPlate.startsAt (x old : PartPlate) (now : Nat) : Bool :=
  if x.source == 0 then
    match x.lastTime now, (if old.source == 0 then old.lastTime now else some now) with
    | some i, some j => j ≤ i
    | _, _ => false
  else x.source == old.source

end Sys2Proof.Machine
end

