-- ==== Sys2Proof/Machine/Install.lean ====
section
/-! DEFINITION. Installing the content of a partition: what a base plate, an overlay and a fallback do to pods, cores, units,
channels, objects and regions (R165, R172, R175, R176, R377, R428, R450, R579, R582, R630, R663, R707, R800). -/
namespace Sys2Proof.Machine

/-- The cores of a pod (R76). -/
def Chip.coresInPod (ch : Chip) (d : Nat) : List Nat := (List.range ch.cores.length).filter fun k => podOf k == d

/-- Zero `n` bytes from an address; the lines are good again. -/
def Chip.zero (ch : Chip) (a n : Nat) : Chip :=
  { ch with
    mem := Memory.clear ch.mem a n
    badLines := ch.badLines.filter fun l => l < a || a + n ≤ l
    softLines := ch.softLines.filter fun l => l < a || a + n ≤ l }

/-- Zero the pod store and the core stores of a pod. -/
def Chip.zeroPod (ch : Chip) (d : Nat) : Chip :=
  (ch.zero (podBase d) 0x1000000).forEach (ch.coresInPod d) fun k a => a.zero (coreBase k) 0x200000

/-- A core whose partition's content is replaced: halted until a tick starts it; epochs closed, their generations up (R175, R377). -/
def Core.replace (x : Core) : Core :=
  { x with
    state := if x.state == .debug then .debug else .halted
    wait := none
    dbg := { x.dbg with resumeTo := .halted }
    cq := []
    outst := []
    posted := []
    rowq := []
    rowPaid := []
    image := []
    hasCode := false
    ran := false
    stopped := false
    ended := true
    recover := false
    reclaimed := false
    faultRun := 0
    epochOrder := []
    epochs := x.epochs.map fun e => { gen := inc16 e.gen } }

/-- A core with its code entry (R142, R143). -/
def Core.load (x : Core) (wdg : Nat) : Option CodeEntry → Core
  | some e => { x with image := e.image, entryPc := e.entryPc, hasCode := true, wdgPeriod := wdg }
  | none => { x with wdgPeriod := wdg }

/-- A core without content, fenced with its SFU (R167, R175). -/
def Core.unload (x : Core) : Core := { x.fenceNow.replace with state := .fenced, sfuFenced := true }

/-- A pod is given up: fenced with its cores, its stores zeroed, its array and contexts free; it enters the pool (R175). -/
def Chip.freePod (ch : Chip) (d : Nat) : Chip :=
  ((ch.zeroPod d).modPod d fun x => { x.freeCtxs.emptyBanks with arrq := [], ostatus := 0, duty := 0, fenced := true }).forEach (ch.coresInPod d)
    fun k a => a.modCore k Core.unload

/-- A pod is taken from the pool: it and its cores return to service, but for what is kept fenced (R175, R377, R776). -/
def Chip.takePod (ch : Chip) (d : Nat) : Chip :=
  (ch.modPod d fun x => { x with fenced := x.kept }).forEach (ch.coresInPod d)
    fun k a => a.modCore k fun x => { ({ x with state := .halted } : Core).replace with sfuFenced := x.sfuKept, fault := {} }

/-- The generation a channel (kind 0) or object (kind 1) has once its partition's content is replaced (R428). -/
def Chip.nextGen (ch : Chip) (kind id : Nat) : Nat :=
  let held := if kind == 0 then (ch.chans.find? fun c => c.id == id).map Chan.gen else (ch.syncs.find? fun o => o.obj == id).map SyncObj.gen
  match held with
  | some g => inc16 g
  | none => (ch.oldGens.lookup (kind, id)).getD 0

/-- A channel as the plate gives it (R139, R410). -/
def ChanEntry.make (e : ChanEntry) (p gen : Nat) : Chan :=
  { id := e.id, part := p, srcCore := e.srcCore, srcPort := e.srcPort, dstCore := e.dstCore, dstPort := e.dstPort,
    depth := e.depth, msgBytes := e.msgBytes, gen := gen, credits := e.depth }

/-- A synchronisation object as the plate gives it (R141, R419). -/
def SyncEntry.make (e : SyncEntry) (p gen : Nat) : SyncObj :=
  { obj := e.obj, part := p, kind := e.kind, initial := e.initial, gen := gen,
    value := if e.kind == 2 then 0 else e.initial, limit := if e.kind == 2 then e.initial else 0 }

/-- The channels and objects of partition `p` become those of its new tables (R172, R175, R428). -/
def Chip.installObjects (ch : Chip) (p : Nat) (t : PartTables) : Chip :=
  let cs := t.chans.map fun e => e.make p (ch.nextGen 0 e.id)
  let os := t.syncs.map fun e => e.make p (ch.nextGen 1 e.obj)
  let gone := ((ch.chans.filter fun c => c.part == p).map fun c => ((0, c.id), inc16 c.gen)) ++
    ((ch.syncs.filter fun o => o.part == p).map fun o => ((1, o.obj), inc16 o.gen))
  { ch with
    chans := ch.chans.filter (fun c => c.part != p) ++ cs
    syncs := ch.syncs.filter (fun o => o.part != p) ++ os
    oldGens := gone ++ ch.oldGens.filter fun g => !gone.any fun h => h.1 == g.1 }

/-- The append regions of partition `p` after its DRAM region becomes the plate's (R450). -/
def Chip.installRegions (ch : Chip) (p : Nat) (x : PartPlate) : Chip :=
  { ch with regions := ch.regions.map fun r =>
      if r.bound && r.part == p then
        (if x.dramBase ≤ r.base && r.base + 64 * r.size ≤ x.dramBase + x.dramSize then { r with gen := inc16 r.gen }
         else { gen := inc16 r.gen })
      else r }

/-- Full token buckets (R565). -/
def Chip.fillTokens (ch : Chip) (p : Nat) : Chip :=
  ch.modPart p fun q => { q with tokRead := ch.fill p 0, tokWrite := ch.fill p 1, tokOut := ch.fill p 2, tokIn := ch.fill p 3 }

/-- The links that partition `p` gives up, and that no other partition holds, are fenced; those that it takes anew return to service (R175,
R776). `x` is its new plate content. -/
def Chip.installLinks (ch : Chip) (p old : Nat) (x : PartPlate) : Chip :=
  let others := fun (n : Nat) => ch.defined.any fun q => q != p && bitOf (ch.part q).plate.linkMask n
  { ch with links := ch.links.mapIdx fun n l =>
      if bitOf old n && !bitOf x.linkMask n && !others n then { l with fenced := true }
      else if !bitOf old n && bitOf x.linkMask n && !others n then { l with fenced := l.kept }
      else l }

/-- The loader writes a preload of partition `p` line by line; committed bytes of an append region that stays bound refuse it, and so does a
bad line written in part (R81, R144, R444). -/
def Chip.preload (ch : Chip) (p a : Nat) (bytes : List Nat) : Chip :=
  (linesOf a bytes.length).foldl (fun c l =>
    let s := max l a
    let b := sliceB bytes (s - a) (min (l + 64) (a + bytes.length) - s)
    match c.writeCode s b.length with
    | 0 => c.plainStore s b
    | code => c.violateIf 0x71 p vWrite code s false) ch

/-- Install content in partition `p`, in place of what it holds (R172, R175, R176). -/
def Chip.install (ch : Chip) (p : Nat) (c : Content) : Chip :=
  let x := c.plate
  let old := ch.part p
  let new := fun (was : List Nat) (mask : Nat) => (maskList mask).filter fun i => !was.contains i
  let pods := if old.isDefined then ch.podsOf p else []
  let cus := if old.isDefined then ch.cusOf p else []
  let tes := if old.isDefined then ch.tesOf p else []
  let a1 := ch.forEach (pods.flatMap ch.coresInPod) fun k a => a.closeEpochs k
  let a2 := ((a1.carCut p cGENSTALE).installRegions p x).installLinks p (if old.isDefined then old.plate.linkMask else 0) x
  let a3 := (a2.forEach cus fun u a => a.modCu u fun y => { y.overlayFree with fenced := y.fenced || !bitOf x.cuMask u }).forEach (new cus x.cuMask)
    fun u a => a.modCu u fun y => { y with fenced := y.kept }
  let a4 := (a3.forEach tes fun u a => a.modTe u fun y =>
    { y.overlayFree (bitOf x.teMask u) with fenced := y.fenced || !bitOf x.teMask u }).forEach (new tes x.teMask)
    fun u a => a.modTe u fun y => { y with fenced := y.kept }
  let a5 := a4.forEach pods fun d a =>
    if bitOf x.podMask d then (a.modPod d fun y => { y.freeCtxs.emptyBanks with arrq := [], duty := 0 }).forEach (a.coresInPod d) fun k b => b.modCore k Core.replace
    else a.freePod d
  let a5' := a5.forEach (new pods x.podMask) fun d a => a.takePod d
  let a6 := (a5'.installObjects p c.tables).modPart p fun q => { q with
    isDefined := true
    plate := x
    fresh := true
    appliedAt := ch.time
    expert := q.expert && x.expert
    absorbNext := false
    applyDue := false
    startNow := x.startsAt q.plate ch.time
    tables := c.tables
    lnu := lnuInit c.tables
    halted := false
    coreRecoveries := 0
    partRecoveries := 0
    lastCore := 0
    recTimes := []
    extended := false
    prevExtended := false }
  let a7 := a6.forEach (a6.coresOf p) fun k a =>
    a.modCore k fun y => y.load x.coreWdg (c.tables.code.find? fun e => e.core == k)
  (c.tables.preload.foldl (fun a e => a.preload p e.1 e.2) a7).fillTokens p

/-- PLATE.RESULT takes a value, and vector 34 of the PF fires (R189, R926). -/
def Chip.setResult (ch : Chip) (code sub : Nat) (sec : Nat := 0xFFFF) (part : Nat := 0xFF) : Chip :=
  { ch with loader := { ch.loader with result := code + sub * 0x100 + sec * 0x10000 + part * 2 ^ 32 } }.fireOf 0 34 0

/-- Sub-codes used outside validation (R170). -/
abbrev sPENDING : Nat := 0x32
abbrev sPOWER : Nat := 0x33
abbrev sSTATE : Nat := 0x34
abbrev sLATE : Nat := 0x35
abbrev sSUPERSEDED : Nat := 0x36
abbrev sTWIN : Nat := 0x26
abbrev sFITBUDGET : Nat := 0x40
abbrev sFITSTORE : Nat := 0x41
abbrev sFITFALLBACK : Nat := 0x42
abbrev sFITPOOL : Nat := 0x43

/-- The pending overlay of partition `p`. -/
def Chip.pendingOf (ch : Chip) (p : Nat) : Option Pending := ch.loader.pending.getD p none

/-- Withdraw the pending overlay of partition `p`. -/
def Chip.withdraw (ch : Chip) (p : Nat) : Chip :=
  { ch with loader := { ch.loader with pending := ch.loader.pending.set p none } }

/-- A resource that an overlay takes is held by a partition other than `p` (R173, R174). -/
def Chip.poolLacks (ch : Chip) (p : Nat) (c : Content) : Bool :=
  (ch.defined.filter fun q => q != p).any fun q =>
    let y := (ch.part q).plate
    (y.podMask &&& c.plate.podMask) != 0 || (y.cuMask &&& c.plate.cuMask) != 0 || (y.teMask &&& c.plate.teMask) != 0 ||
    (y.dramBase < c.plate.dramBase + c.plate.dramSize && c.plate.dramBase < y.dramBase + y.dramSize) ||
    c.tables.burin.any (fun e => (ch.part q).tables.burin.any fun f => f.1 == e.1) ||
    c.tables.chans.any (fun e => (ch.part q).tables.chans.any fun f => f.id == e.id) ||
    c.tables.syncs.any (fun e => (ch.part q).tables.syncs.any fun f => f.obj == e.obj)

/-- A protected partition of a pair in PROOF or STANDBY (R153). -/
def Chip.protected (ch : Chip) (p : Nat) : Bool := ch.loader.twinMode != 0 && bitOf ch.loader.protectedMask p

/-- The overlay of partition `p` that applies at a boundary whose tick will have index `next`, or at one that waits for a tick's end (R174,
R175, R194, R725, R726); none while a fallback that an accepted share needs has yet to apply, which withdraws it (R234, R242). -/
def Chip.overlayReady (ch : Chip) (p next : Nat) : Option Pending :=
  match (if (ch.part p).fbPending then none else ch.pendingOf p) with
  | none => none
  | some o =>
    let twin := ch.protected p && ch.bound
    let commit := match (ch.tp p).ovCommit with | some (t, c) => c && t == o.applyTick | none => false
    if (o.applyTick != 0 && o.applyTick != next && !(ch.part p).applyDue) || ch.poolLacks p o.content || (ch.part p).recovery || (ch.part p).recovering ||
      ch.pwr.pwrFail || (twin && !commit) then none else some o

/-- The pending overlay of partition `p` applies at its boundary (R175, R219, R236). -/
def Chip.applyOverlay (ch : Chip) (p : Nat) (o : Pending) : Chip :=
  let a := (((ch.withdraw p).settleRetires p).retireAllJobs p cGENSTALE 0).install p o.content
  (a.modPart p fun q => { q with fallback := o.fallback, onFallback := false }).setResult cOK 0 0xFFFF p

/-- The pending fallback of partition `p` applies at its boundary; any other pending overlay is withdrawn (R192, R220, R234, R236). -/
def Chip.applyFallback (ch : Chip) (p : Nat) : Chip :=
  match (ch.part p).fallback with
  | [] => ch
  | c :: own =>
    let had := (ch.pendingOf p).isSome
    let a := (((ch.withdraw p).settleRetires p).retireAllJobs p cFIT sFITFALLBACK).install p c
    let b := a.modPart p fun q => { q with fallback := own, onFallback := true, fbPending := false }
    let b1 : Chip := { b with pwr := { b.pwr with needFallback := b.pwr.needFallback.filter fun i => i != p } }
    if had then b1.setResult cFIT sSUPERSEDED 0xFFFF p else b1

/-- A pending fallback of partition `p` may apply at a boundary whose tick will have index `next` (R234, R727). -/
def Chip.fallbackReady (ch : Chip) (p next : Nat) : Bool :=
  (ch.part p).fbPending && !(ch.part p).recovery && !(ch.part p).recovering && !ch.pwr.pwrFail &&
  (match (ch.tp p).fbAt with
    | some t => (next + 2 ^ 32 - t % 2 ^ 32) % 2 ^ 32 < 2 ^ 31
    | none => !(ch.protected p && ch.twin.pair == .paired))

end Sys2Proof.Machine
end

