-- ==== Sys2Proof/Machine/Share.lean ====
section
/-! DEFINITION. The power state, the fabric clock that a power share gives, and the test of a share offer (R210, R229 to R232, R868, R871,
R881, R882, R890, R891). -/
namespace Sys2Proof.Machine

/-- PWR.STATE.STATE (R893). -/
def PowerState.value : PowerState → Nat
  | .active => 0
  | .idle => 1
  | .enteringStandby => 2
  | .standby => 3
  | .exiting => 4
  | .dormantEntry => 5
  | .dormantReady => 6

/-- The state changes, with its event (R868, R891). -/
def Chip.setPower (ch : Chip) (st : PowerState) : Chip :=
  if ch.pwr.state == st then ch
  else ({ ch with pwr := { ch.pwr with state := st } } : Chip).ev 0x0B01 info 0xFF 0xFF cOK 0 (ch.pwr.state.value * 256 + st.value)

/-- What ends Idle (R871): fc runs again; the chip stays as it is in every other state. -/
def Chip.leaveIdle (ch : Chip) : Chip :=
  if ch.pwr.state == .idle then ({ ch with pwr := { ch.pwr with idleSince := none, scrubRun := false } } : Chip).setPower .active else ch

/-- The fc in MHz of the shares 60, 65, … W of a variant (R881). -/
def Variant.fcTable : Variant → List Nat
  | .ha720 => [600, 700, 750, 800, 850, 900, 950, 1000, 1050, 1100, 1150, 1200, 1250, 1250, 1300, 1300, 1350, 1350, 1400]
  | .ha716 => [600, 700, 750, 800, 850, 900, 950, 1000, 1050, 1100, 1150, 1200, 1250, 1300, 1400]
  | .ha708 => [600, 700, 900, 1150, 1400]

/-- The fc of a share; none outside PWR.SHARE and for no multiple of 5 W (R881, R882). -/
def Variant.fcOf (v : Variant) (share : Nat) : Option Nat :=
  if share % 5 == 0 && 60 ≤ share then v.fcTable[(share - 60) / 5]? else none

/-- The work admitted to partition `p` passes the work test at `fc` MHz (R210, R230). -/
def Chip.fitsAt (ch : Chip) (p fc : Nat) : Bool :=
  let q := ch.part p
  workTest q.plate.budget q.admCycles q.admUs fc

/-- The RT partitions that fail the work test at `fc` (R230). -/
def Chip.failing (ch : Chip) (fc : Nat) : List Nat := ch.defined.filter fun p => (ch.part p).plate.rt && !ch.fitsAt p fc

/-- Answer an offer in PWR.OFFER_RESULT (R882). -/
def Chip.offerAnswer (ch : Chip) (code part share : Nat) : Chip :=
  { ch with pwr := { ch.pwr with offerDone := true, offerCode := code, offerPart := part, offerShare := share } }

/-- An entry to Standby or Dormant is in progress (R882). -/
def PowerState.entering : PowerState → Bool
  | .enteringStandby => true
  | .dormantEntry => true
  | .dormantReady => true
  | _ => false

/-- PWR.OFFER OP OFFER (R229 to R232, R882, R890). -/
def Chip.offer (ch : Chip) (share : Nat) : Chip :=
  match ch.variant.fcOf share with
  | none => ch.offerAnswer cBOUNDS 0xFF share
  | some fc =>
    if ch.pwr.held.isSome || ch.pwr.state.entering then ch.offerAnswer cBUSY 0xFF share
    else
      let lack := if ch.pwr.fc ≤ fc then [] else (ch.failing fc).filter fun p => (ch.part p).fallback.isEmpty
      match lack with
      | p :: _ => (ch.offerAnswer cFIT p share).ev 0x0B03 warn 0xFF p cFIT 0 share
      | [] =>
        let a := ch.offerAnswer cOK 0xFF share
        { a with pwr := { a.pwr with held := some (share, fc, ch.time) } }

end Sys2Proof.Machine
end

