-- ==== Sys2Proof/Machine/Decide.lean ====
section
/-! DEFINITION. What the steward decides one at a time, in order of arrival: admissions, retirements and share offers (R213 to R218,
R882, R915). -/
namespace Sys2Proof.Machine

/-- The steward runs. -/
def Chip.stwRuns (ch : Chip) : Bool := ch.alive && ch.wdg.steward == .running

/-- The partition takes commands: a plate defines it and no UNLOAD has been written (R168, R900). -/
def Chip.takesCmds (ch : Chip) (p : Nat) : Bool := (ch.part p).isDefined && !ch.loader.unloading

/-- The lowest free job slot of a partition (R915). -/
def Part.freeSlot (q : Part) : Nat := ((List.range 64).find? fun i => !q.jobs.any fun j => j.slot == i).getD 0

/-- The steward decides an ADMIT_JOB of partition `p` (R213 to R216, R873, R915). -/
def Chip.decideJob (ch0 : Chip) (p : Nat) (x : HostCmd) : Chip :=
  let awake := ch0.pwr.state == .active || ch0.pwr.state == .idle
  let ch := ch0.leaveIdle
  let q := ch.part p
  let cyc := leAt x.bytes 8 4
  let us := leAt x.bytes 12 4
  let fits := q.admCycles + cyc ≤ q.plate.workCycles && q.admUs + us ≤ q.plate.fixedUs &&
    workTest q.plate.budget (q.admCycles + cyc) (q.admUs + us) ch.fcAdm
  if !awake || 64 ≤ q.jobs.length then ch.cmdCpl p x cBUSY 0 0
  else if q.plate.rt && !fits then ch.cmdCpl p x cFIT sFITBUDGET 0
  else
    let n := (q.admissions + 1) % 0x10000
    let slot := q.freeSlot
    let j : Job := { slot := slot, handle := n * 0x10000 + slot, cycles := cyc, us := us, tickCpl := bitOf x.flags 1, cmdId := x.cmdId }
    (ch.modPart p fun y => { y with jobs := y.jobs ++ [j], admissions := n }).cmdCpl p x cOK 0 j.handle

/-- RETIRE_JOB is decided: it completes at the end of the tick in which it arrives; a handle of no admitted job completes with BOUNDS
(R217, R915). -/
def Chip.decideRetire (ch : Chip) (p : Nat) (x : HostCmd) : Chip :=
  let h := leAt x.bytes 8 4
  if (ch.part p).jobs.any fun j => j.handle == h then
    ch.modPart p fun q => { q with jobs := q.jobs.map fun j => if j.handle == h then { j with retire := j.retire ++ [x] } else j }
  else ch.cmdCpl p x cBOUNDS 0 0

/-- One decision of the steward (R218). -/
def Chip.decideOne (ch : Chip) : Decision → Chip
  | .admission p x => if ch.takesCmds p then ch.decideJob p x else ch.cmdCpl p x cBOUNDS 0 0
  | .retire p x => ch.decideRetire p x
  | .offer w => ch.offer w

/-- The steward makes the decisions that wait, in order of arrival (R218). -/
def Chip.decideAll (ch : Chip) : Chip := ch.decisions.foldl Chip.decideOne { ch with decisions := [] }

/-- A decision is asked of the steward: made after those that wait, at once by one that runs (R218). -/
def Chip.submit (ch : Chip) (d : Decision) : Chip :=
  let a : Chip := { ch with decisions := ch.decisions ++ [d] }
  if a.stwRuns then a.decideAll else a

/-- PWR.OFFER OP OFFER is written (R218, R882). -/
def Chip.offerWrite (ch : Chip) (share : Nat) : Chip :=
  ({ ch with pwr := { ch.pwr with offerDone := false } } : Chip).submit (.offer share)

/-- The partition that a decision concerns. -/
def Decision.part? : Decision → Option Nat
  | .admission p _ => some p
  | .retire p _ => some p
  | .offer _ => none

end Sys2Proof.Machine
end

