-- ==== Sys2Proof/Machine/LerOps.lean ====
section
/-! DEFINITION. The last-events record at work: frames as bytes, frame writes, flush age, forwarding, release, patrol, the
start-up scan (R806 to R842, R856, R924). -/
namespace Sys2Proof.Machine

/-! ## Frames as bytes (R807) -/

/-- The first 60 bytes of a frame. -/
def Frame.header (f : Frame) : List Nat :=
  [0x4C, 0x45, 0x52, 0x46, 1, f.entries.length, f.flags, 0] ++ leBytes 8 f.sequence ++ leBytes 8 f.time ++ leBytes 4 f.bootCount ++
  List.replicate 32 0

/-- The bytes of a frame after its header: its entries, then zeros (R807). -/
def Frame.body (f : Frame) : List Nat :=
  let b := f.entries.flatMap Entry.bytes
  b ++ List.replicate (4032 - b.length) 0

/-- The 4,096 bytes of a frame (R807). -/
def Frame.bytes (f : Frame) : List Nat := f.header ++ leBytes 4 (crc32c (f.header ++ f.body)) ++ f.body

/-- The 4,096 bytes of slot `i` as stored, or the code that refuses them (R838): bytes of an erased or torn slot are free values
(DESIGN CHOICE, log entry 28). -/
def Chip.slotBytes (ch : Chip) (i : Nat) : Chip × Nat × List Nat :=
  let free := fun (_ : Unit) =>
    let (d, a) := ch.draw
    (a, cOK, (List.range 4096).map fun j => (Config.freeByte d j).toNat)
  match ch.ler.mram.lookup i with
  | some (.frame f) => (ch, cOK, f.bytes)
  | some (.torn true) => (ch, cECC, List.replicate 4096 0)
  | _ => free ()

/-- Slot `i` holds `x`; the list stays ascending. -/
def putSlot (i : Nat) (x : Slot) : List (Nat × Slot) → List (Nat × Slot)
  | [] => [(i, x)]
  | e :: r => if i < e.1 then (i, x) :: e :: r else if i == e.1 then (i, x) :: r else e :: putSlot i x r

/-! ## Frame writes (R819, R820, R834, R835) -/

/-- The record after a frame write has completed. -/
def Record.written (r : Record) (slot : Nat) (f : Frame) : Record :=
  { r with
    writing := none
    mram := putSlot slot (.frame f) r.mram
    newestSeq := f.sequence
    newestSlot := slot
    sealWrites := r.sealWrites - 1
    held := if bitOf f.flags 0 then r.held ++ [(f.sequence, slot)] else r.held }

/-- The next closed buffer may start after a frame write: the chip has power, and no reset waits for the write in flight alone (R828,
R829). -/
def Chip.writesOn (ch : Chip) : Bool := ch.pwr.powerGood && ch.boot.pendingReset != some .watchdog

/-- A frame write to MRAM completes and the next closed buffer starts (R820); a FATAL frame that could not be held is
counted (R835). The hold-up supply carries a write through the loss of the rails (R829); after a write that was in flight when RST_N fell the
controller is reset (R123, R828). -/
def execLerFrameWriteDone (c : Nat) (s : State) : Host.Outcome State Fault Refusal :=
  onChip c (fun ch =>
    match ch.ler.writing with
    | none => ch
    | some (slot, f) =>
      if ch.alive && ch.boot.stage == .reset then { ch with ler := { ch.ler with writing := none, mram := putSlot slot (.frame f) ch.ler.mram } } else
      let r := ch.ler.written slot f
      let lost := f.entries.any (fun e => e.cls == 3) && !bitOf f.flags 0
      let r1 := if lost then { r with freezeLost := r.freezeLost + 1 } else r
      let a : Chip := if ch.writesOn then ch.lerWork r1.startWrite else { ch with ler := r1 }
      if lost then a.ev 0x0004 warn 0xFF 0xFF cOK f.sequence else a) s

/-- A buffer whose oldest entry has waited FLUSH x 10 ms is closed (R819). -/
def execLerFlushAge (c : Nat) (s : State) : Host.Outcome State Fault Refusal :=
  onChip c (fun ch =>
    if ch.alive && ch.ler.fillSince + bitsOf ch.ler.lerCfg 8 8 * 10000000 ≤ ch.time then
      ch.lerWork (ch.ler.close ch.time 0)
    else ch) s

/-- The steward forwards the oldest entry that it has not forwarded to the chip event ring and to its partition's ring (R822,
R924). -/
def execEventForward (c : Nat) (s : State) : Host.Outcome State Fault Refusal :=
  onChip c (fun ch =>
    if !ch.alive || ch.wdg.steward != .running then ch
    else match ch.ler.fifo.findIdx? fun i => !i.forwarded with
      | none => ch
      | some i =>
        let e := (ch.ler.fifo.getD i {}).entry
        let r := { ch.ler with fifo := (ch.ler.fifo.modify i fun x => { x with forwarded := true }).filter fun x => !(x.recorded && x.forwarded) }
        let a := (ch.lerWork r).putChipEvent e.bytes
        if e.part < 8 then a.putEvent e.part e.bytes else a) s

/-! ## Release (R836) -/

/-- A release records LER_RELEASED and releases every window whose HOLD frame has been written. -/
def Chip.lerRelease (ch : Chip) (agent : Nat) : Chip :=
  let seq := ch.ler.newestSeq
  ({ ch with ler := { ch.ler with held := ch.ler.held.filter fun w => seq < w.1 } } : Chip).ev 0x0003 info agent 0xFF cOK seq

/-- LER_CTRL.FLUSH (R819). -/
def Chip.lerFlush (ch : Chip) : Chip := ch.lerWork (ch.ler.close ch.time 0)

/-- EVT.FATAL_ACK: the oldest unread FATAL entry is acknowledged; SMB_ALERT_N rises when none is left (R840). -/
def Chip.fatalAck (ch : Chip) : Chip :=
  match ch.ler.fatals with
  | [] => ch
  | _ :: rest =>
    let a : Chip := { ch with ler := { ch.ler with fatals := rest } }
    if rest.isEmpty then a.emit (.pin pinAlert true) else a

/-! ## Patrol and scan (R832, R833, R837, R856) -/

/-- The LER patrol reads a slot between frame writes: `bad` says the MRAM cannot correct it (R831, R856). -/
def execLerPatrol (c slot : Nat) (bad : Bool) (s : State) : Host.Outcome State Fault Refusal :=
  onChip c (fun ch =>
    if !ch.alive || ch.ler.writing.isSome || ch.ler.sealWrites != 0 || 4096 ≤ slot || !bad then ch
    else match ch.ler.mram.lookup slot with
      | none => ch
      | some _ => ({ ch with ler := { ch.ler with mram := putSlot slot (.torn true) ch.ler.mram } } : Chip).ev 0x0A07 err 0xFF 0xFF cECC slot) s

/-- The valid frames of the ring with their slots, by ascending sequence. -/
def Record.frames (r : Record) : List (Nat × Frame) :=
  (r.mram.filterMap fun e => match e.2 with
    | .frame f => some (e.1, f)
    | .torn _ => none).mergeSort fun a b => a.2.sequence ≤ b.2.sequence

/-- The scan of the ring at start-up (R832, R833, R837): sequence, slot, boot count, held windows, a torn slot to repair. -/
def Record.scan (r : Record) : Record :=
  let fs := r.frames
  let rel := ((fs.flatMap fun f => (f.2.entries.filter fun e => e.id == 3).map Entry.arg0).getLast?).getD 0
  let holds := (fs.filter fun f => bitOf f.2.flags 0 && rel < f.2.sequence).map fun f => (f.2.sequence, f.1)
  let held := holds.drop (holds.length - 4)
  match fs.getLast? with
  | none => { r with nextSeq := 1, nextSlot := 0, bootCount := 1, held := [], scanDone := true,
                     repaired := match r.mram.lookup 0 with | some (.torn _) => some 0 | _ => none }
  | some (slot, f) =>
    let r1 := { r with held := held, nextSeq := f.sequence + 1, newestSeq := f.sequence, newestSlot := slot,
                       bootCount := (f.bootCount + 1) % 2 ^ 32, scanDone := true }
    let nx := r1.findSlot 4096 (slot + 1)
    { r1 with nextSlot := nx, repaired := match r.mram.lookup nx with | some (.torn _) => some nx | _ => none }

/-- The scan of a chip's record: LER_REPAIRED names a torn slot (R833). -/
def Chip.lerScan (ch : Chip) : Chip :=
  let r := ch.ler.scan
  match r.repaired with
  | some i => ({ ch with ler := r } : Chip).ev 0x0002 info 0xFF 0xFF cOK i
  | none => ch.lerWork r

end Sys2Proof.Machine
end

