-- ==== Sys2Proof/Machine/Mailbox.lean ====
section
/-! DEFINITION. The steward mailbox and the exchange with the TMC; the chip state that the mailbox and the side-band report
(R113, R839, R928 to R936, R946, R960, R983, R984). -/
namespace Sys2Proof.Machine

/-! ## The chip's state (R113, R946, R960) -/

/-- The value of a stage (R946). -/
def Stage.value : Stage → Nat
  | .reset => 0
  | .fwRead => 1
  | .fwVerify => 2
  | .waitRelease => 3
  | .hbmTrain => 4
  | .selfTest => 5
  | .lerScan => 6
  | .ready => 7
  | .plateLoad => 8
  | .running => 9
  | .failed => 0x0F

/-- CHIP.BOOT_STAGE.STAGE: FAILED once the chip has halted on FATAL. -/
def Chip.stageNow (ch : Chip) : Nat := if ch.wdg.fatalHalt then 0x0F else ch.boot.stage.value

/-- Byte 2 of the side-band STATUS (R113, R960). -/
def Chip.stateByte (ch : Chip) : Nat :=
  let n := ch.stageNow
  if n == 0x0F then 6
  else match ch.pwr.state with
    | .enteringStandby => 7
    | .exiting => 7
    | .dormantEntry => 8
    | .dormantReady => 8
    | st =>
      if n ≤ 6 then 1
      else if n ≤ 8 then 2
      else match st with
        | .idle => 4
        | .standby => 5
        | _ => 3

/-- tray_type of R37. -/
def TrayType.value : TrayType → Nat
  | .st4 => 4
  | .st2 => 2

/-! ## Requests and responses (R930, R931) -/

/-- A field of MB_REQ. -/
def Mailbox.field (m : Mailbox) (off n : Nat) : Nat := leNat (Memory.bytes m.req off n)

/-- The service that MB_REQ names. -/
def Mailbox.service (m : Mailbox) : Nat := m.field 0 2

/-- The services (R932). -/
abbrev svINFO : Nat := 0x0001
abbrev svLERREAD : Nat := 0x0010
abbrev svLERRELEASE : Nat := 0x0011
abbrev svHOSTCAP : Nat := 0x0020
abbrev svTRAYCAP : Nat := 0x0021
abbrev svDORMANT : Nat := 0x0030

/-- The request names a listed service with a payload of its length and fields (R932). -/
def Mailbox.valid (m : Mailbox) : Bool :=
  let len := m.field 2 2
  match m.service with
  | 0x0001 => len == 0
  | 0x0010 => len == 16 && m.field 16 2 < 4096 && 1 ≤ m.field 18 1 && m.field 18 1 ≤ 15 && m.field 19 5 == 0 && m.field 24 8 % 64 == 0
  | 0x0011 => len == 0
  | 0x0020 => len == 2
  | 0x0021 => len == 0
  | 0x0030 => len == 0
  | _ => false

/-- The steward writes the response, clears BUSY, sets DONE and fires vector 33 (R930, R931). -/
def Chip.mbAnswer (ch : Chip) (code sub : Nat) (payload : List Nat) : Chip :=
  let m := ch.mbox
  let b := leBytes 2 m.service ++ leBytes 2 payload.length ++ leBytes 4 (m.field 4 4) ++ [code, sub, 0, 0, 0, 0, 0, 0] ++ payload
  ({ ch with mbox := { m with
    busy := false, goHeld := false, done := true, code := code, seq := m.field 4 1, rsp := Memory.write m.rsp 0 b } } : Chip).fireOf 0 33 0

/-- LER_READ: `n` frames from a slot, written to host memory until one fails: frames written, the code, the chip (R838, R839, R933). -/
def Chip.mbFrames : Nat → Nat → Nat → Nat → Chip → Nat × Nat × Chip
  | 0, _, _, done, ch => (done, cOK, ch)
  | n + 1, slot, addr, done, ch =>
    let busy := match ch.ler.writing with | some (i, _) => i == slot | none => false
    if busy then (done, cBUSY, ch)
    else
      let (a, code, bytes) := ch.slotBytes slot
      if code != cOK then (done, code, a)
      else if !a.busMaster 0 then (done, cPERM, a.hostPut 0 addr bytes)
      else Chip.mbFrames n ((slot + 1) % 4096) (addr + 4096) (done + 1) (a.hostPut 0 addr bytes)

/-- The request is placed for the TMC (R934, R983). -/
def Chip.tmcPlace (ch : Chip) (arg : Nat) : Chip :=
  { ch with mbox := { ch.mbox with
    tmcValid := true, tmcService := ch.mbox.service, tmcSeq := ch.mbox.field 4 2, tmcArg := arg, tmcSince := ch.time } }

/-- The steward serves the request in MB_REQ (R932 to R935). -/
def Chip.mbServe (ch : Chip) : Chip :=
  let m := ch.mbox
  if !m.valid then ((ch.violate 0x80 0xFF vCommand cBOUNDS 0 m.service).fireOf 0 35 0).mbAnswer cBOUNDS 0 []
  else match m.service with
    | 0x0001 => ch.mbAnswer cOK 0 (leBytes 4 ch.boot.fwVersion ++ leBytes 4 ch.ler.bootCount ++ [ch.tray.value, ch.boot.straps, ch.stateByte])
    | 0x0010 =>
      let (n, code, a) := Chip.mbFrames (m.field 18 1) (m.field 16 2) (m.field 24 8) 0 ch
      a.mbAnswer code 0 ([n, 0] ++ leBytes 2 a.ler.newestSlot ++ leBytes 8 a.ler.newestSeq)
    | 0x0011 => let seq := ch.ler.newestSeq; (ch.lerRelease 0x80).mbAnswer cOK 0 (leBytes 8 seq)
    | 0x0020 => ch.tmcPlace (m.field 16 2)
    | _ => ch.tmcPlace 0

/-- A GO: discarded while BUSY; else served, or held until the steward runs (R929, R931, R936). -/
def Chip.mbGo (ch : Chip) : Chip :=
  if ch.mbox.busy then { ch with mbox := { ch.mbox with overrun := true } }
  else
    let a : Chip := { ch with mbox := { ch.mbox with busy := true } }
    if a.wdg.steward == .running then a.mbServe else { a with mbox := { a.mbox with goHeld := true } }

/-- At its recovery entry the steward answers a request that was being served with TIMEOUT (R936). -/
def Chip.mbRecover (ch : Chip) : Chip :=
  if ch.mbox.busy && !ch.mbox.goHeld then
    ({ ch with mbox := { ch.mbox with tmcValid := false } } : Chip).mbAnswer cTIMEOUT 0 []
  else ch

/-- A steward that runs again serves a request that was held. -/
def Chip.mbResume (ch : Chip) : Chip :=
  if ch.mbox.goHeld then ({ ch with mbox := { ch.mbox with goHeld := false } } : Chip).mbServe else ch

/-! ## The TMC's answer (R934, R984) -/

/-- Bytes of the answer of a service with a code (R71, R932). -/
def tmcPayload (service code : Nat) : Nat :=
  if service == svHOSTCAP then (if code == cOK || code == cFIT then 3 else 0)
  else if service == svTRAYCAP && code == cOK then 20 else 0

/-- A write of word `i` of STEWARD.TMC_RSP: the code, and the chip. Word 0 delivers the answer when it matches. -/
def Chip.tmcRsp (ch : Chip) (i v : Nat) : Chip × Nat :=
  let m := ch.mbox
  if i != 0 then ({ ch with mbox := { m with tmcRsp := m.tmcRsp.set i v } }, cOK)
  else if m.tmcValid && bitsOf v 0 16 == m.tmcService && bitsOf v 16 16 == m.tmcSeq then
    let code := bitsOf v 32 8
    let words := (m.tmcRsp.drop 1).flatMap (leBytes 8)
    ((({ ch with mbox := { m with tmcValid := false } } : Chip).mbAnswer code (bitsOf v 40 8) (words.take (tmcPayload m.tmcService code))), cOK)
  else (ch, cBOUNDS)

/-- No answer has come within 1 s: the service is answered TIMEOUT and VALID cleared (R934). -/
def execTmcReqTimeout (c : Nat) (s : State) : Host.Outcome State Fault Refusal :=
  onChip c (fun ch =>
    if ch.alive && ch.wdg.steward == .running && ch.mbox.tmcValid && ch.mbox.tmcSince + 1000000000 ≤ ch.time then
      ({ ch with mbox := { ch.mbox with tmcValid := false } } : Chip).mbAnswer cTIMEOUT 0 []
    else ch) s

end Sys2Proof.Machine
end

