-- ==== Sys2Proof/Machine/Switch.lean ====
section
/-! DEFINITION. The tray flash, the flash switch and the chips that read through it; the staging region (R32, R35, R36, R132, R162,
R943, R954). -/
namespace Sys2Proof.Machine

/-- 64 MiB. -/
abbrev mib64 : Nat := 0x4000000

/-- The first byte of the staging region (R132). -/
def Chip.staging (ch : Chip) : Nat := ch.variant.dramBytes - mib64

/-- The copy of `len` bytes from the source into the staging region is complete with a code (R162). -/
def Chip.copied (ch : Chip) (bytes : List Nat) (code : Nat) : Chip :=
  let a := if code == cOK then ch.store ch.staging bytes else ch
  { a with loader := { a.loader with staged := bytes, copyCode := code } }

/-- Chip `c` of the tray. -/
def State.chip (s : State) (c : Nat) : Chip := s.chips.getD c {}

/-- Change chip `c`. -/
def State.modChip (s : State) (c : Nat) (f : Chip → Chip) : State := { s with chips := s.chips.modify c f }

/-- Change the TMC. -/
def State.modTmc (s : State) (f : Tmc → Tmc) : State := { s with tmc := f s.tmc }

/-! ## The tray flash (R32) -/

/-- Offset of slot `i` of a region of the tray flash: 1 TMC firmware, 2 steward firmware, 3 plate store (R32, R71). -/
def flashBase (region i : Nat) : Nat :=
  if region == 1 then 0x0100000 + i * 0x400000
  else if region == 2 then 0x0900000 + i * 0x400000
  else 0x1100000 + i * 0x800000

/-- Bytes of a slot of a region (R32). -/
def flashSize (region : Nat) : Nat := if region == 3 then 0x800000 else 0x400000

/-- Offset of a configuration copy (R38). -/
def copyBase (i : Nat) : Nat := 0x7100000 + i * 0x80000

/-- Bytes of the tray flash. -/
def Tmc.flashBytes (t : Tmc) (a n : Nat) : List Nat := Memory.bytes t.flash a n

/-! ## The flash switch (R35) -/

/-- The chip wants to read the tray flash and has no grant: its boot ROM a firmware image, its steward a plate. -/
def Chip.wantsFlash (ch : Chip) : Bool :=
  ch.alive && !ch.wdg.fatalHalt && !ch.boot.granted && (ch.boot.stage == .fwRead || (ch.loader.kind == .boot && ch.loader.state == .copying))

/-- The flash switch is granted to a chip: a plate is read into its staging region (R954). -/
def Chip.granted (ch : Chip) (t : Tmc) : Chip :=
  let a : Chip := { ch with boot := { ch.boot with granted := true } }
  if ch.boot.stage == .fwRead then a
  else
    let base := flashBase 3 ch.boot.bootSlot
    a.copied (t.flashBytes base (min 0x800000 (leNat (t.flashBytes (base + 8) 4)))) cOK

/-- The free switch goes to the chip that waits first. -/
def State.giveSwitch (s : State) : State :=
  match s.tmc.holder, s.tmc.asking with
  | none, c :: rest => (s.modTmc fun t => { t with holder := some c, asking := rest }).modChip c fun ch => ch.granted s.tmc
  | _, _ => s

/-- Requests of the chips of `mask` that arrive together, in ascending index after those that wait. -/
def State.askSwitch (s : State) (mask : Nat) : State :=
  let l := (List.range s.chips.length).filter fun c =>
    bitOf mask c && (s.chip c).wantsFlash && s.tmc.holder != some c && !s.tmc.asking.contains c
  (s.modTmc fun t => { t with asking := t.asking ++ l }).giveSwitch

/-- The grant or the request of a chip ends, and the next is granted. -/
def State.dropSwitch (s : State) (c : Nat) : State :=
  (s.modTmc fun t => { t with holder := if t.holder == some c then none else t.holder, asking := t.asking.filter fun x => x != c }).giveSwitch

end Sys2Proof.Machine
end

