-- ==== Sys2Proof/Machine/Recovery.lean ====
section
/-! DEFINITION. The reclaim engine and the steward's recoveries: fencing and reclaiming a core, fenced units, core and partition
recovery (R403, R430 to R432, R766 to R781). -/
namespace Sys2Proof.Machine

/-- PART.STATUS.RECOVERY: a partition recovery runs, or a core has faulted and not started a tick since (R768). -/
def Chip.recRefresh (ch : Chip) (p : Nat) : Chip :=
  ch.modPart p fun q => { q with recovery := !q.halted && (q.recovering || (ch.coresOf p).any fun k => (ch.core k).inRec) }

/-! ## Cores (R403, R430, R431, R777, R778) -/

/-- The cores that wait on a mutex which core `k` holds end their waits with FENCED (R431). -/
def Chip.fenceMutexes (ch : Chip) (k : Nat) : Chip :=
  (ch.syncs.filter fun o => o.kind == kMUTEX && o.value == k + 1).foldl
    (fun a o => o.waiters.foldl (fun b w => b.endWait w.1 cFENCED) a) ch

/-- Fence core `k` (R777): waits on its channels and mutexes end with FENCED, its carousel is disarmed. -/
def Chip.fenceCore (ch : Chip) (k : Nat) : Chip :=
  if ch.isFenced k then ch
  else ((((((ch.dropLoads k 0).unqueue k).modCore k Core.fenceNow).fenceChans k).fenceMutexes k).carFence k)

/-- The coder units that core `k` owns. -/
def Chip.cusOwned (ch : Chip) (k : Nat) : List Nat := (List.range ch.cus.length).filter fun u => (ch.cu u).owner == some k

/-- The tree engines that core `k` owns. -/
def Chip.tesOwned (ch : Chip) (k : Nat) : List Nat := (List.range ch.tes.length).filter fun u => (ch.te u).owner == some k

/-- The reclaim procedure on core `k`; its event counts the resources that had `k` for their owner (R778; DEDUCED, log entry 16). -/
def Chip.reclaim (ch : Chip) (k : Nat) : Chip :=
  let car := (ch.part (ch.partNo k)).carousel
  let a0 := ch.fenceCore k
  let (a1, n1) := a0.reclaimCore k
  let (a2, n2) := a1.reclaimCtxs k
  let cu := a2.cusOwned k
  let te := a2.tesOwned k
  let a3 := (a2.forEach cu fun u a => a.reclaimCu u).forEach te fun u a => a.reclaimTe u
  (a3.reclaimBarriers (a3.partNo k)).ev 0x0501 info k (ch.partNo k) cOK (n1 + n2 + b2n (car.armed && car.ring.contains k) + cu.length + te.length)

/-- A fenced core becomes PARKED (R770, R777). -/
def Chip.unfenceCore (ch : Chip) (k : Nat) : Chip :=
  if ch.isFenced k then ch.modCore k fun x => { x with state := .parked, reclaimed := false } else ch

/-! ## Units (R774 to R776) -/

/-- The kinds of unit that are fenced: a pod, the SFU of a core, a coder unit, a tree engine, the LNU of a link. -/
inductive FenceUnit where
  | pod (n : Nat)
  | sfu (n : Nat)
  | cu (n : Nat)
  | te (n : Nat)
  | lnu (n : Nat)
  deriving DecidableEq, Repr

/-- A kind and number as operands name it. -/
def FenceUnit.of (kind n : Nat) : Option FenceUnit :=
  match kind with
  | 0 => some (.pod n)
  | 1 => some (.sfu n)
  | 2 => some (.cu n)
  | 3 => some (.te n)
  | 4 => some (.lnu n)
  | _ => none

/-- The unit that an agent number names (R762). -/
def FenceUnit.ofAgent (a : Nat) : Option FenceUnit :=
  if 0x40 ≤ a && a < 0x48 then some (.pod (a - 0x40))
  else if 0x50 ≤ a && a < 0x54 then some (.cu (a - 0x50))
  else if 0x58 ≤ a && a < 0x5A then some (.te (a - 0x58))
  else if 0x60 ≤ a && a < 0x66 then some (.lnu (a - 0x60))
  else none

/-- Its agent number in events. -/
def FenceUnit.agent : FenceUnit → Nat
  | .pod n => 0x40 + n
  | .sfu n => n
  | .cu n => 0x50 + n
  | .te n => 0x58 + n
  | .lnu n => 0x60 + n

/-- The chip has the unit. -/
def Chip.hasUnit (ch : Chip) : FenceUnit → Bool
  | .pod n => n < ch.pods.length
  | .sfu n => n < ch.cores.length
  | .cu n => n < ch.cus.length
  | .te n => n < ch.tes.length
  | .lnu n => n < ch.links.length

/-- The unit is fenced, the TIMEs of its fences, and whether it is kept so. -/
def Chip.unitFence (ch : Chip) : FenceUnit → Bool × List Nat × Bool
  | .pod n => let x := ch.pod n; (x.fenced, x.fences, x.kept)
  | .sfu n => let x := ch.core n; (x.sfuFenced, x.sfuFences, x.sfuKept)
  | .cu n => let x := ch.cu n; (x.fenced, x.fences, x.kept)
  | .te n => let x := ch.te n; (x.fenced, x.fences, x.kept)
  | .lnu n => let x := ch.link n; (x.fenced, x.fences, x.kept)

/-- Set them. -/
def Chip.setFence (ch : Chip) (u : FenceUnit) (f : Bool) (l : List Nat) (kept : Bool) : Chip :=
  match u with
  | .pod n => ch.modPod n fun x => { x with fenced := f, fences := l, kept := kept }
  | .sfu n => ch.modCore n fun x => { x with sfuFenced := f, sfuFences := l, sfuKept := kept }
  | .cu n => ch.modCu n fun x => { x with fenced := f, fences := l, kept := kept }
  | .te n => ch.modTe n fun x => { x with fenced := f, fences := l, kept := kept }
  | .lnu n => ch.modLink n fun x => { x with fenced := f, fences := l, kept := kept }

/-- The partition that holds a unit, 0xFF for none. -/
def Chip.unitPart (ch : Chip) (u : FenceUnit) : Nat :=
  ((List.range 8).find? fun p => (ch.part p).isDefined && (match u with
    | .pod n => bitOf (ch.part p).plate.podMask n
    | .sfu n => bitOf (ch.part p).plate.podMask (podOf n)
    | .cu n => bitOf (ch.part p).plate.cuMask n
    | .te n => bitOf (ch.part p).plate.teMask n
    | .lnu n => bitOf (ch.part p).plate.linkMask n)).getD 0xFF

/-- The commands of a stream context end: those of its running descriptors with `run`, the others with `wait`; it is FREE under
a new generation (R774). -/
def Chip.ctxFence (ch : Chip) (p x run wait : Nat) : Chip :=
  let y := ch.ctx p x
  let fst := y.begun.filterMap fun w => w.item.cmd
  let chn := match y.q with
    | .chain r :: _ => [r.cmd]
    | _ => []
  let snd := (match y.q with
    | .chain _ :: t => t
    | t => t).filterMap SeItem.cmd
  let a := ch.modCtx p x fun z => { ({} : SeCtx) with gen := inc16 z.gen }
  let b := (fst ++ chn).foldl (fun a u => a.completeCore u run 0) a
  snd.foldl (fun a u => a.completeCore u wait 0) b

/-- The commands of a list end, the first with `run` and the others with `wait`. -/
def Chip.endCmds (ch : Chip) (run wait : Nat) : List UnitCmd → Chip
  | [] => ch
  | u :: r => r.foldl (fun a v => a.complete v wait 0) (ch.complete u run 0)

/-- The stream engine of pod `n` stops: commands of its cores that wait on the carousel complete with `code`, and the carousel, which it
carries, is lost until it is armed again (R579, R774, R775). -/
def Chip.carUnit (ch : Chip) (n code : Nat) : Chip :=
  match ch.partOfPod n with
  | none => ch
  | some p =>
    let x := (ch.part p).carousel
    if !x.armed || !x.ring.any (fun k => podOf k == n) then ch
    else
      let mine := x.waiting.filter fun e => podOf e.1.core == n
      (mine.foldl (fun a e => a.complete e.1 code 0) (ch.modCar p fun y => { y with waiting := y.waiting.filter fun e => podOf e.1.core != n })).carCut p cOK

/-- A unit stops: its running command completes with `run`, its waiting ones with `wait`; its generation increments (R774). -/
def Chip.unitStop (ch : Chip) (u : FenceUnit) (run wait : Nat) : Chip :=
  match u with
  | .pod n =>
    let q := (ch.pod n).arrq
    let a := ((ch.carUnit n wait).modPod n fun x =>
      let y := if x.arrq.any fun e => e.2 && e.1.onMac then x.countMma else x
      { y.emptyBanks with arrq := [], gen := inc16 x.gen }).forEach (List.range 32) fun x a => a.ctxFence n x run wait
    q.foldl (fun b e => b.complete e.1 (if e.2 then run else wait) 0) a
  | .sfu n => (ch.modCore n fun x => { x with rowq := [], rowPaid := [] }).endCmds run wait (ch.core n).rowq
  | .cu n => ((ch.cuCut n).modCu n fun x => { x.closeAll with q := [], owner := none, gen := inc16 x.gen }).endCmds run wait (ch.cu n).q
  | .te n => (ch.teStop n run wait).modTe n fun x => { x with owner := none, gen := inc16 x.gen }
  | .lnu n => ch.modLink n fun x => { x with gen := inc16 x.gen }

/-- A fenced unit's plate content is installed again; content that no plate defines is lost (R775; DEDUCED, log entry 27). -/
def Chip.reinstall (ch : Chip) (u : FenceUnit) : Chip :=
  let a := ch.setFence u false (ch.unitFence u).2.1 false
  match u with
  | .te n => a.modTe n fun x => { x with store := [], status := 0 }
  | .lnu n =>
    let fresh := fun (q : Part) (e : Nat × List LnuChan) => match q.tables.profile e.1 with
      | some pr => if pr.link == n then (e.1, List.replicate pr.channels {}) else e
      | none => e
    { a with parts := a.parts.map fun q => { q with lnu := q.lnu.map (fresh q) } }
  | _ => a

/-- A unit detects an uncorrectable error in its own state (R774, R776). -/
def execUnitInternalUncorr (c kind n : Nat) (s : State) : Host.Outcome State Fault Refusal :=
  onChip c (fun ch =>
    match FenceUnit.of kind n with
    | none => ch
    | some u =>
      let (fd, l, kept) := ch.unitFence u
      if !ch.alive || !ch.hasUnit u || fd then ch
      else
        let l1 := ch.time :: l.filter fun t => ch.time < t + 60000000000
        let third := 3 ≤ l1.length
        ((ch.unitStop u cECC cFENCED).setFence u true l1 (kept || third)).ev 0x0503 err u.agent (ch.unitPart u) cECC 0 (b2n third)) s

/-- The steward reinstalls a fenced unit and unfences it (R775); one that is kept fenced stays so (R776). -/
def execUnitReinstall (c kind n : Nat) (s : State) : Host.Outcome State Fault Refusal :=
  onChip c (fun ch =>
    match FenceUnit.of kind n with
    | none => ch
    | some u =>
      let (fd, _, kept) := ch.unitFence u
      if !ch.alive || !fd || kept || ch.wdg.steward != .running || ch.wdg.fatalHalt then ch else ch.reinstall u) s

/-! ## The reclaim engine (R777, R780) -/

/-- The engine performs an operation on an agent; EVT.RECLAIM keeps the agent and the code (R777, R799). -/
def Chip.reclaimOp (ch : Chip) (op agent : Nat) : Chip :=
  let (a, code) :=
    if op == 0 then (ch, ch.rcv.reclaimCode)
    else if agent < 0x40 then
      if agent < ch.cores.length then
        ((match op with
          | 1 => ch.fenceCore agent
          | 2 => ch.reclaim agent
          | _ => ch.unfenceCore agent), cOK)
      else (ch, cABSENT)
    else match FenceUnit.ofAgent agent with
      | none => (ch, cBOUNDS)
      | some u =>
        if !ch.hasUnit u then (ch, cABSENT)
        else
          let (fd, l, kept) := ch.unitFence u
          match op with
          | 3 => (if fd && !kept then ch.setFence u false l false else ch, cOK)
          | o =>
            let b := if fd then ch else (ch.unitStop u cFENCED cFENCED).setFence u true l kept
            (if o == 2 then b.ev 0x0501 info agent (ch.unitPart u) cOK 0 else b, cOK)
  { a with rcv := { a.rcv with reclaimAgent := agent, reclaimCode := code } }

/-! ## Core recovery (R767 to R771) -/

/-- A partition recovery begins; a fourth within 60 s halts the partition (R742, R771 to R773). -/
def Chip.beginRecovery (ch : Chip) (p : Nat) : Chip :=
  let q := ch.part p
  if !q.isDefined || q.recovering || q.halted then ch
  else
    let recent := q.recTimes.filter fun t => ch.time ≤ t + 60000000000
    if 3 ≤ recent.length then
      let a := (if q.running then ch.tickStop p else ch).forEach (ch.coresOf p) fun k b => (b.fenceCore k).modCore k fun x => { x with inRec := false }
      (((a.modPart p fun x => { x with halted := true }).recRefresh p).sendFail (2 ^ p) failRecovery).ev 0x0407 err 0x70 p
    else
      ((ch.modPart p fun x => { x with recovering := true, partRecoveries := (x.partRecoveries + 1) % 0x10000, recTimes := ch.time :: recent }).recRefresh p).sendFail
        (2 ^ p) failRecovery

/-- The steward recovers a faulted core: it is reclaimed, or its partition is recovered after faults in three consecutive work
ticks (R767, R771). -/
def execCoreFaultReclaim (c k : Nat) (s : State) : Host.Outcome State Fault Refusal :=
  onChip c (fun ch =>
    let x := ch.core k
    let p := ch.partNo k
    if !x.recover || ch.wdg.steward != .running || ch.wdg.fatalHalt then ch
    else
      let a := ch.modCore k fun y => { y with recover := false }
      if (ch.part p).halted || (ch.part p).recovering then a
      else if 3 ≤ x.faultRun then (a.modCore k fun y => { y with faultRun := 0 }).beginRecovery p
      else
        let b := ((a.reclaimOp 2 k).modCore k fun y => { y with reclaimed := true })
        b.modPart p fun q => { q with coreRecoveries := (q.coreRecoveries + 1) % 0x10000, lastCore := k }) s

/-- After the tick has ended the steward unfences a reclaimed core, which becomes PARKED (R770). -/
def execCoreUnfenceAfterTick (c k : Nat) (s : State) : Host.Outcome State Fault Refusal :=
  onChip c (fun ch =>
    let x := ch.core k
    let q := ch.part (ch.partNo k)
    if x.reclaimed && !q.running && !q.halted && !q.recovering && ch.wdg.steward == .running && !ch.wdg.fatalHalt then ch.reclaimOp 3 k
    else ch) s

/-- Every unit that partition `p` holds. -/
def Chip.unitsOf (ch : Chip) (p : Nat) : List FenceUnit :=
  (ch.podsOf p).map FenceUnit.pod ++ (ch.coresOf p).map FenceUnit.sfu ++ (ch.cusOf p).map FenceUnit.cu ++
  (ch.tesOf p).map FenceUnit.te ++ (ch.linksOf p).map FenceUnit.lnu

/-- The steps of a partition recovery (R772). -/
def execPartitionRecovery (c p : Nat) (s : State) : Host.Outcome State Fault Refusal :=
  onChip c (fun ch =>
    let q := ch.part p
    if !q.isDefined || !q.recovering || ch.wdg.steward != .running || ch.wdg.fatalHalt then ch
    else
      let cores := ch.coresOf p
      let a1 := if q.running then ch.tickStop p else ch
      let a2 := a1.forEach cores fun k a => a.reclaimOp 2 k
      let a3 := (a2.unitsOf p).foldl (fun a u => let f := a.unitFence u; if f.1 && !f.2.2 then a.reinstall u else a) a2
      let a4 := a3.forEach cores fun k a => (a.reclaimOp 3 k).modCore k fun x => { x with inRec := false, recover := false, faultRun := 0 }
      ((a4.modPart p fun x => { x with recovering := false }).recRefresh p).ev 0x0406 info 0x70 p) s

end Sys2Proof.Machine
end

