-- ==== Sys2Proof/Machine/Twin.lean ====
section
/-! DEFINITION. The twin engine: pairing, heartbeats, proofs, checkpoints, takeover triggers, switches, separation
(R717 to R756). -/
namespace Sys2Proof.Machine

/-- SOLO, PROOF and STANDBY (R153). -/
abbrev mSOLO : Nat := 0
abbrev mPROOF : Nat := 1
abbrev mSTANDBY : Nat := 2

/-- A message of the management lane arrives: the chip runs and LINK[0] is UP (R679, R717). -/
def onTwinMsg (c : Nat) (f : Chip → Chip) (s : State) : Host.Outcome State Fault Refusal :=
  onChip c (fun ch => if ch.alive && ch.linkUp 0 then f ch else ch) s

/-- The twin engine of a chip that runs acts. -/
def onTwinEngine (c : Nat) (f : Chip → Chip) (s : State) : Host.Outcome State Fault Refusal :=
  onChip c (fun ch => if ch.alive then f ch else ch) s

/-- Milliseconds since the side-band last served a transaction, at most 65,535 (R717). -/
def Chip.sbAge (ch : Chip) : Nat := min 65535 ((ch.time - ch.sb.served) / 1000000)

/-- The leader of a protected partition: the chip on which its source is not twin (R722). -/
def Chip.leader (ch : Chip) (p : Nat) : Bool := (ch.part p).plate.source != 2

/-- The protected partitions. -/
def Chip.protectedList (ch : Chip) : List Nat := ch.defined.filter ch.protected

/-! ## Pairing (R720, R723, R728, R749) -/

/-- The PAIR message of the chip (R717). -/
def Chip.pairMsg (ch : Chip) : PairMsg :=
  { baseId := ch.loader.baseId, twinPlate := ch.loader.twinPlateId, mode := ch.loader.twinMode, mask := ch.loader.protectedMask,
    contract := 3
    parts := ch.protectedList.map fun p => let x := (ch.part p).plate; (x.period, x.source, b2n (bitOf x.linkMask 0))
    index := ch.protectedList.map fun p => (ch.part p).tickIndex }

/-- The first condition of R720 that fails, or 0. -/
def pairFails (a b : PairMsg) : Nat :=
  if a.mode != b.mode then 1
  else if a.twinPlate != b.baseId || b.twinPlate != a.baseId then 2
  else if a.mask != b.mask then 3
  else if a.contract != b.contract then 4
  else if a.parts.length == b.parts.length &&
      (a.parts.zip b.parts).all fun x => x.1.1 == x.2.1 && ((x.1.2.1 == 2) != (x.2.2.1 == 2)) then 0
  else 5

/-- The pair enters PAIRED (R723); at a REJOIN each protected partition takes the larger index plus one at its next tick start,
and a standby is not ready (R728, R749). -/
def Chip.enterPaired (ch : Chip) (m : PairMsg) : Chip :=
  let l := (List.range m.index.length).zip ch.protectedList
  let a := l.foldl (fun b e => b.modTp e.2 fun y => { y with
      intraDue := true
      takeover := if ch.twin.rejoin then false else y.takeover
      ready := false
      trigger := none
      nextIndex := if ch.twin.rejoin then some ((max (b.part e.2).tickIndex (m.index.getD e.1 0) + 1) % 2 ^ 32) else y.nextIndex }) ch
  { a with twin := { a.twin with pair := .paired, rejoin := false, hbTime := ch.time, hbSince := ch.time, hbLost := false } }

/-- Compare the twin's PAIR with the chip's own (R720). -/
def Chip.pairCheck (ch : Chip) : Chip :=
  match ch.twin.peer with
  | none => ch
  | some m =>
    match pairFails ch.pairMsg m with
    | 0 => ch.enterPaired m
    | n => ({ ch with twin := { ch.twin with pair := .mismatch, rejoin := false } }).ev 0x0702 err 0x72 0xFF cOK 0 n

/-- The fields of a PAIR message as it is sent. -/
def PairMsg.fields (m : PairMsg) : List Nat :=
  [m.baseId, m.twinPlate, m.mode, m.mask, m.contract] ++ m.parts.flatMap (fun x => [x.1, x.2.1, x.2.2]) ++ m.index

/-- Send PAIR and compare what the twin has already sent (R720). -/
def Chip.sendPair (ch : Chip) (rejoin : Bool) : Chip :=
  let a : Chip := { ch with twin := { ch.twin with pair := .pairing, rejoin := rejoin } }
  (a.twinSend 2 0xFF 0 a.pairMsg.fields).pairCheck

/-- A base plate in a mode other than SOLO has loaded and LINK[0] is UP: the first PAIR is sent (R720, R722). -/
def Chip.tryPair (ch : Chip) : Chip :=
  if ch.loader.state == .loaded && ch.loader.twinMode != mSOLO && ch.linkUp 0 && ch.twin.pair == .unpaired then ch.sendPair false else ch

/-- The twin's PAIR arrives (R720). -/
def execTwinPair (c baseId twinPlate mode mask contract : Nat) (parts : List (Nat × Nat × Nat)) (index : List Nat) (s : State) :
    Host.Outcome State Fault Refusal :=
  onTwinMsg c (fun ch =>
    let m : PairMsg := { baseId := baseId, twinPlate := twinPlate, mode := mode, mask := mask, contract := contract, parts := parts, index := index }
    let a : Chip := { ch with twin := { ch.twin with peer := some m, twinPlate := baseId } }
    if ch.twin.pair == .pairing then a.pairCheck else a) s

/-! ## Loss of the twin (R742, R745) -/

/-- The twin is lost for the partitions of `mask`: a standby waits for its tick start to take over and its switch is abandoned;
a chip that is standby for none enters DEGRADED at once (R722, R742, R743). -/
def Chip.twinLost (ch : Chip) (mask cause : Nat) (linkOnly : Bool) : Chip :=
  if !ch.bound then ch
  else
    let standby := ch.protectedList.filter fun p => ch.loader.twinMode == mSTANDBY && bitOf mask p && !(ch.tp p).active
    let a := ch.forEach standby fun p b => b.modTp p fun y => { y with trigger := some (y.trigger.getD (cause, linkOnly)), switch := none }
    if standby.isEmpty then { a with twin := { a.twin with pair := .degraded } } else a

/-- Link logic sends HEARTBEAT every millisecond (R717). -/
def execTwinHeartbeatSend (c : Nat) (s : State) : Host.Outcome State Fault Refusal :=
  onTwinMsg c (fun ch =>
    if ch.twin.hbSent.all fun t => t + 1000000 ≤ ch.time then
      ({ ch with twin := { ch.twin with hbSent := some ch.time } } : Chip).twinSend 3 0xFF 0 [ch.wdg.heartbeat, ch.ler.bootCount, ch.sbAge]
    else ch) s

/-- A HEARTBEAT arrives: the twin's heartbeat, boot count and SB_AGE (R717, R752, R754). -/
def execTwinHeartbeatMsg (c hb boot age : Nat) (s : State) : Host.Outcome State Fault Refusal :=
  onTwinMsg c (fun ch => { ch with twin := { ch.twin with
    hbTime := ch.time
    hbSince := if hb == ch.twin.hbValue then ch.twin.hbSince else ch.time
    hbValue := hb
    hbBoot := boot
    hbAge := age
    hbLost := false } }) s

/-- No HEARTBEAT for 20 ms triggers takeover (R742). -/
def execTwinHeartbeatLoss (c : Nat) (s : State) : Host.Outcome State Fault Refusal :=
  onTwinEngine c (fun ch =>
    if ch.bound && !ch.twin.hbLost && ch.twin.hbTime + 20000000 ≤ ch.time then
      { ch with twin := { ch.twin with hbLost := true } }.twinLost 0xFF lostHeartbeat false
    else ch) s

/-- A FAIL message triggers takeover of the partitions it names (R742). -/
def execTwinFail (c mask cause : Nat) (s : State) : Host.Outcome State Fault Refusal :=
  onTwinMsg c (fun ch => ch.twinLost mask cause false) s

/-- Takeover of partition `p` at its tick start (R743, R745). -/
def Chip.takeOver (ch : Chip) (p : Nat) : Chip :=
  match (ch.tp p).trigger with
  | none => ch
  | some (cause, linkOnly) =>
    let a := ch.modTp p fun y => { y with active := true, takeover := true, intraDue := true, provisional := linkOnly, trigger := none, switch := none }
    ({ a with twin := { a.twin with takeovers := (a.twin.takeovers + 1) % 2 ^ 32, pair := .degraded } }).ev
      0x0703 err 0x72 p cOK (ch.tp p).ckptTick cause

/-! ## Proofs (R729 to R738) -/

/-- Proof slot `i` of partition `p`. -/
def Chip.slot (ch : Chip) (p i : Nat) : ProofSlot := (ch.tp p).slots.getD i {}

/-- Change proof slot `i` of partition `p`. -/
def Chip.modSlot (ch : Chip) (p i : Nat) (f : ProofSlot → ProofSlot) : Chip :=
  ch.modTp p fun y => { y with slots := y.slots.modify i f }

/-- An EVENT object that partition `p` holds. -/
def Chip.holdsEvent (ch : Chip) (p n : Nat) : Bool :=
  match ch.sync n with
  | some o => o.part == p && o.kind == kEVENT
  | none => false

/-- Set an EVENT object of partition `p`, as a POST does (R421, R733, R739). -/
def Chip.setEvent (ch : Chip) (p n : Nat) : Chip :=
  if ch.holdsEvent p n then (match ch.postTo n 0 1 with | .ok a => a | .error _ => ch) else ch

/-- A slot's outcome is decided (R732 to R734, R737). -/
def Chip.decide (ch : Chip) (p i : Nat) (o : Proof) (reason code : Nat) : Chip :=
  let x := ch.slot p i
  let enc := match x.mine, x.theirs with
    | some a, some b => if a.dec then b else a
    | some a, none => a
    | none, _ => {}
  let a := (ch.modSlot p i fun y => { y with outcome := o, reason := reason, code := code, posting := false }).setEvent p x.event
  match o with
  | .mismatch => (a.modTp p fun y => { y with mismatches := (y.mismatches + 1) % 2 ^ 32, intraDue := true }).ev
      0x0701 err 0x72 p cMISMATCH 0 i
  | .matched => if enc.key && !enc.dec then a.modTp p fun y => { y with intraDue := false } else a
  | _ => a

/-- Both digests are held: the first case of R732 that matches. -/
def Chip.compare (ch : Chip) (p i : Nat) : Chip :=
  match (ch.slot p i).mine, (ch.slot p i).theirs with
  | some a, some b =>
    let enc := if a.dec then b else a
    if a.dec == b.dec then ch.decide p i .mismatch 4 0
    else if !enc.key && enc.intra then ch.decide p i .mismatch 3 0
    else if a.len != b.len then ch.decide p i .mismatch 2 0
    else if a.crc != b.crc then ch.decide p i .mismatch 1 0
    else ch.decide p i .matched 0 0
  | _, _ => ch

/-- The pair checks proofs of partition `p` (R732); after a REJOIN from the next tick start on, which takes the index of R728 (R749). -/
def Chip.proves (ch : Chip) (p : Nat) : Bool :=
  ch.twin.pair == .paired && (ch.tp p).nextIndex.isNone && ch.twin.detaching.isNone && ch.protected p && ch.loader.twinMode == mPROOF

/-- A write to PROOF_GO of partition `p` (R730 to R733, R735). -/
def Chip.proofGo (ch : Chip) (p v : Nat) : Chip :=
  let i := bitsOf v 0 3
  let t := ch.tp p
  let event := bitsOf v 16 16
  let old := ch.slot p i
  let busy := old.outcome != .empty
  let new : ProofSlot :=
    { outcome := .pending, event := event, addr := t.proofAddr, posting := true, theirs := if busy then none else old.theirs,
      post := { dec := bitOf v 8, key := bitOf v 9, len := t.proofLen, intra := t.intraDue } }
  let code := if t.proofLen == 0 || 0x10000000 < t.proofLen then cBOUNDS
    else match ch.reach p t.proofAddr t.proofLen with
      | .error c => c
      | .ok pl => if pl.isLocal then cOK else cBOUNDS
  let a := ch.modSlot p i fun _ => new
  if !ch.proves p then a.decide p i .unchecked 0 0
  else if busy then a.decide p i .error 0 cBUSY
  else if code != cOK then a.decide p i .error 0 code
  else if event != 0xFFFF && !ch.holdsEvent p event then a.decide p i .error 0 cPERM
  else a

/-- The engine has read the bytes of a post, which take read tokens as a stream's do: the digest is sent, and compared if the twin's is here
(R566, R729, R731, R732). -/
def execProofDigestDone (c p i : Nat) (s : State) : Host.Outcome State Fault Refusal :=
  onTwinEngine c (fun ch =>
    let x := ch.slot p i
    if x.outcome != .pending || !x.posting then ch
    else ch.paced p x.paid (fun l a => a.modSlot p i fun y => { y with paid := l }) <|
      let (a, code, bytes) := ch.uread p [] x.addr x.post.len
      if code != cOK then (a.violateIf 0x72 p vRead code x.addr true).decide p i .error 0 code
      else
        let post := { x.post with crc := crc64 bytes }
        let b := (a.modSlot p i fun y => { y with mine := some post, posting := false }).twinSend 4 p (ch.part p).workIndex
          [i, b2n post.dec, b2n post.key, post.len, post.crc, b2n post.intra]
        b.compare p i) s

/-- The twin's digest arrives (R732, R738). -/
def execTwinDigest (c p index i : Nat) (dec key : Bool) (len crc : Nat) (intra : Bool) (s : State) : Host.Outcome State Fault Refusal :=
  onTwinMsg c (fun ch =>
    let q := ch.part p
    let t := ch.tp p
    if !q.isDefined || 8 ≤ i then ch
    else if index == q.workIndex then
      let x := ch.slot p i
      if x.outcome == .empty || x.outcome == .pending then
        (ch.modSlot p i fun y => { y with theirs := some { dec := dec, key := key, len := len, crc := crc, intra := intra } }).compare p i
      else ch
    else if index == t.keptIndex then
      match t.kept.lookup i with
      | some m =>
        if m.crc != crc || m.len != len then
          (ch.modTp p fun y => { y with late := (y.late + 1) % 2 ^ 32, intraDue := true }).ev 0x0701 err 0x72 p cMISMATCH 0 i
        else ch
      | none => ch
    else if index < q.workIndex then ch.modTp p fun y => { y with late := (y.late + 1) % 2 ^ 32 }
    else ch) s

/-- At the cut-off every undecided slot is LATE (R732). -/
def execProofCutoff (c p : Nat) (s : State) : Host.Outcome State Fault Refusal :=
  onTwinEngine c (fun ch =>
    let q := ch.part p
    if q.isDefined && q.running && q.deadline ≤ ch.time + 200000 then
      ch.forEach ((List.range 8).filter fun i => (ch.slot p i).outcome == .pending) fun i a => a.decide p i .late 0 0
    else ch) s

/-- At a tick start every slot of partition `p` is empty, and the digests of the tick that ended are kept (R738). -/
def TwinPart.newTick (t : TwinPart) (ended : Nat) : TwinPart :=
  { t with
    kept := ((List.range 8).zip t.slots).filterMap fun e => e.2.mine.map fun m => (e.1, m)
    keptIndex := ended
    slots := List.replicate 8 {} }

/-! ## Checkpoints and switches (R739 to R741, R746) -/

/-- The extents of a checkpoint list: address and length. -/
def ckptExtents (l : List Nat) : Nat → List (Nat × Nat)
  | 0 => []
  | n + 1 => (leAt l 0 8, leAt l 8 4) :: ckptExtents (l.drop 16) n

/-- Bytes padded with zeros to a multiple of 64. -/
def pad64 (l : List Nat) : List Nat := l ++ List.replicate ((64 - l.length % 64) % 64) 0

/-- A checkpoint copy of partition `p` starts as its tick completes (R739, R740); the tokens of its lines are taken as it runs. -/
def Chip.ckptStart (ch : Chip) (p : Nat) : Chip :=
  let t := ch.tp p
  if !(ch.twin.pair == .paired && ch.twin.detaching.isNone && ch.protected p && ch.loader.twinMode == mSTANDBY && t.active) then ch
  else if t.copy.isSome then (ch.modTp p fun y => { y with ckptSkips := (y.ckptSkips + 1) % 2 ^ 32 }).ev 0x0705 warn 0x72 p
  else
    let fail := fun (a : Chip) (code : Nat) => a.ev 0x0704 err 0x72 p code
    let (a0, code, raw) := ch.uread p [] t.ckptList (16 * t.ckptCount)
    if code != cOK then fail a0 code
    else
      let ext := ckptExtents raw t.ckptCount
      let size := (ext.map fun e => ceilDiv e.2 64 * 64).sum
      if t.ckptHalf < size then fail a0 cBOUNDS
      else
        let (a1, code1, bytes) := ext.foldl (fun x e =>
          if x.2.1 != cOK then x else
          let (b, cd, d) := x.1.uread p [] e.1 e.2
          (b, cd, x.2.2 ++ pad64 d)) (a0, cOK, ([] : List Nat))
        if code1 != cOK then fail a1 code1
        else
          let wi := (ch.part p).workIndex
          let dst := t.ckptDst + wi % 2 * t.ckptHalf
          let a2 := (a1.setEvent p t.ckptEvent).modTp p fun y => { y with copy := some { index := wi, bytes := bytes, lines := ch.linesTo a1 p 0 } }
          let unpaid := a2.modPart p fun q => { q.setTokens (ch.tokens p) with tel := (ch.part p).tel }
          unpaid.linkSend 0 1 [p, dst] bytes

/-- Every byte of a copy is performed at the twin, its read and outbound lines having had their tokens: CKPT_DONE is sent (R566, R739). -/
def execCkptCopyDone (c p : Nat) (s : State) : Host.Outcome State Fault Refusal :=
  onTwinEngine c (fun ch =>
    match (ch.tp p).copy with
    | some x =>
      let a := (ch.payLines p 0 x.lines).payLines p 2 (x.bytes.length / 64)
      ch.paced p x.paid (fun l b => b.modTp p fun y => { y with copy := y.copy.map fun z => { z with paid := l } })
        ((a.modTp p fun y => { y with copy := none, sent := some x.index }).twinSend 5 p x.index [x.index % 2, x.bytes.length])
    | none => ch) s

/-- CKPT_DONE arrives at the standby (R739). -/
def execCkptDone (c p index half : Nat) (s : State) : Host.Outcome State Fault Refusal :=
  onTwinMsg c (fun ch =>
    if ch.protected p && ch.loader.twinMode == mSTANDBY && !(ch.tp p).active then
      ch.modTp p fun y => { y with ckptTick := index, ckptSel := half % 2, ckptValid := true, ready := true }
    else ch) s

/-- A switch of partition `p` falls at the tick that starts with work index `index`; each tick that it has passed without the checkpoint, an
absorbed one among them, is a move (R724, R746). -/
def Chip.switchTick (ch : Chip) (p index : Nat) : Chip :=
  let t := ch.tp p
  match t.switch with
  | none => ch
  | some x =>
    let moved := (index + 2 ^ 32 - x.tick) % 2 ^ 32
    if 2 ^ 31 ≤ moved then ch
    else
      let prev := (index + 2 ^ 32 - 1) % 2 ^ 32
      let complete := if x.toMe then t.ckptValid && t.ckptTick == prev else t.sent == some prev
      if complete then ch.modTp p fun y => { y with active := x.toMe, switch := none }
      else if 8 ≤ x.moves + moved then (ch.modTp p fun y => { y with switch := none }).ev 0x0706 warn 0x72 p
      else ch.modTp p fun y => { y with switch := some { x with tick := (index + 1) % 2 ^ 32, moves := x.moves + moved + 1 } }

/-- TWIN.CTRL SWITCH: the named partitions will change sides at the work index plus 2 (R746). -/
def Chip.switchCtrl (ch : Chip) (mask : Nat) : Chip :=
  if !(ch.twin.pair == .paired && ch.loader.twinMode == mSTANDBY) then ch
  else ch.forEach ((maskList mask).filter ch.protected) fun p a =>
    let t := ((a.part p).workIndex + 2) % 2 ^ 32
    (a.modTp p fun y => { y with switch := some { tick := t, moves := 0, toMe := !y.active } }).twinSend 0x0C 0xFF t [2 ^ p]

/-- SWITCH arrives (R746). -/
def execTwinSwitchMsg (c mask t : Nat) (s : State) : Host.Outcome State Fault Refusal :=
  onTwinMsg c (fun ch =>
    if !(ch.twin.pair == .paired && ch.loader.twinMode == mSTANDBY) then ch
    else ch.forEach ((maskList mask).filter ch.protected) fun p a =>
      a.modTp p fun y => { y with switch := some { tick := t, moves := 0, toMe := !y.active } }) s

/-! ## Overlays of a pair (R725, R727) -/

/-- OVERLAY_READY arrives (R725). -/
def execOverlayReady (c p applyTick : Nat) (s : State) : Host.Outcome State Fault Refusal :=
  onTwinMsg c (fun ch => ch.modTp p fun y => { y with ovReady := some applyTick }) s

/-- OVERLAY_COMMIT arrives (R725). -/
def execOverlayCommit (c p applyTick : Nat) (commit : Bool) (s : State) : Host.Outcome State Fault Refusal :=
  onTwinMsg c (fun ch => ch.modTp p fun y => { y with ovCommit := some (applyTick, commit) }) s

/-- At the start of the tick before apply_tick the leader sends OVERLAY_COMMIT (R725). -/
def Chip.leaderCommit (ch : Chip) (p index : Nat) : Chip :=
  if !(ch.twin.pair == .paired && ch.protected p && ch.leader p) then ch
  else
    let next := (index + 1) % 2 ^ 32
    let mine := match ch.pendingOf p with | some o => o.applyTick == next | none => false
    let theirs := (ch.tp p).ovReady == some next
    if !mine && !theirs then ch
    else (ch.modTp p fun y => { y with ovCommit := some (next, mine && theirs) }).twinSend 7 p next [next, b2n (mine && theirs)]

/-- A pending overlay reaches its apply_tick without commit: it is withdrawn (R725). -/
def Chip.dropUncommitted (ch : Chip) (p next : Nat) : Chip :=
  match ch.pendingOf p with
  | some o =>
    let commit := match (ch.tp p).ovCommit with | some (t, c) => c && t == next | none => false
    if ch.protected p && ch.bound && o.applyTick == next && !commit then
      (ch.withdraw p).setResult cBUSY sTWIN 0xFFFF p
    else ch
  | none => ch

/-- FALLBACK_AT arrives: the fallback applies at the named tick (R727). -/
def execFallbackAt (c p t : Nat) (s : State) : Host.Outcome State Fault Refusal :=
  onTwinMsg c (fun ch =>
    if ch.protected p && !(ch.part p).fallback.isEmpty then
      (ch.modTp p fun y => { y with fbAt := some t }).modPart p fun q => { q with fbPending := true }
    else ch) s

/-! ## DETACH and REJOIN (R747 to R749), CONFIRM and RELINQUISH (R745, R756) -/

/-- Begin to separate, whatever the pair is but DETACHED (R747; DEDUCED, log entry 73). -/
def Chip.detach (ch : Chip) : Chip :=
  if ch.twin.pair == .detached || ch.twin.detaching.isSome then ch
  else { ch with twin := { ch.twin with detaching := some ch.time } }

/-- TWIN.CTRL DETACH (R747). -/
def Chip.detachCtrl (ch : Chip) : Chip := (ch.twinSend 0x0A 0xFF 0 [ch.loader.protectedMask]).detach

/-- DETACH arrives (R747). -/
def execTwinDetachMsg (c : Nat) (s : State) : Host.Outcome State Fault Refusal :=
  onTwinMsg c Chip.detach s

/-- Posts and copies in flight have finished, or 10 ms have passed; a takeover under way completes first (R747). -/
def execDetachDrainEnd (c : Nat) (s : State) : Host.Outcome State Fault Refusal :=
  onTwinEngine c (fun ch =>
    match ch.twin.detaching with
    | none => ch
    | some t =>
      let l := List.range 8
      let flying := l.any fun p => (ch.tp p).copy.isSome || (ch.tp p).slots.any fun x => x.outcome == .pending
      let taking := l.any fun p => (ch.tp p).trigger.isSome
      if taking || (flying && ch.time < t + 10000000) then ch
      else
        let a := ch.forEach l fun p b =>
          ((b.forEach ((List.range 8).filter fun i => (b.slot p i).outcome == .pending) fun i d => d.decide p i .unchecked 0 0)).modTp p
            fun y => { y with copy := none, switch := none }
        { a with twin := { a.twin with pair := .detached, detaching := none, peer := none } }) s

/-- The pairing of R720 runs again; under SOLO there is none, and the pair is UNPAIRED (R722, R749; DEDUCED, log entry 73). -/
def Chip.rejoin (ch : Chip) : Chip :=
  if ch.loader.twinMode == mSOLO then { ch with twin := { ch.twin with pair := .unpaired } } else ch.sendPair true

/-- REJOIN is refused unless a base plate is loaded and LINK[0] is UP (R749). -/
def Chip.rejoinCtrl (ch : Chip) : Chip × Nat :=
  if ch.loader.state == .loaded && ch.linkUp 0 then
    ((({ ch with twin := { ch.twin with peer := none } } : Chip).twinSend 0x0B 0xFF 0 [ch.loader.protectedMask]).rejoin, cOK)
  else (ch, cBUSY)

/-- REJOIN arrives: pairing runs again (R749). -/
def execTwinRejoinMsg (c : Nat) (s : State) : Host.Outcome State Fault Refusal :=
  onTwinMsg c (fun ch => if ch.loader.state == .loaded then ({ ch with twin := { ch.twin with peer := none } } : Chip).rejoin else ch) s

/-- CONFIRM: PROVISIONAL clears (R745, R756). -/
def Chip.confirmCtrl (ch : Chip) (mask : Nat) : Chip :=
  ch.forEach ((maskList mask).filter fun p => (ch.tp p).provisional) fun p a => a.modTp p fun y => { y with provisional := false }

/-- RELINQUISH: the standby gives the role back (R745, R756). -/
def Chip.relinquishCtrl (ch : Chip) (mask : Nat) : Chip :=
  ch.forEach ((maskList mask).filter fun p => (ch.tp p).provisional) fun p a =>
    a.modTp p fun y => { y with active := false, takeover := false, provisional := false }

/-- The twin has been silent for 10 s by its steward and by its side-band: the steward sends RESET_REQ, once per boot count
(R752, R753). -/
def execTwinResetReqSend (c : Nat) (s : State) : Host.Outcome State Fault Refusal :=
  onTwinEngine c (fun ch =>
    let t := ch.twin
    if ch.wdg.steward == .running && t.pair != .detached && t.hbSince + 10000000000 ≤ ch.time && 10000 ≤ t.hbAge &&
      t.resetFor != some t.hbBoot then
      (({ ch with twin := { t with resetsSent := (t.resetsSent + 1) % 2 ^ 32, resetFor := some t.hbBoot } } : Chip).twinSend
        0x0D 0xFF 0 [1, t.hbBoot]).ev 0x0707 err 0x70 0xFF cOK t.hbBoot
    else ch) s

end Sys2Proof.Machine
end

