-- ==== Sys2Proof/Machine/Unload.lean ====
section
/-! DEFINITION. UNLOAD of the plate: every running tick ends, then everything is fenced, zeroed and freed (R167, R168, R450, R991). -/
namespace Sys2Proof.Machine

/-- No tick of a partition runs. -/
def Chip.ticksEnded (ch : Chip) : Bool := ch.defined.all fun p => !(ch.part p).running

/-- What the engine keeps of a twin partition without a plate: its registers, no role and nothing in flight. -/
def TwinPart.idle (t : TwinPart) : TwinPart :=
  { t with
    active := false, takeover := false, provisional := false, ckptValid := false, ready := false, intraDue := false
    slots := List.replicate 8 {}, trigger := none, kept := [], copy := none, sent := none, switch := none
    ovReady := none, ovCommit := none, fbAt := none, nextIndex := none }

/-- UNLOAD is carried out: jobs retired, cores and units fenced and freed, stores zeroed, overlays withdrawn, PART undefined
(R167, R168). -/
def Chip.unloadNow (ch : Chip) : Chip :=
  let a1 := ch.forEach ch.defined fun p a => a.retireAllJobs p cGENSTALE 0
  let a2 := a1.forEach (List.range a1.cores.length) fun k a => (a.closeEpochs k).modCore k Core.unload
  let a3 := a2.forEach (List.range a2.pods.length) fun d a =>
    (a.zeroPod d).modPod d fun x => { x.freeCtxs.emptyBanks with arrq := [], fenced := true }
  let a4 : Chip := { a3 with
    cus := a3.cus.map fun x => { x.overlayFree with fenced := true }
    tes := a3.tes.map fun x => { x with q := [], owner := none, gen := inc16 x.gen, store := [], fenced := true }
    links := a3.links.map fun x => { x with fenced := true }
    chans := [], syncs := [], regions := List.replicate 64 {}, arriving := [], remotes := []
    parts := a3.parts.map fun q => { ({} : Part) with
      coreRecoveries := q.coreRecoveries, partRecoveries := q.partRecoveries, lastCore := q.lastCore }
    pwr := { a3.pwr with needFallback := [], idleSince := none }
    boot := { a3.boot with stage := if a3.boot.stage == .failed then .failed else .ready }
    twin := { a3.twin with pair := .unpaired, peer := none, rejoin := false, detaching := none, parts := a3.twin.parts.map TwinPart.idle }
    loader := { a3.loader with
      state := .empty, back := .empty, kind := .none, unloading := false, baseId := 0, baseDigest := [], ready := [], pending := List.replicate 8 none
      twinMode := 0, protectedMask := 0, twinPlateId := 0 } }
  a4.freeHeld.setResult cOK 0

/-- UNLOAD waits, and the last running tick has ended. -/
def Chip.unloadDone (ch : Chip) : Chip := if ch.loader.unloading && ch.ticksEnded then ch.unloadNow else ch

/-- UNLOAD begins: FAIL to the twin, then every partition finishes its tick (R167, R742). -/
def Chip.unloadStart (ch : Chip) : Chip :=
  let a := ch.sendFail 0xFF failUnload
  ({ a with loader := { a.loader with back := a.loader.state, state := .applying, kind := .unload, unloading := true } } : Chip).unloadDone

end Sys2Proof.Machine
end

