-- ==== Sys2Proof/Machine/Ticks.lean ====
section
/-! DEFINITION. Ticks: stipple slots, tick starts and their sources, substitution, completion, deadlines, telemetry
(R197 to R228, R243, R304, R305, R843 to R849, R859 to R861). -/
namespace Sys2Proof.Machine

/-! ## Stipple slots (R843 to R847) -/

/-- A wait that began `d` ns later: what a hold has not counted (R845). -/
def Wait.shift (d : Nat) : Wait → Wait
  | .anyCompletion rd t => .anyCompletion rd (t + d)
  | .tagged rd tag t => .tagged rd tag (t + d)
  | .blocked t => .blocked (t + d)
  | .remote id t => .remote id (t + d)
  | .send rd c a t => .send rd c a (t + d)
  | .recv rd c a t => .recv rd c a (t + d)
  | .sync rd o b t => .sync rd o b (t + d)
  | .answered rd w => .answered rd w
  | .loaded l => .loaded l

/-- The debugger holds the core of a request, whose limit it freezes (R381). -/
def Chip.requestFrozen (ch : Chip) (r : Remote) : Bool := r.core?.any fun k => (ch.core k).state == .debug

/-- The limits of partition `p`'s agents resume `d` ns later with the count they had left (R845); those of a core that the
debugger holds are frozen by it (R381). -/
def Chip.shiftLimits (ch : Chip) (p d : Nat) : Chip :=
  let a1 := ch.forEach (ch.coresOf p) fun k a =>
    a.modCore k fun x => if x.state == .debug then x else { x with wait := x.wait.map (Wait.shift d) }
  let a2 := a1.forEach (ch.podsOf p) fun q a => a.modPod q fun x => { x with ctxs := x.ctxs.map fun y => { y with since := y.since + d } }
  let a3 := a2.forEach (ch.tesOf p) fun u a => a.modTe u fun x => { x with since := x.since + d }
  { a3 with remotes := a3.remotes.map fun r => if r.part == p && !ch.requestFrozen r then { r with since := r.since + d } else r }

/-- Slot `j` of partition `p` ends: it has been taken, and the partition's agents resume (R844, R845). -/
def Chip.endSlot (ch : Chip) (p j : Nat) : Chip :=
  let x := (ch.part p).slots.getD j {}
  let d := ch.time - x.since
  let us := d / 1000
  let a := (ch.modPart p fun q => { q with
    slots := q.slots.modify j fun s => { s with ended := true }
    tel := { q.tel with slotUs := q.tel.slotUs + us } }).shiftLimits p d
  { a with bg := { a.bg with takenUs := a.bg.takenUs.modify p fun n => (n + us) % 2 ^ 64 } }

/-- A slot of partition `p` begins at its time (R843, R844). -/
def execSlotStart (c p : Nat) (s : State) : Host.Outcome State Fault Refusal :=
  onChip c (fun ch =>
    let q := ch.part p
    if !ch.alive || !q.isDefined || q.inSlot then ch
    else match q.slots.findIdx? fun x => !x.begun with
      | some j =>
        if q.tickStart + (q.slots.getD j {}).start ≤ ch.time then
          ch.modPart p fun y => { y with slots := y.slots.modify j fun x => { x with begun := true, since := ch.time } }
        else ch
      | none => ch) s

/-- A slot of partition `p` ends at its time (R843, R844). -/
def execSlotEnd (c p : Nat) (s : State) : Host.Outcome State Fault Refusal :=
  onChip c (fun ch =>
    let q := ch.part p
    match q.slots.findIdx? fun x => x.begun && !x.ended with
    | some j => if q.tickStart + (q.slots.getD j {}).stop ≤ ch.time then ch.endSlot p j else ch
    | none => ch) s

/-- A tick start ends the schedule before it: a slot in progress ends, slots not begun are dropped and counted (R847). -/
def Chip.dropSlots (ch : Chip) (p : Nat) : Chip :=
  let q := ch.part p
  let cut := match q.slots.findIdx? fun x => x.begun && !x.ended with
    | some j => some (j, (q.tickStart + (q.slots.getD j {}).stop - ch.time) / 1000)
    | none => none
  let rest := ((q.slots.filter fun x => !x.begun).map fun x => (x.stop - x.start) / 1000).sum
  let us := rest + (match cut with | some (_, d) => d | none => 0)
  let a := match cut with | some (j, _) => ch.endSlot p j | none => ch
  if us == 0 then a
  else
    let b := a.modPart p fun x => { x with slots := [], tel := { x.tel with short := true } }
    ({ b with bg := { b.bg with droppedUs := b.bg.droppedUs.modify p fun n => (n + us) % 2 ^ 32 } }).ev 0x0A03 info 0xFF p cOK 0 (min us 0xFFFF)

/-! ## Telemetry (R859 to R861) -/

/-- Corrected memory errors of the chip so far. -/
def Chip.correctedSum (ch : Chip) : Nat := ch.rcv.corrHbm.sum + ch.rcv.corrCore.sum

/-- Link replays of the chip so far. -/
def Chip.replaySum (ch : Chip) : Nat := (ch.links.map Link.replays).sum

/-- The record of the tick of partition `p` that ends now (R859); the mean power is a free value (DESIGN CHOICE, log entry 26). -/
def Chip.telemetryRecord (ch : Chip) (p : Nat) : List Nat × Chip :=
  let q := ch.part p
  let t := q.tel
  let x := q.plate
  let (i, a) := ch.draw
  let flags := b2n t.overrun + 2 * b2n q.subst + 4 * b2n q.onFallback + 8 * b2n q.recovery + 16 * b2n t.short +
    32 * b2n (ch.partDebug p) + 64 * b2n t.absorbed
  let work := match t.workUs with | some n => if t.absorbed then 0xFFFFFFFF else n | none => 0xFFFFFFFF
  let busy := (List.range 8).map fun d =>
    if d < ch.pods.length && bitOf x.podMask d then ((ch.pod d).busyCycles + 2 ^ 64 - t.busy.getD d 0) % 2 ^ 32 else 0
  let b := [0x54, 0x4C, 0x4D, 0x59, 1, p, flags, 0] ++ leBytes 8 (ch.bg.telemSeq.getD p 0) ++ leBytes 8 t.start ++ leBytes 4 t.index ++
    leBytes 4 work ++ leBytes 4 x.budget ++ leBytes 4 t.slotUs ++ leBytes 2 ch.pwr.fc ++ leBytes 2 ch.pwr.share ++
    leBytes 4 (Config.freeValue i).toNat ++ leBytes 2 ch.pwr.dieTemp ++ leBytes 2 ch.pwr.stackTemp ++ leBytes 4 q.overruns ++
    leBytes 8 t.rd ++ leBytes 8 t.wr ++ leBytes 8 t.outB ++ leBytes 8 t.inB ++ leBytes 4 q.admUs ++ leBytes 4 q.jobs.length ++
    leBytes 8 q.admCycles ++ leBytes 4 t.violations ++ leBytes 4 t.events ++ leBytes 4 (ch.correctedSum - t.corrected) ++
    leBytes 4 (ch.replaySum - t.replays) ++ leBytes 4 (ch.tp p).mismatches ++ [0, 0, 0, 0] ++ busy.flatMap (leBytes 4) ++ List.replicate 92 0
  (b ++ leBytes 4 (crc32c b), a)

/-- The steward writes a record and keeps it (R859 to R861). -/
def Chip.writeTelemetry (ch : Chip) (p : Nat) (rec : List Nat) : Chip :=
  let a : Chip := { ch with bg := { ch.bg with
    telemetry := ch.bg.telemetry.set p rec
    telemSeq := ch.bg.telemSeq.modify p fun n => (n + 1) % 2 ^ 64 } }
  if bitOf a.bg.cfg2 p then a.putTelemetry p rec else a

/-- Telemetry at a tick start: written by a running steward, else it waits for it once (R857). -/
def Chip.telemetry (ch : Chip) (p : Nat) : Chip :=
  if !(ch.part p).ticked then ch
  else
    let (rec, a) := ch.telemetryRecord p
    if a.wdg.steward == .running then a.writeTelemetry p rec
    else { a with bg := { a.bg with telemWait := a.bg.telemWait.filter (fun e => e.1 != p) ++
      [(p, ((a.bg.telemWait.lookup p).map Prod.fst).getD a.time, rec)] } }

/-! ## Tick starts (R197 to R203, R226, R243, R304, R305) -/

/-- The tick index that partition `p` takes at a tick start (R203, R728). -/
def Chip.nextIndex (ch : Chip) (p : Nat) (carried : Option Nat) : Nat :=
  let q := ch.part p
  match (ch.tp p).nextIndex with
  | some n => n
  | none => match carried with
    | some n => n
    | none => if q.ticked then (q.tickIndex + 1) % 2 ^ 32 else q.tickIndex

/-- Tick starts of partition `p` start no work now (R167, R225, R226, R243, R772, R773, R794, R873, R877). -/
def Chip.absorbs (ch : Chip) (p : Nat) : Bool :=
  let q := ch.part p
  q.running || q.absorbNext || ch.partDebug p || q.halted || q.recovering || ch.wdg.fatalHalt || ch.loader.unloading || ch.pwr.state != .active

/-- Core `k` starts a tick (R304, R305, R379, R768). -/
def Chip.startCore (ch : Chip) (p k : Nat) : Chip :=
  let x := ch.core k
  if !x.hasCode then ch
  else
    let go := x.state == .parked || (x.state == .halted && (x.stopped || !x.ran))
    if !go then ch.modCore k fun y => { y with ended := y.state == .fenced }
    else
      let st := ch.status p
      let s0 : List W64 := ((((List.replicate 32 0).set 1 (BitVec.ofNat 64 (ch.part p).tickIndex)).set 2 (BitVec.ofNat 64 p)).set 3
        (BitVec.ofNat 64 k)).set 4 (BitVec.ofNat 64 st)
      ch.modCore k fun y => { y with
        state := .running
        wait := none
        pc := y.entryPc
        s := s0.set 29 (BitVec.ofNat 64 (coreBase (k + 1)))
        v := List.replicate 32 0
        p := List.replicate 8 0
        cq := []
        outst := []
        tcycles := 0
        tretired := 0
        wdgLeft := y.wdgPeriod
        ran := true
        stopped := false
        ended := false
        inRec := false }

/-- The links of a peer window at a tick start: those of link_mask that are UP and reach the peer, ascending (R688, R689). -/
def Chip.spreadTo (ch : Chip) (p peer : Nat) : List Nat :=
  (ch.linksOf p).filter fun n => ch.linkUp n && (match wired ch.tray ch.boot.straps n with
    | some (i, _) => i == peer
    | none => peer == 0x20 + n)

/-- The work of a tick of partition `p` begins (R206 to R208, R217, R290, R305, R353, R465, R688, R708, R746). An absorbed start
begins none: it leaves ACW, the accumulator banks and the sessions as the tick under way has them (DEDUCED, log entry 58). -/
def Chip.beginTick (ch : Chip) (p : Nat) : Chip :=
  let q := ch.part p
  let x := q.plate
  let a1 := ch.modPart p fun y => ({ y with
    prevSkipped := y.skipNext
    skipNext := false
    running := true
    overran := false
    workStart := ch.time
    deadline := ch.time + 1000 * (x.period - guardUs x.period)
    workIndex := y.tickIndex
    jobs := y.jobs.map fun j => { j with begun := true }
    spread0 := ch.spreadTo p x.peer0
    spread1 := ch.spreadTo p x.peer1 } : Part).lnuTick
  let a2 := (a1.forEach (a1.podsOf p) fun d a => a.modPod d Pod.emptyBanks).forEach (a1.cusOf p) fun u a => a.modCu u CoderUnit.closeAll
  let a3 := a2.modTp p fun t => t.newTick q.workIndex
  let a4 := (a3.switchTick p (a3.part p).tickIndex).leaderCommit p (a3.part p).tickIndex
  let a5 := a4.forEach (a4.coresOf p) fun k a => (a.modCore k fun x => { x with acw := acwReset, late := 0, ldpri := 0 }).startCore p k
  a5.recRefresh p

/-- The record and the schedule of the tick of partition `p` that ends now (R847, R859); content that applies at a boundary has closed
them there. -/
def Chip.closeTick (ch : Chip) (p : Nat) : Chip := if (ch.part p).fresh then ch else (ch.dropSlots p).telemetry p

/-- The boundary of partition `p` before a tick that will have index `next`: a fallback or an overlay applies, where one is ready
(R174, R175, R192, R234); says whether. -/
def Chip.boundary (ch : Chip) (p next : Nat) : Chip × Bool :=
  if ch.fallbackReady p next then ((ch.closeTick p).applyFallback p, true)
  else
    let a := ch.dropUncommitted p next
    match a.overlayReady p next with
    | some o => ((a.closeTick p).applyOverlay p o, true)
    | none => (a, false)

/-- The boundary of partition `p` while a tick of it runs: content that is ready waits for the tick to end (R175). -/
def Chip.awaitEnd (ch : Chip) (p next : Nat) : Chip :=
  if ch.fallbackReady p next || (ch.overlayReady p next).isSome then ch.modPart p fun q => { q with applyDue := true } else ch

/-- Content of partition `p` that waited for the end of a tick applies once it has ended; its first tick starts at the next tick start of its
source (R175, R197, R202). -/
def Chip.dueApply (ch : Chip) (p : Nat) : Chip :=
  let q := ch.part p
  if q.applyDue && !q.running then (ch.boundary p q.tickIndex).1.modPart p fun x => { x with applyDue := false, startNow := false } else ch

/-- FIRST_TICK and STAGE RUNNING (R957). -/
def Chip.firstTick (ch : Chip) : Chip :=
  if ch.boot.stage == .running then ch
  else ({ ch with boot := { ch.boot with stage := .running } }).ev 0x0D06 info 0xFF 0xFF cOK ((ch.time - ch.boot.resetEnd) / 1000)

/-- Every partition of the base plate being applied has started: PLATE.STATE reads LOADED (R165), and the twin is looked for (R720). -/
def Chip.loadEnd (ch : Chip) : Chip :=
  if ch.loader.kind == .starting && ch.defined.all (fun p => (ch.part p).ticked) then
    ({ ch with loader := { ch.loader with state := .loaded, kind := .none } } : Chip).tryPair
  else ch

/-- A tick of partition `p` starts, at work or absorbed, on content that stands: `carried` is the index a message carries, `subst` says it
is a substitute; a takeover that is due is made at it (R203, R226, R743, R843, R859). -/
def Chip.startOn (ch : Chip) (p : Nat) (carried : Option Nat) (subst : Bool) : Chip :=
  let next := ch.nextIndex p carried
  let a2 := ch.closeTick p
  let x := (a2.part p).plate
  let abs := a2.absorbs p
  let tel : TickRec := { start := a2.time, index := next, absorbed := abs, corrected := a2.correctedSum, replays := a2.replaySum,
                         busy := a2.pods.map Pod.busyCycles }
  let a3 := (a2.modPart p fun q => { q with
    tickIndex := next
    tickStart := a2.time
    ticked := true
    fresh := false
    expert := x.expert
    absorbNext := false
    subst := subst
    startNow := false
    slots := slotsFor x.period x.stipple
    tel := tel }).modTp p fun t => { t with nextIndex := none }
  let a4 := if abs then a3.takeOver p else (a3.takeOver p).beginTick p
  let a5 := if x.tickOut then ({ a4 with tickOutUntil := a4.time + 1000 } : Chip).emit (.pin pinTickOut true) else a4
  let a6 := if x.source != 2 && a5.loader.twinMode != mSOLO && a5.twin.pair != .detached then a5.twinSend 1 p next [] else a5
  a6.firstTick.loadEnd

/-- A tick start of partition `p`: its boundary, then the tick. Content that applies there starts its first tick with it, or later where its
own schedule says so (R175, R197, R202). -/
def Chip.startTick (ch : Chip) (p : Nat) (carried : Option Nat) (subst : Bool) : Chip :=
  let next := ch.nextIndex p carried
  if (ch.part p).running then (ch.awaitEnd p next).startOn p carried subst
  else
    let (a, applied) := (ch.settleRetires p).boundary p next
    if applied && !(a.part p).startNow then a else a.startOn p carried subst

/-- A tick source may start a tick of partition `p`. -/
def Chip.ticks (ch : Chip) (p : Nat) : Bool := ch.alive && (ch.part p).isDefined

/-- TICK_START: the instant of source TIME, or the boundary at which new content has just applied (R175, R197). -/
def execTickStart (c p : Nat) (s : State) : Host.Outcome State Fault Refusal :=
  onChip c (fun ch =>
    let q := ch.part p
    if ch.ticks p && ch.startDue p then ch.startTick p none q.subst else ch) s

/-- An edge or message starts a tick of partition `p` when it comes late enough (R199, R201, R202). -/
def Chip.sourceTick (ch : Chip) (p : Nat) (carried : Option Nat) : Chip :=
  let q := ch.part p
  if q.mayStart ch.time then
    let a := if q.subst then ch.ev 0x0404 info 0xFF p else ch
    a.startTick p carried false
  else ch.ev 0x0402 info 0xFF p cOK q.tickStart

/-- A TICK_IN edge at a chip (R120, R199). -/
def Chip.tickIn (ch : Chip) : Chip :=
  ch.forEach ((List.range 8).filter fun p => ch.ticks p && (ch.part p).plate.source == 1) fun p a => a.sourceTick p none

/-- A rising edge on the tray's TICK_IN reaches every chip (R53, R120, R199). -/
def execTickInEdge (s : State) : Host.Outcome State Fault Refusal := .next { s with chips := s.chips.map Chip.tickIn }

/-- A tick message from the twin (R198, R199, R203). -/
def execTwinTickMsg (c p index : Nat) (s : State) : Host.Outcome State Fault Refusal :=
  onTwinMsg c (fun ch => if ch.ticks p && (ch.part p).plate.source == 2 then ch.sourceTick p (some (index % 2 ^ 32)) else ch) s

/-- A substitute tick (R200, R202, R748). -/
def execSubstituteTick (c p : Nat) (s : State) : Host.Outcome State Fault Refusal :=
  onChip c (fun ch =>
    let q := ch.part p
    let limit := q.lastStart + 1000 * (if q.subst then q.plate.period else q.plate.period + guardUs q.plate.period)
    if ch.ticks p && q.plate.source != 0 && limit ≤ ch.time then
      let quiet := q.subst || (ch.twin.pair == .detached && q.plate.source == 2)
      (if quiet then ch else ch.ev 0x0403 warn 0xFF p).startTick p none true
    else ch) s

/-- The boundary of partition `p` that an instant of source TIME makes; an edge or message makes the others (R174, R197). -/
def Chip.atBoundary (ch : Chip) (p : Nat) : Bool := ch.ticks p && ch.startDue p && !(ch.part p).running

/-- A pending overlay applies at the boundary of partition `p`, whose first tick under it then starts (R174, R175). -/
def execOverlayApply (c p : Nat) (s : State) : Host.Outcome State Fault Refusal :=
  onChip c (fun ch =>
    match ch.overlayReady p (ch.nextIndex p none) with
    | some o => if ch.atBoundary p then (ch.closeTick p).applyOverlay p o else ch
    | none => ch) s

/-- A pending fallback applies at the boundary of partition `p` (R234). -/
def execFallbackApply (c p : Nat) (s : State) : Host.Outcome State Fault Refusal :=
  onChip c (fun ch =>
    if ch.atBoundary p && ch.fallbackReady p (ch.nextIndex p none) then (ch.closeTick p).applyFallback p else ch) s

/-! ## Completion and deadlines (R221 to R228, R243) -/

/-- A command that partition `p` issued is in flight in a unit (R221). -/
def Chip.inFlight (ch : Chip) (p : Nat) : Bool :=
  ch.arriving.any (fun u => ch.partNo u.core == p) ||
  (ch.podsOf p).any (fun d => !(ch.pod d).arrq.isEmpty || (ch.pod d).seBusy) ||
  (ch.coresOf p).any (fun k => !(ch.core k).rowq.isEmpty) ||
  (ch.cusOf p).any (fun u => !(ch.cu u).q.isEmpty) ||
  (ch.tesOf p).any (fun u => !(ch.te u).q.isEmpty) || (ch.part p).carousel.busy

/-- Every core with a code entry has executed tend, or counts as having done so (R221, R769). -/
def Chip.allEnded (ch : Chip) (p : Nat) : Bool :=
  (ch.coresOf p).all fun k => !(ch.core k).hasCode || (ch.core k).ended

/-- The running tick of partition `p` is complete (R221). -/
def Chip.complete? (ch : Chip) (p : Nat) : Bool := (ch.part p).running && ch.allEnded p && !ch.inFlight p

/-- TICK_COMPLETE (R221, R739). -/
def execTickComplete (c p : Nat) (s : State) : Host.Outcome State Fault Refusal :=
  onChip c (fun ch =>
    if ch.complete? p then
      let us := (ch.time - (ch.part p).workStart) / 1000
      (((ch.modPart p fun q => { q with lastWork := us % 2 ^ 32, tel := { q.tel with workUs := some us } }).endTick p cOK).ckptStart p).dueApply p |>.unloadDone
    else ch) s

/-- A tick of partition `p` overruns (R222, R225, R227, R243). -/
def Chip.overrun (ch : Chip) (p : Nat) : Chip :=
  let q := ch.part p
  let n := min (q.overruns + 1) 0xFFFFFFFF
  let a := ch.modPart p fun x => { x with overruns := n, overrunBit := true, overran := true, tel := { x.tel with overrun := true } }
  let pol := q.plate.policy
  if ch.partDebug p then (a.modPart p fun x => { x with deadline := 0 }).ev 0x0401 info 0x70 p cOVERRUN n pol
  else
    let b := a.ev 0x0401 (if pol == 2 then err else warn) 0x70 p cOVERRUN n pol
    if pol == 1 && !q.extended && !q.prevExtended then
      b.modPart p fun x => { x with deadline := x.deadline + 1000 * x.plate.period, extended := true, absorbNext := true, overran := false }
    else if pol == 2 && !q.extended then (b.tickStop p).beginRecovery p
    else (b.tickStop p).modPart p fun x => { x with skipNext := true }

/-- An incomplete tick at its deadline (R222, R225). -/
def execTickDeadline (c p : Nat) (s : State) : Host.Outcome State Fault Refusal :=
  onChip c (fun ch =>
    let q := ch.part p
    if q.running && !q.extended && q.deadline != 0 && q.deadline ≤ ch.time && !ch.complete? p then ((ch.overrun p).dueApply p).unloadDone else ch) s

/-- An extended tick that is not complete at its moved deadline (R227). -/
def execExtendedDeadline (c p : Nat) (s : State) : Host.Outcome State Fault Refusal :=
  onChip c (fun ch =>
    let q := ch.part p
    if q.running && q.extended && q.deadline != 0 && q.deadline ≤ ch.time && !ch.complete? p then ((ch.overrun p).dueApply p).unloadDone else ch) s

end Sys2Proof.Machine
end

