-- ==== Sys2Proof/Machine/Watch.lean ====
section
/-! DEFINITION. The steward and its watchdog, the chip watchdog, the clock monitor, fatal causes, and the requests and performance
of resets (R100, R118, R753, R782 to R798, R804, R827, R828, R942 to R945). -/
namespace Sys2Proof.Machine

/-! ## The steward (R100, R782 to R785, R804) -/

/-- STEWARD.HEARTBEAT advances (R100). -/
def execStewardHeartbeatTick (c : Nat) (s : State) : Host.Outcome State Fault Refusal :=
  onChip c (fun ch =>
    if ch.stwRuns && ch.boot.stage != .reset && ch.boot.stage != .fwRead && ch.boot.stage != .fwVerify && ch.boot.stage != .waitRelease then
      { ch with wdg := { ch.wdg with heartbeat := (ch.wdg.heartbeat + 1) % 2 ^ 32 } }
    else ch) s

/-- The steward watchdog is reloaded (R782). -/
def Chip.stwKick (ch : Chip) : Chip := { ch with wdg := { ch.wdg with stwLeft := ch.wdg.stwPeriodMs * 1000000 } }

/-- The steward watchdog expires: a restart, or at the fourth expiry within 600 s the steward is held and the chip halts
(R783, R785, R793). -/
def execStewardWdgExpiry (c : Nat) (s : State) : Host.Outcome State Fault Refusal :=
  onChip c (fun ch =>
    if !ch.stwRuns || ch.wdg.stwLeft != 0 then ch
    else
      let recent := ch.wdg.restarts.filter fun t => ch.time < t + 600000000000
      if 3 ≤ recent.length then
        (({ ch with wdg := { ch.wdg with steward := .held } } : Chip).ev 0x0802 fatal 0x70).haltFatal
      else
        let n := (ch.rcv.stwRestarts + 1) % 2 ^ 32
        ({ ch with
          wdg := { ch.wdg with steward := .restarting, restarts := ch.time :: recent }
          rcv := { ch.rcv with stwRestarts := n } } : Chip).ev 0x0801 err 0x70 0xFF cOK n) s

/-- The steward serves again: the notifications held back, in order, and each telemetry record that waits, once, and a mailbox request
that was held, and the decisions that wait (R218, R784, R857, R936). -/
def Chip.stwServe (ch0 : Chip) : Chip :=
  let ch := ch0.decideAll
  let a := ch.wdg.notify.foldl (fun b k => b.modCore k fun x => { x with recover := true })
    { ch with wdg := { ch.wdg with steward := .running, notify := [] } }
  (ch.bg.telemWait.foldl (fun (b : Chip) e => b.writeTelemetry e.1 e.2.2) { a with bg := { a.bg with telemWait := [] } }).mbResume

/-- The restarted steward resumes at its recovery entry (R783). -/
def execStewardResume (c : Nat) (s : State) : Host.Outcome State Fault Refusal :=
  onChip c (fun ch => if ch.alive && ch.wdg.steward == .restarting then ch.mbRecover.stwServe.stwKick else ch) s

/-- WDG.STW_DBG HALT: both watchdogs hold their counts (R804). -/
def Chip.stwHalt (ch : Chip) : Chip :=
  if ch.wdg.steward == .running then { ch with wdg := { ch.wdg with steward := .dbgHalted, frozen := true } } else ch

/-- WDG.STW_DBG RESUME (R804). -/
def Chip.stwResume (ch : Chip) : Chip :=
  if ch.wdg.steward == .dbgHalted then { ch with wdg := { ch.wdg with frozen := false } }.stwServe else ch

/-! ## The chip watchdog (R786 to R792) -/

/-- WOSC cycles of a stage (R786). -/
def Watchdogs.full (w : Watchdogs) : Nat := w.periodMs * 32

/-- A write to WDG.KICK by the steward (R788, R789). -/
def Chip.wdgKick (ch : Chip) (v : Nat) : Chip :=
  let w := ch.wdg
  if v == (if w.next then 0xA5A5 else 0x5A5A) then
    let a : Chip := { ch with wdg := { w with next := !w.next, stage2 := false, left := w.full, phase := 0 } }
    if w.stage2 then a.ev 0x0805 info else a
  else ({ ch with wdg := { w with badKicks := min (w.badKicks + 1) 0xFFFF } } : Chip).ev 0x0806 warn 0x70 0xFF cOK v

/-- A write to WDG.PERIOD: the code, and the chip (R787). -/
def Chip.wdgPeriod (ch : Chip) (v : Nat) : Chip × Nat :=
  let n := bitsOf v 0 14
  if ch.wdg.locked then (ch, cOK)
  else if n < 100 || 10000 < n then (ch, cBOUNDS)
  else ({ ch with wdg := { ch.wdg with periodMs := n, locked := true } }, cOK)

/-- Stage 1 expires (R789). -/
def execChipWdgStage1 (c : Nat) (s : State) : Host.Outcome State Fault Refusal :=
  onChip c (fun ch =>
    if ch.alive && !ch.wdg.stage2 && !ch.wdg.frozen && ch.wdg.left == 0 then
      ({ ch with wdg := { ch.wdg with stage2 := true, left := ch.wdg.full } } : Chip).ev 0x0804 fatal
    else ch) s

/-- The clock monitor trips: `cause` 1 stopped, 2 out of range; `hz` the last measured frequency (R791, R792). -/
def execClockMonitorTrip (c cause hz : Nat) (s : State) : Host.Outcome State Fault Refusal :=
  onChip c (fun ch =>
    if ch.alive && !ch.wdg.backup && (cause == 1 || (cause == 2 && (hz < 24000 || 40000 < hz))) then
      ({ ch with wdg := { ch.wdg with tripped := true, tripCause := cause, woscHz := hz % 2 ^ 20, tripTime := ch.time, backup := true } } :
        Chip).ev 0x0807 warn 0xFF 0xFF cOK 0 cause
    else ch) s

/-! ## FATAL causes (R793, R794) -/

/-- An HBM stack fails at run time (R793). -/
def execHbmStackFail (c stack : Nat) (s : State) : Host.Outcome State Fault Refusal :=
  onChip c (fun ch => if ch.alive && stack < ch.variant.stacks then (ch.ev 0x0903 fatal 0xFF 0xFF cOK 0 stack).haltFatal else ch) s

/-- An uncorrectable error in steward memory (1), the reset controller (2) or the management network (3) (R793). -/
def execInternalUncorr (c what : Nat) (s : State) : Host.Outcome State Fault Refusal :=
  onChip c (fun ch => if ch.alive then (ch.ev 0x0904 fatal 0xFF 0xFF cECC 0 what).haltFatal else ch) s

/-! ## Resets (R742, R827, R828, R942 to R945) -/

/-- The value of CHIP.RESET_CAUSE.KIND (R942). -/
def ResetKind.value : ResetKind → Nat
  | .powerOn => 0
  | .warm => 1
  | .cold => 2
  | .sideband => 3
  | .pin => 4
  | .watchdog => 5
  | .twin => 6
  | .wake => 7

/-- Strength of a kind (R945); the two resets that power raises stand above the others. -/
def ResetKind.strength : ResetKind → Nat
  | .powerOn => 5
  | .wake => 5
  | .pin => 4
  | .cold => 3
  | .sideband => 2
  | _ => 1

/-- Warm, twin and watchdog resets keep DRAM and some settings (R943). -/
def ResetKind.keeps (k : ResetKind) : Bool := k.strength == 1

/-- A reset of a kind is requested: it merges with one that waits (R945); a controlled one seals the record first (R827), and FAIL
goes to the twin before any but RST_N (R742, R790). -/
def Chip.askReset (ch : Chip) (k : ResetKind) : Chip :=
  let merged := match ch.boot.pendingReset with
    | some o => if o.strength < k.strength then k else o
    | none => k
  let a := if k == .pin then ch else ch.sendFail 0xFF failReset
  let full := k == .warm || k == .cold || k == .sideband || k == .twin
  let first := ch.boot.pendingReset.isNone || (ch.boot.pendingReset == some .watchdog && merged == k)
  let r := if full && first then (a.ler.doSeal ch.time 4) else a.ler
  { a with ler := r, boot := { a.boot with pendingReset := some merged } }

/-- The record is sealed as the waiting reset of kind `k` asks (R827, R828). -/
def Chip.sealed (ch : Chip) (k : ResetKind) : Bool :=
  if k == .pin || k == .watchdog then ch.ler.writing.isNone else ch.ler.sealWrites == 0

/-- The tasks' periods run from TIME `t`. -/
def Background.since (b : Background) (t : Nat) : Background :=
  { b with lastThermal := t, lastDroop := List.replicate 8 t, lastSerdes := List.replicate 6 t, lastHbm := List.replicate 8 t }

/-- A kept-fenced unit stays so over a warm reset (R776). -/
def keepFence (keep fenced kept : Bool) : Bool := keep && fenced && kept

/-- The chip after a reset of kind `k` (R943, R944): everything that the table does not name is at its reset value; DRAM that is
lost reads as unlisted bytes do (DESIGN CHOICE, log entry 29); a frame write in flight outlives a reset by the pin (R123). -/
def Chip.afterReset (ch : Chip) (k : ResetKind) : Chip :=
  let n := Chip.reset ch.variant ch.boot.straps
  let kp := k.keeps
  let keepTime := kp || k == .sideband
  let t0 := if keepTime then ch.time else 0
  let wdg : Watchdogs := if kp then { n.wdg with
      periodMs := ch.wdg.periodMs, locked := ch.wdg.locked, left := ch.wdg.periodMs * 32, backup := ch.wdg.backup,
      woscHz := ch.wdg.woscHz, tripped := ch.wdg.tripped, tripCause := ch.wdg.tripCause, tripTime := ch.wdg.tripTime,
      restarts := ch.wdg.restarts }
    else n.wdg
  let dram := fun (x : Nat) => x < ch.variant.dramBytes
  let a : Chip := { n with
    tray := ch.tray
    strapPins := ch.strapPins
    time := t0
    phase := if keepTime then ch.phase else 0
    mem := if kp then ch.mem.filter (fun x => dram x.1) else []
    badLines := if kp then ch.badLines.filter (fun l => dram l) else []
    softLines := if kp then ch.softLines.filter (fun l => dram l) else []
    ler := { n.ler with mram := ch.ler.mram, writing := if k == .pin then ch.ler.writing else none, lerCfg := if kp then ch.ler.lerCfg else n.ler.lerCfg }
    rcv := { n.rcv with stwRestarts := if kp then ch.rcv.stwRestarts else 0 }
    wdg := wdg
    pwr := { n.pwr with
      rails := ch.pwr.rails, powerGood := ch.pwr.powerGood, pwrFail := ch.pwr.pwrFail, armed := ch.pwr.armed, latched := ch.pwr.latched,
      autoIdle := if kp then ch.pwr.autoIdle else n.pwr.autoIdle
      idleDelay := if kp then ch.pwr.idleDelay else n.pwr.idleDelay }
    bg := if kp then { n.bg with cfg := ch.bg.cfg, cfg2 := ch.bg.cfg2, dramPos := ch.bg.dramPos }.since t0 else n.bg.since t0
    sb := if kp || k == .sideband then ch.sb else n.sb
    tap := ch.tap
    boot := { n.boot with cause := k, retrain := kp, since := t0, straps := ch.boot.straps }
    free := ch.free
    out := ch.out }
  let b : Chip := { a with
    pods := (a.pods.zip ch.pods).map fun x => if keepFence kp x.2.fenced x.2.kept then { x.1 with fenced := true, kept := true } else x.1
    cores := (a.cores.zip ch.cores).map fun x => if keepFence kp x.2.sfuFenced x.2.sfuKept then { x.1 with sfuFenced := true, sfuKept := true } else x.1
    cus := (a.cus.zip ch.cus).map fun x => if keepFence kp x.2.fenced x.2.kept then { x.1 with fenced := true, kept := true } else x.1
    tes := (a.tes.zip ch.tes).map fun x => if keepFence kp x.2.fenced x.2.kept then { x.1 with fenced := true, kept := true } else x.1
    links := (a.links.zip ch.links).map fun x => if keepFence kp x.2.fenced x.2.kept then { x.1 with fenced := true, kept := true } else x.1 }
  let d := b.portDown ch
  if ch.ler.fatals.isEmpty then d else d.emit (.pin pinAlert true)

/-- A reset that waits is performed once the record is sealed (R943); a grant of the flash switch ends with it. -/
def execChipResetPerform (c : Nat) (s : State) : Host.Outcome State Fault Refusal :=
  let ch := s.chip c
  match ch.boot.pendingReset with
  | some k => if ch.alive && ch.sealed k then onChip c (fun x => x.afterReset k) (s.dropSwitch c) else onChip c id s
  | none => onChip c id s

/-- Chip watchdog stage 2 expires: a warm reset once the frame in flight is written (R790). -/
def execChipWdgStage2 (c : Nat) (s : State) : Host.Outcome State Fault Refusal :=
  onChip c (fun ch =>
    if ch.alive && ch.wdg.stage2 && !ch.wdg.frozen && ch.wdg.left == 0 && ch.boot.pendingReset != some .watchdog then ch.askReset .watchdog
    else ch) s

/-- RST_N is low: every domain but the wake domain is reset at once, before any other signal or command and over any reset that waits; a
frame write in flight goes on (R118, R123, R945). -/
def execRstNLow (c : Nat) (s : State) : Host.Outcome State Fault Refusal :=
  if (s.chip c).alive then onChip c (fun ch => ch.afterReset .pin) (s.dropSwitch c) else onChip c id s

/-- The twin's RESET_REQ: performed when the boot count and SB_AGE match (R753). -/
def execResetReq (c count : Nat) (s : State) : Host.Outcome State Fault Refusal :=
  onTwinMsg c (fun ch =>
    if count == ch.ler.bootCount && 10000 ≤ ch.sbAge then (ch.ev 0x0707 err 0x72 0xFF cOK count).askReset .twin
    else ch.ev 0x0708 info 0x72 0xFF cOK count) s

end Sys2Proof.Machine
end

