-- ==== Sys2Proof/Machine/Background.lean ====
section
/-! DEFINITION. Background work: patrol and scrub, thermal sampling, calibrations, adaptation, and overdue firmware tasks
(R843 to R865). -/
namespace Sys2Proof.Machine

/-! ## Where background work may run (R848 to R852) -/

/-- Pod `d` may be used by background work: no partition holds it, or its partition is in a slot or in idle time, and fc runs. -/
def Chip.bgPod (ch : Chip) (d : Nat) : Bool :=
  ch.fcRuns && (match ch.partOfPod d with
    | none => true
    | some p => (ch.part p).inSlot || !(ch.part p).running)

/-- A background step runs in a slot or in idle time: it takes time and changes no state (R848, R853). -/
def execBgStep (c : Nat) (s : State) : Host.Outcome State Fault Refusal := onChip c id s

/-! ## Errors of memory cells and their scrubbing (R81, R852 to R855) -/

/-- Errors that have arisen in lines of DRAM, pod stores and core stores: their addresses, and whether they can be corrected. -/
def Chip.addErrors (ch : Chip) (errs : List (Nat × Bool)) : Chip :=
  { ch with
    softLines := (errs.filter fun e => e.2).map (fun e => lineOf e.1) ++ ch.softLines
    badLines := (errs.filter fun e => !e.2).map (fun e => lineOf e.1) ++ ch.badLines }

/-- The line at an address is good again after a corrected writeback (R854). -/
def Chip.scrubbed (ch : Chip) (l : Nat) : Chip := { ch with softLines := ch.softLines.filter fun x => x != l }

/-- SCRUB_UNCORR (R855, R862). -/
def Chip.scrubUncorr (ch : Chip) (addr kind : Nat) : Chip := ch.ev 0x0A01 err 0xFF 0xFF cECC addr kind

/-- The patrol reads the next line of DRAM (R852, R854, R855, R865); `errs` are errors that have arisen by then. -/
def execDramPatrolLine (c : Nat) (errs : List (Nat × Bool)) (s : State) : Host.Outcome State Fault Refusal :=
  onChip c (fun ch0 =>
    if !ch0.alive || ch0.pwr.state == .standby || ch0.pwr.state == .dormantReady then ch0
    else
      let ch := ch0.addErrors errs
      let l := ch.bg.dramPos
      let soft := ch.softLines.contains l && !ch.badLines.contains l
      let a := if ch.badLines.contains l then ch.scrubUncorr l 1
        else if soft then
          let b := (ch.countSoft l 64).scrubbed l
          { b with bg := { b.bg with passCorrected := b.bg.passCorrected + 1 } }
        else ch
      if l + 64 < ch.variant.dramBytes then { a with bg := { a.bg with dramPos := l + 64 } }
      else
        let n := a.bg.passCorrected
        ({ a with bg := { a.bg with
          dramPos := 0, passes := (a.bg.passes + 1) % 2 ^ 32, passCorrected := 0, passHours := bitsOf a.bg.cfg 24 8 } } : Chip).ev
          0x0A02 info 0xFF 0xFF cOK n) s

/-- The line of a core's instruction memory, at an offset: scrubbed, or left as it is and reported (R855). -/
def Chip.scrubCode (ch : Chip) (k l : Nat) (errs : List (Nat × Bool)) : Chip :=
  let a := ch.modCore k fun x => { x with
    softCode := (errs.filter fun e => e.2).map (fun e => lineOf e.1) ++ x.softCode
    badCode := (errs.filter fun e => !e.2).map (fun e => lineOf e.1) ++ x.badCode }
  if (a.core k).badCode.contains l then a.scrubUncorr l 4
  else a.modCore k fun x => { x with softCode := x.softCode.filter fun y => y != l }

/-- The shadow line of a core store line at an address (R855): one that cannot be corrected makes the restored line report. -/
def Chip.scrubShadow (ch : Chip) (k l : Nat) (errs : List (Nat × Bool)) : Chip :=
  let bad := (errs.filter fun e => !e.2).map fun e => lineOf e.1
  let a := ch.modCore k fun x => { x with epochs := x.epochs.map fun e =>
    { e with bad := (bad.filter fun y => e.lines.any fun z => z.1 == y) ++ e.bad } }
  if (a.core k).epochs.any fun e => e.bad.contains l then a.scrubUncorr l 5 else a

/-- The receive store of a channel's receiver: its oldest queued message cannot be corrected (R855). -/
def Chip.scrubReceive (ch : Chip) (id : Nat) (errs : List (Nat × Bool)) : Chip :=
  if errs.any fun e => !e.2 then
    ({ ch with chans := ch.chans.map fun x => if x.id == id then { x with queue := x.queue.modify 0 fun m => { m with bad := true } } else x } :
      Chip).scrubUncorr id 5
  else ch

/-- The scrub of one SRAM line (R852, R854, R855): `kind` 2 a core store, 3 a pod store, 4 instruction memory, 5 a shadow store and
6 a receive store of unit `n`; `line` its address, offset or channel; `errs` the errors that have arisen by then. -/
def execSramScrubStep (c kind n line : Nat) (errs : List (Nat × Bool)) (s : State) : Host.Outcome State Fault Refusal :=
  onChip c (fun ch =>
    let d := if kind == 3 then n else podOf n
    let l := lineOf line
    if !ch.alive || !ch.bgPod d then ch
    else match kind with
      | 4 => ch.scrubCode n l errs
      | 5 => ch.scrubShadow n l errs
      | 6 => ch.scrubReceive line errs
      | _ =>
        let a := ch.addErrors errs
        if a.badLines.contains l then a.scrubUncorr l kind
        else if kind == 3 && a.softLines.contains l then (a.countLine l).scrubbed l
        else a.scrubbed l) s

/-! ## Firmware tasks (R852, R857, R858) -/

/-- A task that was due at `due` runs now: its BG_OVERDUE bit clears when it runs on time (R864). -/
def Chip.onTime (ch : Chip) (bit last period : Nat) : Chip :=
  if ch.time ≤ last + 2 * period && bitOf ch.bg.overdue bit then { ch with bg := { ch.bg with overdue := ch.bg.overdue - 2 ^ bit } } else ch

/-- Periods in ns: thermal sampling, droop calibration, SerDes adaptation, HBM calibration (R864). -/
def Background.thermNs (b : Background) : Nat := bitsOf b.cfg 8 8 * 10000000
/-- Droop calibration. -/
def Background.droopNs (b : Background) : Nat := bitsOf b.cfg 4 4 * 1000000000
/-- SerDes adaptation. -/
def Background.serdesNs (b : Background) : Nat := bitsOf b.cfg 0 4 * 1000000000
/-- HBM calibration. -/
def Background.hbmNs (b : Background) : Nat := bitsOf b.cfg2 8 8 * 10000000

/-- A die temperature in 1/16 degree as a signed number. -/
def temp (t : Nat) : Int := sgn 16 t

/-- The steward samples the thermal and power sensors: die and stack in 1/16 degree as 16-bit numbers, mW, mJ (R852, R889, R892). -/
def execThermalSample (c die stack power energy : Nat) (s : State) : Host.Outcome State Fault Refusal :=
  onChip c (fun ch =>
    if !ch.stwRuns then ch
    else
      let a := ch.onTime 0 ch.bg.lastThermal ch.bg.thermNs
      let d := die % 0x10000
      { a with
        bg := { a.bg with lastThermal := a.time }
        pwr := { a.pwr with
          dieTemp := d
          stackTemp := stack % 0x10000
          powerMw := power % 2 ^ 32
          energyMj := energy % 2 ^ 64
          hotSince := if temp d < 105 * 16 then none else some (a.pwr.hotSince.getD a.time)
          coolSince := if 95 * 16 < temp d then none else some (a.pwr.coolSince.getD a.time) } }) s

/-- A test pattern on a pod's array in a slot adjusts its guardband; no result changes (R852, R853). -/
def execDroopCalibration (c d : Nat) (s : State) : Host.Outcome State Fault Refusal :=
  onChip c (fun ch =>
    if ch.stwRuns && d < ch.pods.length && ch.bgPod d then
      let a := ch.onTime 1 (ch.bg.lastDroop.getD d 0) ch.bg.droopNs
      { a with bg := { a.bg with lastDroop := a.bg.lastDroop.set d a.time } }
    else ch) s

/-- The lanes of a link are re-adapted in mission; `low` says a lane's margin lies below the training threshold (R858). -/
def execSerdesAdaptation (c n : Nat) (low : Bool) (s : State) : Host.Outcome State Fault Refusal :=
  onChip c (fun ch =>
    if ch.alive && n < ch.links.length && (ch.link n).state == .up then
      let a := ch.onTime 2 (ch.bg.lastSerdes.getD n 0) ch.bg.serdesNs
      let b : Chip := { a with bg := { a.bg with lastSerdes := a.bg.lastSerdes.set n a.time } }
      if low then b.ev 0x0A06 warn (0x60 + n) 0xFF cOK 0 n else b
    else ch) s

/-- One pseudo-channel of a stack is recalibrated (R852). -/
def execHbmCalibration (c stack : Nat) (s : State) : Host.Outcome State Fault Refusal :=
  onChip c (fun ch =>
    if ch.alive && stack < ch.variant.stacks then
      let a := ch.onTime 3 (ch.bg.lastHbm.getD stack 0) ch.bg.hbmNs
      { a with bg := { a.bg with lastHbm := a.bg.lastHbm.set stack a.time } }
    else ch) s

/-- A task has become later than twice its period: its bit is set and CAL_OVERDUE raised (R857). -/
def Chip.overdue (ch : Chip) (bit : Nat) (late : Bool) : Chip :=
  if late && !bitOf ch.bg.overdue bit then
    ({ ch with bg := { ch.bg with overdue := ch.bg.overdue + 2 ^ bit } } : Chip).ev 0x0A05 warn 0x70 0xFF cOK 0 bit
  else ch

/-- The tasks' lateness at this TIME (R857, R858). -/
def Chip.checkOverdue (ch : Chip) : Chip :=
  let b := ch.bg
  let late := fun (last period : Nat) => last + 2 * period < ch.time
  let a0 := ch.overdue 0 (late b.lastThermal b.thermNs)
  let a1 := a0.overdue 1 ((List.range ch.pods.length).any fun d => late (b.lastDroop.getD d 0) b.droopNs)
  let a2 := a1.overdue 2 ((List.range ch.links.length).any fun n => ch.linkUp n && late (b.lastSerdes.getD n 0) b.serdesNs)
  let a3 := a2.overdue 3 (ch.pwr.state != .standby && (List.range ch.variant.stacks).any fun n => late (b.lastHbm.getD n 0) b.hbmNs)
  a3.overdue 4 (b.telemWait.any fun e => late e.2.1 (1000 * (ch.part e.1).plate.period))

end Sys2Proof.Machine
end

