-- ==== Sys2Proof/Machine/Plate.lean ====
section
/-! DEFINITION. The plate: its layout, its sections and its validation in the order of R169 (R125 to R160, R169 to R171, R177,
R191, R408, R409, R419, R504, R608, R684, R698). -/
namespace Sys2Proof.Machine

/-! ## Refusals (R169 to R171) -/

/-- The refusal of a plate: error code, sub-code, directory index and partition. -/
structure PlateErr where
  code : Nat := cPLATEBAD
  sub : Nat := 0
  sec : Nat := 0xFFFF
  part : Nat := 0xFF
  deriving DecidableEq, Repr, Inhabited

/-- PLATE_BAD with a sub-code. -/
def badIf (c : Bool) (sub : Nat) (sec : Nat := 0xFFFF) (part : Nat := 0xFF) : Option PlateErr :=
  if c then some { sub := sub, sec := sec, part := part } else none

/-- A refusal with another code. -/
def errIf (c : Bool) (code sub : Nat) (sec : Nat := 0xFFFF) (part : Nat := 0xFF) : Option PlateErr :=
  if c then some { code := code, sub := sub, sec := sec, part := part } else none

/-- The first refusal of a list of checks, in order. -/
def firstErr {α : Type} (l : List α) (f : α → Option PlateErr) : Option PlateErr := l.findSome? f

/-! ## The parts of a plate (R125 to R130) -/

/-- An entry of the directory with the bytes of its section (R128). -/
structure Sec where
  idx : Nat := 0
  typ : Nat := 0
  inst : Nat := 0
  off : Nat := 0
  crc : Nat := 0
  bytes : List Nat := []
  deriving DecidableEq, Repr, Inhabited

/-- The partition that a section concerns, 0xFF for a chip-wide one. -/
def Sec.part (e : Sec) : Nat := if e.inst < 8 then e.inst else 0xFF

/-- A plate is a base plate of some partitions, an overlay of one, or an embedded fallback with the content that carries it. -/
inductive PlateMode where
  | base (count : Nat)
  | overlay (p : Nat)
  | fallback (p : Nat) (holder : Content)
  deriving DecidableEq, Repr

/-- A plate under validation: its bytes, its mode, the end of its sections, and what it is checked against: chip-wide timeouts,
twin mode and mask, and the other partitions, each with the contents that it holds or will hold. -/
structure PlateDoc where
  mode : PlateMode
  bytes : List Nat
  stop : Nat
  secs : List Sec := []
  times : List Nat := []
  twin : List Nat := [0, 0, 0]
  others : List (Nat × List Content) := []
  deriving DecidableEq, Repr

/-- A field of the header. -/
def PlateDoc.field (d : PlateDoc) (off n : Nat) : Nat := leAt d.bytes off n

/-- The partitions that the plate describes. -/
def PlateDoc.parts (d : PlateDoc) : List Nat :=
  match d.mode with
  | .base n => List.range n
  | .overlay p => [p]
  | .fallback p _ => [p]

/-- It is a base plate. -/
def PlateDoc.isBase (d : PlateDoc) : Bool := match d.mode with | .base _ => true | _ => false

/-- Entry `i` of the directory (R128). -/
def secAt (b : List Nat) (i : Nat) : Sec :=
  let e := 64 + 16 * i
  let off := leAt b (e + 4) 4
  { idx := i, typ := leAt b e 2, inst := leAt b (e + 2) 2, off := off, crc := leAt b (e + 12) 4,
    bytes := (b.drop off).take (leAt b (e + 8) 4) }

/-- Length of entry `i` as the directory gives it. -/
def secLen (b : List Nat) (i : Nat) : Nat := leAt b (72 + 16 * i) 4

/-- The section of a type and instance. -/
def PlateDoc.find (d : PlateDoc) (typ inst : Nat) : Option Sec := d.secs.find? fun e => e.typ == typ && e.inst == inst

/-- Directory index of a section of partition `p`, else of its partition section. -/
def PlateDoc.at (d : PlateDoc) (typ p : Nat) : Nat :=
  match d.find typ p with
  | some e => e.idx
  | none => ((d.find 1 p).map Sec.idx).getD 0xFFFF

/-! ## Sections as data (R131 to R153) -/

/-- A field of 0 takes its default. -/
def orDefault (v dflt : Nat) : Nat := if v == 0 then dflt else v

/-- A partition section and its timeouts, with the defaults, the bandwidth shares as they stand (R131, R136). -/
def partOf (b t : List Nat) : PartPlate :=
  let stream := orDefault (leAt t 4 4) 1000
  { podMask := leAt b 0 1, cls := leAt b 1 1, source := leAt b 2 1, policy := leAt b 3 1, period := leAt b 4 4,
    phase := leAt b 8 4, stipple := orDefault (leAt b 12 1) 4, expert := bitOf (leAt b 13 1) 0, tickOut := bitOf (leAt b 13 1) 1,
    cuMask := leAt b 14 1, teMask := leAt b 15 1, linkMask := leAt b 16 1, bwRead := leAt b 17 1, bwWrite := leAt b 18 1,
    bwRemote := leAt b 19 1, peer0 := leAt b 22 1, peer1 := leAt b 23 1, dramBase := leAt b 24 8, dramSize := leAt b 32 8,
    spill := leAt b 40 8, workCycles := leAt b 48 4, fixedUs := leAt b 52 4, podBytes := leAt b 56 4, coreBytes := leAt b 60 4,
    msgWaitUs := orDefault (leAt t 0 4) 200, streamUs := stream, coreWdg := orDefault (leAt t 8 4) (stream * 5600) }

/-- `n` entries of `w` bytes from an offset of a section. -/
def entriesOf (b : List Nat) (off w n : Nat) : List (List Nat) := (List.range n).map fun i => sliceB b (off + w * i) w

/-- Channel entries (R139). -/
def chansOf (b : List Nat) : List ChanEntry :=
  (entriesOf b 0 16 (b.length / 16)).map fun e =>
    { id := leAt e 0 2, srcCore := leAt e 2 1, srcPort := leAt e 3 1, dstCore := leAt e 4 1, dstPort := leAt e 5 1,
      route := leAt e 6 1, depth := leAt e 7 1, msgBytes := leAt e 8 2 }

/-- Synchronisation objects (R141). -/
def syncsOf (b : List Nat) : List SyncEntry :=
  (entriesOf b 0 8 (b.length / 8)).map fun e => { obj := leAt e 0 2, kind := leAt e 2 1, initial := leAt e 4 4 }

/-- Entries of 16 bytes after a count (R142, R144). -/
def countedOf (b : List Nat) : List (List Nat) := entriesOf b 4 16 (leAt b 0 4)

/-- The instruction words of an image. -/
def imageWords (b : List Nat) (off len : Nat) : List W64 :=
  (List.range (len / 8)).map fun i => BitVec.ofNat 64 (leAt b (off + 8 * i) 8)

/-- Code entries (R142). -/
def codeOf (b : List Nat) : List CodeEntry :=
  (countedOf b).map fun e => { core := leAt e 0 1, entryPc := leAt e 4 4, image := imageWords b (leAt e 12 4) (leAt e 8 4) }

/-- Preload entries: address and bytes (R144); data_off counts from the header of the plate (R125). -/
def preloadOf (plate b : List Nat) : List (Nat × List Nat) :=
  (countedOf b).map fun e => (leAt e 0 8, sliceB plate (leAt e 12 4) (leAt e 8 4))

/-- SFU tables (R145). -/
def sfuOf (b : List Nat) : List SfuTable :=
  (entriesOf b 4 3076 (leAt b 0 4)).map fun e =>
    { id := leAt e 0 1, interp := leAt e 1 1, coef := (List.range 768).map fun i => leAt e (4 + 4 * i) 4 }

/-- Entries of a section with heads of `hd` bytes that give the length of the body; none where they do not fill the section, which step 16
refuses with FIELD (DESIGN CHOICE, log entry 54). -/
def walk (hd : Nat) (len : List Nat → Nat) : Nat → List Nat → Option (List (List Nat × List Nat))
  | 0, b => if b.isEmpty then some [] else none
  | n + 1, b =>
    let h := b.take hd
    let l := len h
    if h.length < hd || (b.drop hd).length < l then none
    else (walk hd len n (b.drop (hd + l))).map fun r => (h, (b.drop hd).take l) :: r

/-- The heads of such a section as far as its bodies lie in it. -/
def walkHeads (hd : Nat) (len : List Nat → Nat) : Nat → List Nat → List (List Nat)
  | 0, _ => []
  | n + 1, b => let h := b.take hd; if h.length < hd then [] else h :: walkHeads hd len n (b.drop (hd + len h))

/-- The heads and bodies of a burin_programs section (R147). -/
def burinWalk (b : List Nat) : Option (List (List Nat × List Nat)) := walk 4 (fun h => 8 * leAt h 1 1) (leAt b 0 4) (b.drop 4)
/-- The heads and bodies of a coder_tables section (R148). -/
def coderWalk (b : List Nat) : Option (List (List Nat × List Nat)) := walk 8 (fun h => leAt h 4 4) (leAt b 0 4) (b.drop 4)
/-- The heads and bodies of a narrowing section (R151). -/
def narrowWalk (b : List Nat) : Option (List (List Nat × List Nat)) := walk 12 (fun h => leAt h 8 4) (leAt b 0 4) (b.drop 4)

/-- Burin programs: id and steps (R147, R501). -/
def burinOf (b : List Nat) : List (Nat × List Nat) :=
  ((burinWalk b).getD []).map fun e => (leAt e.1 0 1, (List.range (e.2.length / 8)).map fun i => leAt e.2 (8 * i) 8)

/-- Coder tables (R148). -/
def coderOf (b : List Nat) : List CoderTable :=
  ((coderWalk b).getD []).map fun e => { id := leAt e.1 0 2, kind := leAt e.1 2 1, bins := leAt e.1 3 1 + 1, body := e.2 }

/-- Narrowing profiles (R151, R698): 4 bytes of scale per channel, then the zero points. -/
def narrowOf (b : List Nat) : List Profile :=
  ((narrowWalk b).getD []).map fun e =>
    let fl := leAt e.1 4 1
    let n := leAt e.1 6 2
    { id := leAt e.1 0 1, link := leAt e.1 1 1, format := leAt e.1 2 1, tensor := leAt e.1 3 1, flags := fl,
      clipHigh := leAt e.1 5 1, channels := n
      scales := if bitOf fl 1 then (List.range n).map fun i => leAt e.2 (4 * i) 4 else []
      zeros := if bitOf fl 0 then (List.range n).map fun i => leAt e.2 (4 * n + i) 1 else [] }

/-- The content of partition `p` as its sections give it; a section that is absent gives nothing (R172). -/
def PlateDoc.content (d : PlateDoc) (p : Nat) : Content :=
  let b := fun t => ((d.find t p).map Sec.bytes).getD []
  { plate := partOf (b 1) (b 2)
    tables := { chans := chansOf (b 3), syncs := syncsOf (b 4), code := codeOf (b 5), preload := preloadOf d.bytes (b 6), sfu := sfuOf (b 7),
                burin := burinOf (b 8), coder := coderOf (b 9), narrow := narrowOf (b 10) } }

/-! ## Steps 12 to 15: the directory -/

/-- Step 12: directory layout (R128, R129). -/
def PlateDoc.dirErr (d : PlateDoc) : Option PlateErr :=
  let n := d.field 12 2
  let first := 64 + 16 * n
  let span := fun i => (leAt d.bytes (68 + 16 * i) 4, secLen d.bytes i)
  let tag := fun i => leAt d.bytes (64 + 16 * i) 4
  let part := fun i => (secAt d.bytes i).part
  badIf (n == 0 || 1024 < n || d.stop < first) 0x08 <|>
  firstErr (List.range n) fun i =>
    let (o, l) := span i
    badIf (o % 64 != 0 || o < first || d.stop < o + l ||
      (List.range i).any fun j =>
        let (a, m) := span j
        tag j == tag i || (a < o + l && o < a + m)) 0x08 i (part i)

/-- Step 13: the crc of each section, in directory order. -/
def PlateDoc.crcErr (d : PlateDoc) : Option PlateErr :=
  firstErr d.secs fun e => badIf (crc32c e.bytes != e.crc) 0x09 e.idx e.part

/-- Step 14: types known, and allowed for the kind and instance (R155). -/
def PlateDoc.typeErr (d : PlateDoc) : Option PlateErr :=
  firstErr d.secs fun e =>
    badIf (e.typ == 0 || 12 < e.typ) 0x0A e.idx e.part <|>
    match d.mode with
    | .base n =>
      let whole := e.typ == 11 || (e.typ == 2 && e.inst == 0xFFFF)
      let be := e.typ == 12 && (match d.find 1 e.inst with | some x => leAt x.bytes 1 1 == 1 | none => false)
      badIf ((if whole then e.inst != 0xFFFF else n ≤ e.inst) || be) 0x0A e.idx e.part
    | .overlay p => badIf (e.typ == 11 || e.inst != p) 0x31 e.idx p
    | .fallback p _ => badIf (e.typ == 11 || e.inst != p) 0x31 e.idx p

/-- Step 15: the required sections are present. -/
def PlateDoc.missingErr (d : PlateDoc) : Option PlateErr :=
  firstErr d.parts (fun p => badIf (d.find 1 p).isNone 0x0B 0xFFFF p) <|>
  badIf (d.isBase && (d.find 2 0xFFFF).isNone) 0x0B <|>
  firstErr d.parts fun p => badIf (d.find 5 p).isNone 0x0B 0xFFFF p

/-! ## Step 16: encodings and bounds -/

/-- A field within bounds, or 0 for its default. -/
def within (v lo hi : Nat) : Bool := v == 0 || (lo ≤ v && v ≤ hi)

/-- The peer fields of a partition section (R683, R684). -/
def Chip.peersOk (ch : Chip) (x : PartPlate) : Bool :=
  let me := ch.boot.straps
  let links := (List.range ch.links.length).filter fun n => bitOf x.linkMask n
  let ok := fun v =>
    if v == 0xFF then true
    else if v ≤ 3 then v != me && v != me ^^^ 1 && links.any fun n => ((wired ch.tray me n).map Prod.fst) == some v
    else 0x20 ≤ v && v ≤ 0x25 && links.contains (v - 0x20) && (wired ch.tray me (v - 0x20)).isNone
  ok x.peer0 && ok x.peer1 && (x.peer0 == 0xFF || x.peer0 != x.peer1)

/-- A partition section within its encodings and bounds (R131); reserved bits of a mask or of the flags are encodings that R19
refuses (DEDUCED, log entry 31). -/
def Chip.partFieldsOk (ch : Chip) (b : List Nat) : Bool :=
  let x := partOf b []
  let st := leAt b 12 1
  b.length == 64 && x.podMask != 0 && x.cls ≤ 1 && x.source ≤ 2 && x.policy ≤ 2 && 250 ≤ x.period && x.period ≤ 2000000 &&
  x.phase < x.period && within st 2 25 && leAt b 13 1 < 4 && x.cuMask < 16 && x.teMask < 4 && x.linkMask < 64 &&
  x.bwRead ≤ 63 && x.bwWrite ≤ 63 && x.bwRemote ≤ 63 && leAt b 20 2 ≤ 1024 && x.dramBase % mib64 == 0 && x.dramSize != 0 &&
  x.dramSize % mib64 == 0 && x.spill % mib64 == 0 && (if x.cls == 0 then x.spill == 0 else x.spill ≤ x.dramSize) && ch.peersOk x

/-- A timeouts section within its bounds (R136). -/
def timeoutsOk (b : List Nat) (chip : Bool) : Bool :=
  b.length == 16 &&
  if chip then within (leAt b 0 1) 1 8 && within (leAt b 1 1) 1 3 && within (leAt b 4 2) 50 1000 && within (leAt b 6 2) 100 2500
  else within (leAt b 0 4) 20 100000 && within (leAt b 4 4) 50 1000000 && within (leAt b 8 4) 65536 0xFFFFFFFF

/-- Every channel entry within its bounds (R139). -/
def chansOk (b : List Nat) : Bool :=
  b.length % 16 == 0 && (chansOf b).all fun e =>
    e.id ≤ 4095 && e.srcCore ≤ 63 && e.srcPort ≤ 15 && e.dstCore ≤ 63 && e.dstPort ≤ 15 && e.route ≤ 1 && 1 ≤ e.depth && e.depth ≤ 64 &&
    (e.msgBytes == 64 || e.msgBytes == 128 || e.msgBytes == 256 || e.msgBytes == 512)

/-- The initial value of a synchronisation object within the bounds of its kind (R419). -/
def SyncEntry.ok (e : SyncEntry) : Bool :=
  e.obj ≤ 1023 && match e.kind with
    | 0 => true
    | 1 => e.initial ≤ 1
    | 2 => 1 ≤ e.initial && e.initial ≤ 64
    | 3 => e.initial == 0
    | 4 => true
    | _ => false

/-- Every synchronisation object within its bounds (R141, R419). -/
def syncsOk (b : List Nat) : Bool := b.length % 8 == 0 && (syncsOf b).all SyncEntry.ok

/-- The entries of a counted section lie in it. -/
def countedOk (b : List Nat) : Bool := 4 ≤ b.length && 4 + 16 * leAt b 0 4 ≤ b.length

/-- Every code entry within its bounds (R142). -/
def codeOk (b : List Nat) : Bool :=
  countedOk b && (countedOf b).all fun e =>
    let len := leAt e 8 4
    leAt e 0 1 ≤ 63 && len % 8 == 0 && len ≤ 262144 && leAt e 4 4 % 8 == 0 && leAt e 4 4 < len && leAt e 12 4 % 64 == 0

/-- Every SFU table within its bounds (R145). -/
def sfuOk (b : List Nat) : Bool :=
  4 ≤ b.length && b.length == 4 + 3076 * leAt b 0 4 && (sfuOf b).all fun t => t.id ≤ 15 && t.interp ≤ 1

/-- Every burin program within its bounds; d names w0 to w6 (R147, R501). -/
def burinOk (b : List Nat) : Bool :=
  4 ≤ b.length && match burinWalk b with
    | none => false
    | some l => l.all (fun e => leAt e.1 0 1 ≤ 63 && 1 ≤ leAt e.1 1 1 && leAt e.1 1 1 ≤ 32) &&
        (burinOf b).all fun e => e.2.all fun st => bitsOf st 8 3 != 7

/-- The heads of a coder_tables section that its body lengths lead to. -/
def coderHeads (b : List Nat) : List (List Nat) := walkHeads 8 (fun h => leAt h 4 4) (leAt b 0 4) (b.drop 4)

/-- body_len of a coder table's head differs from what its kind and bins ask (R607, R608). -/
def coderLenBad (h : List Nat) : Bool :=
  let bins := leAt h 3 1 + 1
  leAt h 4 4 != if leAt h 2 1 == 0 then 2 * bins else 4 + 2048 * bins

/-- Every coder table's head within its bounds (R148); a body_len that its table does not have is refused at step 23 (R608). -/
def coderOk (b : List Nat) : Bool :=
  4 ≤ b.length && (coderHeads b).all (fun h => leAt h 0 2 ≤ 4095 && leAt h 2 1 ≤ 3 && 1 ≤ leAt h 3 1) &&
  ((coderHeads b).any coderLenBad || (coderWalk b).isSome)

/-- The heads of a narrowing section that its body lengths lead to. -/
def narrowHeads (b : List Nat) : List (List Nat) := walkHeads 12 (fun h => leAt h 8 4) (leAt b 0 4) (b.drop 4)

/-- body_len of a narrowing profile's head differs from what its channels and flags ask (R698). -/
def narrowLenBad (h : List Nat) : Bool :=
  let n := leAt h 6 2
  leAt h 8 4 != 4 * n + (if bitOf (leAt h 4 1) 0 then n else 0)

/-- Every narrowing profile's head within its bounds (R151); a body_len that its profile does not have is refused at step 23 (R698). -/
def narrowOk (b : List Nat) : Bool :=
  4 ≤ b.length && (narrowHeads b).all (fun h => leAt h 0 1 ≤ 63 && leAt h 1 1 ≤ 5 && leAt h 2 1 ≤ 3 && leAt h 3 1 ≤ 2 && leAt h 4 1 < 8) &&
  ((narrowHeads b).any narrowLenBad || (narrowWalk b).isSome)

/-- Step 16 for one section. -/
def Chip.secFieldsOk (ch : Chip) (e : Sec) : Bool :=
  match e.typ with
  | 1 => ch.partFieldsOk e.bytes
  | 2 => timeoutsOk e.bytes (e.inst == 0xFFFF)
  | 3 => chansOk e.bytes
  | 4 => syncsOk e.bytes
  | 5 => codeOk e.bytes
  | 6 => countedOk e.bytes
  | 7 => sfuOk e.bytes
  | 8 => burinOk e.bytes
  | 9 => coderOk e.bytes
  | 10 => narrowOk e.bytes
  | 11 => e.bytes.length == 16 && leAt e.bytes 0 1 ≤ 2
  | _ => true

/-- Step 16, in directory order. -/
def PlateDoc.fieldErr (d : PlateDoc) (ch : Chip) : Option PlateErr :=
  firstErr d.secs fun e => badIf (!ch.secFieldsOk e) 0x0C e.idx e.part

/-! ## Step 17: presence (R98, R330) -/

/-- A mask names a unit that the variant lacks. -/
def lacks (mask n : Nat) : Bool := mask ≥ 2 ^ n

/-- The fields that a vector floating-point instruction uses, by opcode (R309, R310). -/
def fpUsed (op : Nat) : Nat :=
  let between := fun a b => decide (a ≤ op) && decide (op ≤ b)
  let sel := fun (c : Bool) (m : Nat) => if c then m else 0
  mD ||| mA ||| mP ||| mFMT |||
    sel (between 0x80 0x83 || between 0x85 0x8C || op == 0x90 || op == 0x92 || op == 0x93) mB |||
    sel (between 0x85 0x87) mC |||
    sel (between 0x80 0x87 || between 0x8E 0x90 || between 0x94 0x96) mRM |||
    sel (op == 0x8C) (0xF <<< 16) ||| sel (op == 0x92) (3 <<< 16) ||| sel (op == 0x94) (0x7F <<< 16) |||
    sel (between 0x95 0x96) (mEW ||| (0x11 <<< 16))

/-- An instruction that names FP64 as FMT or as a source (R330). A word with a reserved bit set is no instruction (R310). -/
def namesFp64 (w : W64) : Bool :=
  let op := w.toNat / 2 ^ 56
  0x80 ≤ op && op ≤ 0x96 && fieldsOk (fpUsed op) w && (bitsOf w.toNat 26 4 == 0xA || (op == 0x94 && bitsOf w.toNat 16 4 == 0xA))

/-- Step 17, in directory order. -/
def PlateDoc.presentErr (d : PlateDoc) (ch : Chip) : Option PlateErr :=
  let far := fun k => ch.cores.length ≤ k
  firstErr d.secs fun e =>
    match e.typ with
    | 1 =>
      let x := partOf e.bytes []
      badIf (lacks x.podMask ch.pods.length) 0x10 e.idx e.part <|>
      badIf (lacks x.linkMask ch.links.length) 0x12 e.idx e.part <|>
      badIf (lacks x.teMask ch.tes.length) 0x13 e.idx e.part <|>
      badIf (lacks x.cuMask ch.cus.length) 0x14 e.idx e.part
    | 3 => badIf ((chansOf e.bytes).any fun c => far c.srcCore || far c.dstCore) 0x10 e.idx e.part
    | 5 =>
      badIf ((codeOf e.bytes).any fun c => far c.core) 0x10 e.idx e.part <|>
      badIf (!ch.variant.fp64 && (codeOf e.bytes).any fun c => c.image.any namesFp64) 0x15 e.idx e.part
    | 10 => badIf ((narrowOf e.bytes).any fun x => ch.links.length ≤ x.link) 0x12 e.idx e.part
    | _ => none

/-! ## Step 18: claims (R156, R173) -/

/-- What a section claims, as pairs of a kind and a number: pods 0, coder units 1, tree engines 2, objects 3, channels 4, send
ports 5, receive ports 6, programs 7. Links are no claim: partitions may share one (R688). -/
def Sec.claims (e : Sec) : List (Nat × Nat) :=
  match e.typ with
  | 1 =>
    let x := partOf e.bytes []
    (maskList x.podMask).map (fun i => (0, i)) ++ (maskList x.cuMask).map (fun i => (1, i)) ++ (maskList x.teMask).map fun i => (2, i)
  | 3 => (chansOf e.bytes).flatMap fun c => [(4, c.id), (5, c.srcCore * 16 + c.srcPort), (6, c.dstCore * 16 + c.dstPort)]
  | 4 => (syncsOf e.bytes).map fun o => (3, o.obj)
  | 8 => (burinOf e.bytes).map fun x => (7, x.1)
  | _ => []

/-- What content holds, as claims; ports follow from the pods. -/
def Content.claims (c : Content) : List (Nat × Nat) :=
  (maskList c.plate.podMask).map (fun i => (0, i)) ++ (maskList c.plate.cuMask).map (fun i => (1, i)) ++
  (maskList c.plate.teMask).map (fun i => (2, i)) ++ c.tables.syncs.map (fun o => (3, o.obj)) ++ c.tables.chans.map (fun x => (4, x.id)) ++
  c.tables.burin.map fun x => (7, x.1)

/-- A list gives something twice. -/
def twice {α : Type} [BEq α] : List α → Bool
  | [] => false
  | a :: r => r.contains a || twice r

/-- Step 18: nothing given twice in the plate, and a fallback only what its partition holds (R156); then, for an overlay, nothing
that another partition holds and no pending overlay releases (R173). `held` gives what stands in the way of each other partition:
its content in force, and of a pending overlay. -/
def PlateDoc.claimErr (d : PlateDoc) : Option PlateErr :=
  let upTo := fun (i : Nat) => (d.secs.take i).flatMap Sec.claims
  firstErr d.secs (fun e =>
    let c := e.claims
    badIf (twice c || c.any (upTo e.idx).contains) 0x18 e.idx e.part) <|>
  match d.mode with
  | .base _ => none
  | .overlay p =>
    let c := (d.content p).claims
    errIf (d.others.any fun o => c.any fun x => o.2.all fun y => y.claims.contains x) cFIT sFITPOOL (d.at 1 p) p
  | .fallback p h =>
    let x := d.content p
    let own := h.claims
    badIf (x.claims.any (fun y => y.1 != 7 && !own.contains y) || x.plate.linkMask &&& h.plate.linkMask != x.plate.linkMask ||
      x.claims.any fun y => y.1 == 7 && d.others.any fun o => o.2.any fun z => z.claims.contains y) 0x18 (d.at 1 p) p

/-! ## Steps 19 to 21: DRAM, channels, objects, bandwidth -/

/-- Two DRAM regions overlap. -/
def PartPlate.dramMeets (x y : PartPlate) : Bool := x.dramBase < y.dramBase + y.dramSize && y.dramBase < x.dramBase + x.dramSize

/-- Step 19 (R132, R156, R173). -/
def PlateDoc.dramErr (d : PlateDoc) (ch : Chip) : Option PlateErr :=
  let pl := fun p => (d.content p).plate
  firstErr d.parts fun p =>
    let x := pl p
    badIf (ch.variant.dramBytes < x.dramBase + x.dramSize + mib64 || (d.parts.filter fun q => q < p).any (fun q => x.dramMeets (pl q)) ||
      (match d.mode with
        | .base _ => false
        | .overlay _ => d.others.any fun o => o.2.all fun y => x.dramMeets y.plate
        | .fallback _ h => x.dramBase < h.plate.dramBase || h.plate.dramBase + h.plate.dramSize < x.dramBase + x.dramSize)) 0x19
      (d.at 1 p) p

/-- Step 20 (R140, R141, R409). -/
def PlateDoc.routeErr (d : PlateDoc) : Option PlateErr :=
  let mask := fun p => (d.content p).plate.podMask
  let all := d.parts.flatMap fun p => (d.content p).tables.chans
  let into := fun k => ((all.filter fun c => c.dstCore == k).map fun c => c.depth * c.msgBytes).sum
  firstErr d.secs (fun e =>
    match e.typ with
    | 3 => badIf ((chansOf e.bytes).any fun c =>
        c.id == 0 || !bitOf (mask e.inst) (podOf c.srcCore) || !bitOf (mask e.inst) (podOf c.dstCore) || 32768 < into c.dstCore)
        0x1A e.idx e.part
    | 4 => badIf ((syncsOf e.bytes).length != leAt (((d.find 1 e.inst).map Sec.bytes).getD []) 20 2) 0x1B e.idx e.part
    | _ => none) <|>
  firstErr d.parts fun p =>
    badIf ((d.find 4 p).isNone && leAt (((d.find 1 p).map Sec.bytes).getD []) 20 2 != 0) 0x1B (d.at 1 p) p

/-- The share of a class: 0 read, 1 write, 2 remote. -/
def PartPlate.bw (x : PartPlate) (k : Nat) : Nat := if k == 0 then x.bwRead else if k == 1 then x.bwWrite else x.bwRemote

/-- Pods of a mask. -/
def podCount (mask : Nat) : Nat := (maskList mask).length

/-- The shares of a class that the plate's partitions leave free, less those of the others: an other partition counts with the
largest share that it holds or will hold (R134, R135, R178). -/
def PlateDoc.taken (d : PlateDoc) (k : Nat) : Nat :=
  (d.parts.map fun p => (d.content p).plate.bw k).sum + (d.others.map fun o => (o.2.map fun y => y.plate.bw k).foldl max 0).sum

/-- The share of partition `p` in a class, after AUTO (R134). -/
def PlateDoc.share (d : PlateDoc) (p k : Nat) : Nat :=
  let x := (d.content p).plate
  if x.bw k != 0 then x.bw k
  else
    let auto := d.parts.filter fun q => (d.content q).plate.bw k == 0
    let pods := (auto.map fun q => podCount (d.content q).plate.podMask).sum
    (63 - d.taken k) * podCount x.podMask / pods

/-- Step 21 (R134, R135). -/
def PlateDoc.bandErr (d : PlateDoc) : Option PlateErr :=
  firstErr [0, 1, 2] fun k =>
    firstErr d.parts fun p => badIf (63 < d.taken k || d.share p k == 0) 0x1E (d.at 1 p) p

/-- The content of partition `p` with its shares resolved. -/
def PlateDoc.resolved (d : PlateDoc) (p : Nat) : Content :=
  let c := d.content p
  { c with plate := { c.plate with bwRead := d.share p 0, bwWrite := d.share p 1, bwRemote := d.share p 2 } }

/-! ## Step 22: the timeout ladder (R137, R138) -/

/-- The first row of the ladder that fails for partition `p`; link_replay_max stands first in `times`. -/
def PlateDoc.ladderErr (d : PlateDoc) (ch : Chip) : Option PlateErr :=
  let t := fun i => d.times.getD i 0
  let whole := ((d.find 2 0xFFFF).map Sec.idx).getD 0xFFFF
  firstErr d.parts (fun p =>
    let x := (d.content p).plate
    badIf (x.msgWaitUs < 2 * t 0 || x.streamUs < 2 * x.msgWaitUs || x.budget < 2 * x.streamUs || x.coreWdg < 2800 * x.streamUs)
      0x20 (d.at 2 p) p) <|>
  badIf (t 2 < 40 || t 3 < 2 * t 2 || 5000 < 2 * t 3) 0x20 whole <|>
  badIf (d.isBase && ch.wdg.locked && ch.wdg.periodMs != t 3) 0x21 whole

/-! ## Step 23: contents -/

/-- Step 23 for code (R142). -/
def codeErr (x : PartPlate) (b : List Nat) : Bool :=
  let l := countedOf b
  twice (l.map fun e => leAt e 0 1) ||
  l.any fun e => !bitOf x.podMask (podOf (leAt e 0 1)) || b.length < leAt e 12 4 + leAt e 8 4

/-- Every byte of a range lies in the DRAM region, the pod stores or the core stores of a partition (R144). -/
def PartPlate.holds (x : PartPlate) (a n : Nat) : Bool :=
  let e := a + n
  n == 0 || (x.dramBase ≤ a && e ≤ x.dramBase + x.dramSize) ||
  (podStoreBase ≤ a && e ≤ podBase 8 &&
    (List.range 8).all fun d => podBase (d + 1) ≤ a || e ≤ podBase d || bitOf x.podMask d) ||
  (coreStoreBase ≤ a && e ≤ coreBase 64 &&
    (List.range 64).all fun k => coreBase (k + 1) ≤ a || e ≤ coreBase k || bitOf x.podMask (podOf k))

/-- Step 23 for preload (R144): the data of an entry lies before `stop` in the plate (R125; DEDUCED, log entry 59). -/
def preloadErr (x : PartPlate) (stop : Nat) (b : List Nat) : Bool :=
  (countedOf b).any fun e => stop < leAt e 12 4 + leAt e 8 4 || !x.holds (leAt e 0 8) (leAt e 8 4)

/-- Step 23 for sfu_tables (R145, R146); a table id given twice leaves no one table to install. -/
def sfuErr (b : List Nat) : Bool :=
  let l := sfuOf b
  twice (l.map SfuTable.id) || l.any fun t =>
    (t.id < 4 && (List.range 768).any fun i => t.coef.getD i 0 != builtinCoef t.id (i / 3) (i % 3)) ||
    (t.interp == 0 && (List.range 256).any fun i => t.coef.getD (3 * i + 2) 0 != 0)

/-- A step of a program breaks R504. -/
def stepErr (tables : List SfuTable) (st : Nat) : Bool :=
  let op := bitsOf st 0 8
  let a := bitsOf st 12 3
  let b := bitsOf st 16 3
  let c := bitsOf st 20 3
  let md := bitsOf st 24 8
  let resv := bitOf st 15 || bitOf st 11 || bitOf st 23 || bitOf st 19
  let imm := bitsOf st 32 32 != 0 && a != 7 && b != 7 && c != 7
  let lut := op == 1 && 4 ≤ md && !tables.any fun t => t.id == md
  resv || imm || lut ||
  match op with
  | 1 => 16 ≤ md || b != 0 || c != 0
  | 2 => md != 0
  | 3 => !(1 ≤ md && md ≤ 5) || b != 0 || c != 0
  | 4 => 1 < md || b != 0 || c != 0
  | 5 => md != 0 || c != 0
  | 6 => 7 < md
  | _ => true

/-- Step 23 for burin_programs (R504). -/
def burinErr (t : PartTables) : Bool := t.burin.any fun e => e.1 ≤ 4 || e.2.any (stepErr t.sfu)

/-- An array of `n` cumulative frequencies meets R149. -/
def cdfOk (n : Nat) (f : Nat → Nat) : Bool := f 0 == 0 && (List.range (n - 1)).all fun i => f i < f (i + 1)

/-- A coder table breaks R608. -/
def CoderTable.err (t : CoderTable) : Bool :=
  if t.kind == 0 then t.body.length != 2 * t.bins || !cdfOk t.bins t.cdf
  else t.body.length != 4 + 2048 * t.bins || t.scaleExp < -16 || 16 < t.scaleExp || t.bins ≤ t.centre ||
    (List.range 64).any fun k => (List.range 16).any fun p => !cdfOk t.bins (t.sub k p)

/-- Step 23 for coder_tables (R148, R150, R608); the 2 MiB count the whole section (DESIGN CHOICE, log entry 55). -/
def coderErr (b : List Nat) : Bool :=
  let l := coderOf b
  (coderHeads b).any coderLenBad || 0x200000 < b.length || twice (l.map CoderTable.id) || l.any CoderTable.err

/-- A calibrated scale is a positive finite FP32 value, under format 0x00 a power of two (R698). -/
def scaleOk (format v : Nat) : Bool :=
  v != 0 && v < 0x7F800000 &&
  (format != 0 || (if v < 0x800000 then (List.range 23).any fun i => v == 2 ^ i else v % 0x800000 == 0))

/-- Step 23 for narrowing (R152, R698). -/
def narrowErr (x : PartPlate) (b : List Nat) : Bool :=
  let l := narrowOf b
  (narrowHeads b).any narrowLenBad || twice (l.map Profile.id) ||
  l.any fun p =>
    p.channels == 0 || (bitOf p.flags 2 && !bitOf p.flags 1) || (bitOf p.flags 0 && p.tensor != 1) || !bitOf x.linkMask p.link ||
    p.scales.any (fun v => !scaleOk p.format v) || p.zeros.contains 0x80

/-- Step 23, in directory order. -/
def PlateDoc.contentErr (d : PlateDoc) : Option PlateErr :=
  firstErr d.secs fun e =>
    let x := (d.content e.inst).plate
    match e.typ with
    | 5 => badIf (codeErr x e.bytes) 0x1C e.idx e.part
    | 6 => badIf (preloadErr x d.stop e.bytes) 0x1D e.idx e.part
    | 7 => badIf (sfuErr e.bytes) 0x22 e.idx e.part
    | 8 => badIf (burinErr (d.content e.inst).tables) 0x23 e.idx e.part
    | 9 => badIf (coderErr e.bytes) 0x24 e.idx e.part
    | 10 => badIf (narrowErr x e.bytes) 0x25 e.idx e.part
    | _ => none

/-! ## Steps 24, 26 and 27 -/

/-- Content `y` in place of `x` keeps what a protected partition may not change (R719). -/
def PartPlate.keepsTwin (x y : PartPlate) : Bool :=
  (bitOf y.linkMask 0 || !bitOf x.linkMask 0) && y.period == x.period && y.source == x.source

/-- Step 24 (R133, R154, R718, R719). A tick_out is refused against every other partition in force, also one that a pending overlay would
change (DESIGN CHOICE, log entry 56). -/
def PlateDoc.twinErr (d : PlateDoc) (ch : Chip) : Option PlateErr :=
  let mode := d.twin.getD 0 0
  let mask := d.twin.getD 1 0
  let tw := ((d.find 11 0xFFFF).map Sec.idx).getD 0xFFFF
  let kept := fun (p : Nat) =>
    let x := (d.content p).plate
    match d.mode with
    | .base _ => bitOf x.linkMask 0 && 5000 ≤ x.period
    | .overlay _ => (ch.part p).plate.keepsTwin x
    | .fallback _ h => h.plate.keepsTwin x
  badIf (d.isBase && ((maskList mask).any (fun p => !d.parts.contains p) || (mode != 0 && mask == 0))) sTWIN tw <|>
  firstErr d.parts (fun p => badIf (mode != 0 && bitOf mask p && !kept p) sTWIN (d.at 1 p) p) <|>
  firstErr d.parts (fun p => badIf ((d.content p).plate.source == 2 && mode == 0) sTWIN (d.at 1 p) p) <|>
  firstErr d.parts fun p =>
    badIf ((d.content p).plate.tickOut && ((d.parts.filter fun q => q < p).any (fun q => (d.content q).plate.tickOut) ||
      d.others.any fun o => o.2.any fun y => y.plate.tickOut)) 0x28 (d.at 1 p) p

/-- Step 26: the spill of a best-effort partition. -/
def spillErr (x : PartPlate) : Bool :=
  let ovr := x.podBytes - 0x1000000
  0x200000 < x.coreBytes || x.spill < ceilDiv (ovr * podCount x.podMask) mib64 * mib64

/-- B of R177: the most bytes that content writes into one core, one pod or one coder unit. -/
def Content.applyBytes (c : Content) : Nat :=
  let t := c.tables
  let sfu := 3076 * t.sfu.length + (t.burin.map fun e => 4 + 8 * e.2.length).sum
  let within := fun (lo hi : Nat) => (t.preload.map fun e => min (e.1 + e.2.length) hi - max e.1 lo).sum
  let core := fun k => sfu + ((t.code.filter fun e => e.core == k).map fun e => 8 * e.image.length).sum + within (coreBase k) (coreBase (k + 1))
  let cores := ((List.range 64).filter fun k => bitOf c.plate.podMask (podOf k)).map core
  let pods := (maskList c.plate.podMask).map fun d => within (podBase d) (podBase (d + 1))
  let cu := if c.plate.cuMask == 0 then 0 else (t.coder.map fun x => 8 + x.body.length).sum
  let lnus := (maskList c.plate.linkMask).map fun n =>
    ((t.narrow.filter fun x => x.link == n).map fun x => 12 + 4 * x.scales.length + x.zeros.length).sum
  (cores ++ pods ++ [cu] ++ lnus).foldl max 0

/-- Step 26 for partition `p`. -/
def PlateDoc.spillBad (d : PlateDoc) (p : Nat) : Option PlateErr :=
  let x := (d.content p).plate
  badIf (!x.rt && spillErr x) 0x1F (d.at 1 p) p

/-- Step 27 for partition `p` at `fc` MHz (R177, R210). -/
def PlateDoc.fitErr (d : PlateDoc) (p fc : Nat) : Option PlateErr :=
  let c := d.content p
  let x := c.plate
  let (extra, us) := match d.mode with | .overlay _ => (ceilDiv c.applyBytes 64, 10) | _ => (0, 0)
  errIf (x.rt && (0x1000000 < x.podBytes || 0x200000 < x.coreBytes)) cFIT sFITSTORE (d.at 1 p) p <|>
  errIf ((x.rt || match d.mode with | .fallback _ _ => true | _ => false) && !workTest x.budget (x.workCycles + extra) (x.fixedUs + us) fc)
    cFIT sFITBUDGET (d.at 1 p) p

/-! ## Steps 12 to 27 -/

/-- The chip-wide timeouts after their defaults: link replay and retrain limits, steward and chip watchdog (R136). -/
def PlateDoc.ownTimes (d : PlateDoc) : List Nat :=
  let b := ((d.find 2 0xFFFF).map Sec.bytes).getD []
  [orDefault (leAt b 0 1) 8, orDefault (leAt b 1 1) 3, orDefault (leAt b 4 2) 100, orDefault (leAt b 6 2) 1000]

/-- The twin section: mode, protected mask, plate id; SOLO when it is absent (R153). -/
def PlateDoc.ownTwin (d : PlateDoc) : List Nat :=
  let b := ((d.find 11 0xFFFF).map Sec.bytes).getD []
  [leAt b 0 1, leAt b 2 1, leAt b 4 8]

/-- Steps 13 to 24. -/
def PlateDoc.bodyErr (d : PlateDoc) (ch : Chip) : Option PlateErr :=
  d.crcErr <|> d.typeErr <|> d.missingErr <|> d.fieldErr ch <|> d.presentErr ch <|> d.claimErr <|> d.dramErr ch <|> d.routeErr <|>
  d.bandErr <|> d.ladderErr ch <|> d.contentErr <|> d.twinErr ch

/-- An embedded fallback as a plate under validation (R155 to R157). -/
def PlateDoc.embedded (d : PlateDoc) (p : Nat) (b : List Nat) : PlateDoc :=
  { mode := .fallback p (d.resolved p), bytes := b, stop := b.length, times := d.times, twin := d.twin
    others := d.others ++ (d.parts.filter fun q => q != p).map fun q => (q, [d.resolved q]) }

/-- Step 8 for an embedded fallback (R155). -/
def fallbackHeadOk (p : Nat) (b : List Nat) : Bool :=
  leAt b 6 1 == 2 && leAt b 7 1 == p && leAt b 22 1 == 1 && (sliceB b 32 16).all (fun x => x == 0) &&
  leAt b 48 4 == b.length && leAt b 8 4 == b.length

/-- A refusal within a fallback, as step 25 reports it. -/
def fallbackErr (e : Sec) (x : PlateErr) : PlateErr :=
  if x.code == cFIT && (x.sub == sFITBUDGET || x.sub == sFITFALLBACK) then { code := cFIT, sub := sFITFALLBACK, sec := e.idx, part := e.part }
  else { sub := 0x27, sec := e.idx, part := e.part }

/-- Steps 12 to 27: a refusal, or the partitions with their content and the chain of their fallbacks. The first argument bounds
the depth of the embedded fallbacks; the length of the plate is enough. -/
def PlateDoc.check (ch : Chip) : Nat → PlateDoc → Except PlateErr (PlateDoc × List (Nat × Content × List Content))
  | 0, _ => .error {}
  | n + 1, d0 =>
    match d0.dirErr with
    | some e => .error e
    | none =>
      let d1 := { d0 with secs := (List.range (d0.field 12 2)).map (secAt d0.bytes) }
      let d := if d1.isBase then { d1 with times := d1.ownTimes, twin := d1.ownTwin } else d1
      match d.bodyErr ch with
      | some e => .error e
      | none =>
        let step := fun (a : Except PlateErr (List (Nat × List Content))) (e : Sec) =>
          match a with
          | .error x => .error x
          | .ok l =>
            if !fallbackHeadOk e.inst e.bytes then .error { sub := 0x27, sec := e.idx, part := e.part }
            else match PlateDoc.check ch n (d.embedded e.inst e.bytes) with
              | .error x => .error (fallbackErr e x)
              | .ok (_, r) => .ok (l ++ r.map fun y => (e.inst, y.2.1 :: y.2.2))
        match (d.secs.filter fun e => e.typ == 12).foldl step (.ok []) with
        | .error x => .error x
        | .ok fbs =>
          let fc := match d.mode with | .fallback _ _ => 600 | _ => ch.pwr.fc
          match firstErr d.parts d.spillBad <|> firstErr d.parts (fun p => d.fitErr p fc) with
          | some e => .error e
          | none => .ok (d, d.parts.map fun p => (p, d.resolved p, (fbs.lookup p).getD []))

/-! ## Steps 1 to 11 -/

/-- The chip is in READY_FOR_PLATE (R167, R946). -/
def Chip.readyForPlate (ch : Chip) : Bool :=
  (ch.boot.stage == .ready || ch.boot.stage == .plateLoad || ch.boot.stage == .running) && ch.loader.back == .empty

/-- The key of a signature block is accepted (R160): its digest is that of Holtad's key in the steward firmware, or one that the
tray configuration holds. -/
def Chip.keyOk (ch : Chip) (key : List Nat) : Bool :=
  let dg := beNat (sha384 key)
  dg == Config.holtadKeyDigest 1 || ch.boot.plateKeys.contains dg

/-- Step 8: plate_kind, target_partition, apply_tick and partition_count consistent with the kind (R127, R180). A base plate whose
base_digest is not 0 is refused here (DESIGN CHOICE, log entry 52). -/
def Chip.kindErr (ch : Chip) (b : List Nat) : Option PlateErr :=
  let kind := leAt b 6 1
  let target := leAt b 7 1
  let count := leAt b 22 1
  let tick := leAt b 52 4
  let zero := (sliceB b 32 16).all fun x => x == 0
  if kind == 1 then badIf (target != 0xFF || tick != 0 || count == 0 || 8 < count || !zero) 0x07
  else badIf (kind != 2 || count != 1 || 8 ≤ target || !(ch.part target).isDefined || (bitOf ch.loader.protectedMask target && tick == 0)) 0x07

/-- Step 10: required capabilities, in the order of the sub-codes. A reserved bit of required_cap0 is refused with FIELD (R19, R92; DESIGN
CHOICE, log entry 53). -/
def Chip.capErr (ch : Chip) (b : List Nat) : Option PlateErr :=
  let need := fun (m : Nat) => leAt b 16 4 &&& m &&& (0xFFFFFFFF - ch.variant.cap0) != 0
  badIf (need 0xFF000000) 0x10 <|>
  badIf (need 0x00FF0000 || ch.variant.dramGib < leAt b 20 2) 0x11 <|>
  badIf (need 0xFC00) 0x12 <|> badIf (need 0x0300) 0x13 <|> badIf (need 0xF0) 0x14 <|> badIf (need 1) 0x15 <|> badIf (need 0xE) 0x0C <|>
  badIf (ch.variant.maxParts < leAt b 22 1) 0x16

/-- Steps 1 to 11 on a staged copy (R158 to R160, R191). -/
def Chip.headErr (ch : Chip) (b : List Nat) : Option PlateErr :=
  let ovr := leAt b 6 1 == 2
  let target := leAt b 7 1
  let so := leAt b 48 4
  let sig := sliceB b so 200
  errIf ch.pwr.pwrFail cBUSY sPOWER <|>
  errIf (if ovr then ch.loader.back != .loaded else !ch.readyForPlate) cBUSY sSTATE <|>
  badIf (sliceB b 0 4 != [0x41, 0x4D, 0x5A, 0x50] || leAt b 4 2 != 1) 0x01 <|>
  badIf (0x800000 < leAt b 8 4 || (ch.loader.kind != .boot && leAt b 8 4 != ch.loader.len) || b.length < 64 || so % 64 != 0 || leAt b 8 4 != so + 200) 0x02 <|>
  badIf (crc32c (b.take 60) != leAt b 60 4) 0x03 <|>
  badIf (!ch.keyOk (sliceB sig 4 97)) 0x04 <|>
  badIf (leAt sig 0 2 != 1 || !ecdsaOk (sliceB sig 4 97) (sha384 (b.take so)) (sliceB sig 104 96)) 0x05 <|>
  ch.kindErr b <|>
  errIf (ovr && (ch.pendingOf target).isSome) cBUSY sPENDING 0xFFFF target <|>
  badIf (leAt b 14 2 != contractRev) 0x06 <|>
  ch.capErr b <|>
  badIf (ovr && sliceB b 32 16 != ch.loader.baseDigest) 0x30

/-- The other partitions of an overlay's target, each with what it holds and what its pending overlay will hold (R173). -/
def Chip.othersOf (ch : Chip) (p : Nat) : List (Nat × List Content) :=
  (ch.defined.filter fun q => q != p).map fun q =>
    (q, ({ plate := (ch.part q).plate, tables := (ch.part q).tables } : Content) :: ((ch.pendingOf q).map fun o => [o.content]).getD [])

/-- A staged copy as a plate under validation. -/
def Chip.docOf (ch : Chip) (b : List Nat) : PlateDoc :=
  let l := ch.loader
  if leAt b 6 1 == 2 then
    { mode := .overlay (leAt b 7 1), bytes := b, stop := leAt b 48 4, twin := [l.twinMode, l.protectedMask, l.twinPlateId]
      times := [l.linkReplayMax, l.linkRetrainMax, l.stewardWdgMs, l.chipWdgMs], others := ch.othersOf (leAt b 7 1) }
  else { mode := .base (leAt b 22 1), bytes := b, stop := leAt b 48 4 }

/-- Tick `t` of partition `p` has begun (R179). -/
def Part.hasBegun (q : Part) (t : Nat) : Bool := q.ticked && (q.tickIndex + 2 ^ 32 - t) % 2 ^ 32 < 2 ^ 31

/-- The whole validation of a staged copy (R169, R179). -/
def Chip.validate (ch : Chip) (b : List Nat) : Except PlateErr (PlateDoc × List (Nat × Content × List Content)) :=
  match ch.headErr b with
  | some e => .error e
  | none =>
    match PlateDoc.check ch (b.length + 1) (ch.docOf b) with
    | .error e => .error e
    | .ok r =>
      let p := leAt b 7 1
      let t := leAt b 52 4
      if leAt b 6 1 == 2 && t != 0 && (ch.part p).hasBegun t then .error { code := cBUSY, sub := sLATE, part := p } else .ok r

end Sys2Proof.Machine
end

