-- ==== Sys2Proof/Machine/LinkOps.lean ====
section
/-! DEFINITION. The link layer at work: flits received, acknowledged, replayed; retrains; training and identity; a link going down
and the requests that end with it (R670 to R682, R690, R694, R716, R873). -/
namespace Sys2Proof.Machine

/-! ## Requests that end (R371, R401, R690, R694) -/

/-- Lanes of `width` bits of a vector replaced by those of `new` where the predicate is set (R312). -/
def vMerge (width : Nat) (pg : Nat) (old new : V512) : V512 :=
  (List.range (512 / width)).foldl (fun a i =>
    if bitOf pg i then
      let m := (BitVec.ofNat 512 (2 ^ width - 1)) <<< (width * i)
      (a &&& ~~~m) ||| (new &&& m)
    else a) old

/-- The active lanes of width `wd` bits under a predicate. -/
def activeLanes (wd : Nat) (pg : W64) : List Nat := (List.range (512 / wd)).filter fun i => pg.getLsbD i

/-- The bytes that a vector access at `a` touches: those of its active lanes (R321). -/
def laneRanges (a wd : Nat) (pg : W64) : List (Nat × Nat) := (activeLanes wd pg).map fun i => (a + i * (wd / 8), wd / 8)

/-- The violation of a refused store of core `k`, a register access by its offset; it has an event of its own where it faults no core
(R760, R761, R764). -/
def Chip.lateOrNot (ch : Chip) (k code addr : Nat) (late : Bool) : Chip :=
  let reg := regBase ≤ addr && addr < regBase + 0x1000000
  if isViolation code false then ch.violate k (ch.partNo k) (if reg then vRegWrite else vWrite) code (if reg then addr - regBase else addr) 0 (!late)
  else ch

/-- An error response to a posted store of core `k` (R371, R401). -/
def Chip.storeError (ch : Chip) (k id code addr : Nat) : Chip :=
  match (ch.core k).posted.find? fun q => q.id == id with
  | some q =>
    let a := ch.modCore k fun x => { x with posted := x.posted.filter fun y => y.id != id }
    let st := (a.core k).state
    let late := st == .fenced || st == .parked || st == .halted
    let b := a.lateOrNot k code addr late
    if late then b.ev 0x0206 err k (b.partNo k) code addr
    else b.fault k fcACCESS code addr true (some q.pc)
  | none => (ch.lateOrNot k code addr true).ev 0x0206 err k (ch.partNo k) code addr

/-- The result of a load reaches core `k`: it retires, or under the debugger keeps its place (R381, R383, R387). -/
def Chip.loadDone (ch : Chip) (k id : Nat) (ranges : List (Nat × Nat)) (f : Core → Core) : Chip :=
  let x := ch.core k
  let mine := match x.wait with
    | some (.remote i _) => i == id
    | _ => false
  if !mine then ch
  else if x.state == .waiting then
    ((ch.modCore k f).retire k).watched k ranges false
  else if x.state == .debug then ch.modCore k fun y => { (f y) with wait := some (.loaded ranges) }
  else ch

/-- A load of core `k` is refused: a precise ACCESS fault (R319, R694). -/
def Chip.loadFailed (ch : Chip) (k id code addr : Nat) : Chip :=
  let x := ch.core k
  let mine := match x.wait with
    | some (.remote i _) => i == id
    | _ => false
  if mine && (x.state == .waiting || x.state == .debug) then ch.accessFault k code addr vRead else ch

/-- A remote or host request ends with a code and the bytes read (R371, R690, R694, R907). -/
def Chip.requestDone (ch : Chip) (r : Remote) (code : Nat) (data : List Nat) : Chip :=
  let a : Chip := { ch with remotes := ch.remotes.filter fun x => x.id != r.id }
  match r.kind with
  | .load k rd size signed =>
    if code == cOK then
      let v := leAt data 0 size
      a.loadDone k r.id [(r.addr, size)] fun x => x.setS rd (if signed then BitVec.ofInt 64 (sgn (8 * size) v) else BitVec.ofNat 64 v)
    else a.loadFailed k r.id code r.addr
  | .vload k rd width pg =>
    if code == cOK then
      a.loadDone k r.id (laneRanges r.addr width (BitVec.ofNat 64 pg)) fun x => x.setV rd (vMerge width pg (x.getV rd) (BitVec.ofNat 512 (leAt data 0 64)))
    else a.loadFailed k r.id code r.addr
  | .store k =>
    if code == cOK then a.modCore k fun x => { x with posted := x.posted.filter fun q => q.id != r.id }
    else a.storeError k r.id code r.addr
  | .other _ => a

/-! ## Flits (R670 to R675) -/

/-- The kind under which a link shows the start of a training, with its identity record. -/
abbrev lkTrain : Nat := 0x12

/-- Every held flit is put on the lanes again, in order (R671): one replay. -/
def Link.resend (l : Link) (now : Nat) : Link :=
  let held := l.held.map fun f => { f with sent := now }
  held.foldl (fun x f => x.put f false) { l with held := held, txBytes := (l.txBytes + 248 * l.held.length) % 2 ^ 64 }

/-- Flits up to `ack` are acknowledged: they leave the replay buffer, the episode ends, waiting flits go out (R671, R673). -/
def Link.acked (l : Link) (ack now : Nat) : Link :=
  match l.held.findIdx? fun f => f.seq == ack with
  | some i => Link.flush now (l.waiting.length) { l with held := l.held.drop (i + 1), episode := 0 }
  | none => l

/-- The retrains counted: none after 1 s in UP; a link that goes down or trains afresh keeps its count (R675). -/
def Link.retrainsNow (l : Link) (now : Nat) : Nat :=
  if l.state == .up && l.upSince + 1000000000 ≤ now then 0 else l.recent

/-- A link goes down, or is parked: its requests end with LINK_DOWN and its buffers are discarded (R676, R873). -/
def Chip.linkDown (ch : Chip) (n : Nat) (parked : Bool) : Chip :=
  let a := ch.modLink n fun l => { l with
    state := .down, downs := (l.downs + 1) % 2 ^ 32, held := [], waiting := [], episode := 0, unacked := 0, nakSent := false,
    downSince := ch.time, recent := l.retrainsNow ch.time }
  if parked then a.ev 0x0B06 info 0xFF 0xFF cOK 0 n
  else
    let b := (a.ev 0x0602 err (0x60 + n) 0xFF cLINKDOWN 0 n).emit (.pin pinLink false)
    let c := (b.remotes.filter fun r => r.link == n && (match r.kind with | .other _ => false | _ => true)).foldl
      (fun d r => d.requestDone r cLINKDOWN []) b
    if n == 0 then c.twinLost 0xFF lostLink true else c

/-- A replay; an episode beyond link_replay_max retrains the link, and beyond link_retrain_max retrains it goes down
(R671, R673 to R675). -/
def Chip.replay (ch : Chip) (n : Nat) : Chip :=
  let l := ch.link n
  let a := ch.modLink n fun x => ({ x with replays := (x.replays + 1) % 2 ^ 64, episode := x.episode + 1 } : Link).resend ch.time
  if l.episode + 1 ≤ ch.loader.linkReplayMax then a
  else if ch.loader.linkRetrainMax ≤ l.retrainsNow ch.time then a.linkDown n false
  else
    ((a.modLink n fun x => { x with
      state := .retraining, retrains := (x.retrains + 1) % 2 ^ 32, recent := l.retrainsNow ch.time + 1, trainSince := ch.time }).ev
        0x0601 warn (0x60 + n) 0xFF cOK 0 n).emit (.link n lkTrain [])

/-- Waiting data flits of link `n`, of which there were `was`, have left: a request whose last flit is among them counts its limit from now
(R690). -/
def Chip.departed (ch : Chip) (n was : Nat) : Chip :=
  let left := was - (ch.link n).backlog
  if left == 0 then ch
  else { ch with remotes := ch.remotes.map fun r =>
    if r.link == n && r.behind != 0 then { r with behind := r.behind - left, since := if r.behind ≤ left then ch.time else r.since } else r }

/-- A flit of 256 bytes arrives on link `n`, after the correction of `fec` symbols. Its crc is computed. A numbered flit is accepted in order; any other, and every flit whose crc is
wrong, is discarded with all that it carries, and answered by a NAK once (R668 to R672). -/
def execFlitReceive (c n fec : Nat) (flit : List Nat) (s : State) : Host.Outcome State Fault Refusal :=
  onChip c (fun ch0 =>
    if !ch0.alive || !ch0.linkUp n then ch0
    else
      let ch := ch0.modLink n fun x => { x with fecCorrected := (x.fecCorrected + fec) % 2 ^ 64 }
      let le := leAt flit
      let good := le 252 4 == crc32 (flit.take 252)
      let numbered := le 0 1 == 1 || le 0 1 == 2
      let l := ch.link n
      let heard := fun (d : Chip) =>
        let e := (d.modLink n fun x => x.acked (le 2 1) ch.time).departed n l.backlog
        if bitOf (le 3 1) 0 then e.replay n else e
      if good && !numbered then heard ch
      else if good && le 1 1 == (l.rxLast + 1) % 256 then
        let d := heard (ch.modLink n fun x => { x with
          rxLast := le 1 1, nakSent := false, unacked := x.unacked + 1, rxBytes := (x.rxBytes + 248) % 2 ^ 64 })
        if d.linkUp n && 16 ≤ (d.link n).unacked then d.modLink n fun x => x.idle false else d
      else
        let d := ch.modLink n fun x => { x with crcErrors := (x.crcErrors + 1) % 2 ^ 64, nakSent := true }
        if l.nakSent then d else d.modLink n fun x => x.idle true) s

/-- The receiver acknowledges within 200 ns (R672). -/
def execAckTimer (c n : Nat) (s : State) : Host.Outcome State Fault Refusal :=
  onChip c (fun ch => if ch.alive && ch.linkUp n && (ch.link n).unacked != 0 then ch.modLink n fun x => x.idle false else ch) s

/-- A flit unacknowledged for 1 us causes a replay (R672). -/
def execReplayTimer (c n : Nat) (s : State) : Host.Outcome State Fault Refusal :=
  onChip c (fun ch =>
    if ch.alive && ch.linkUp n && (ch.link n).held.any (fun f => f.sent + 1000 ≤ ch.time) then ch.replay n else ch) s

/-- A retrain has completed: sequence numbers restart at both ends and the held flits are sent again (R674). -/
def Link.retrained (l : Link) (now : Nat) : Link :=
  let held := ((List.range l.held.length).zip l.held).map fun e => { e.2 with seq := e.1 % 256 }
  Link.flush now l.waiting.length (({ l with
    state := .up, upSince := now, episode := 0, rxLast := 255, nakSent := false, unacked := 0, txSeq := l.held.length % 256, held := held } : Link).resend now)

/-- A retrain ends within 2 ms; one that fails leaves the link down (R674, R676). -/
def execRetrainDone (c n : Nat) (ok : Bool) (s : State) : Host.Outcome State Fault Refusal :=
  onChip c (fun ch =>
    if !ch.alive || (ch.link n).state != .retraining then ch
    else if ok then (ch.modLink n fun l => l.retrained ch.time).departed n (ch.link n).backlog
    else ch.linkDown n false) s

/-! ## Bringing a link up (R23, R24, R679 to R682, R716) -/

/-- The plate in force gives link `n` to a partition. -/
def Chip.linkGiven (ch : Chip) (n : Nat) : Bool := ch.defined.any fun p => bitOf (ch.part p).plate.linkMask n

/-- The plate in force binds a peer field to link `n` with the value 0x20 + n (R683). -/
def Chip.linkBound (ch : Chip) (n : Nat) : Bool :=
  ch.defined.any fun p => bitOf (ch.part p).plate.linkMask n && ((ch.part p).plate.peer0 == 0x20 + n || (ch.part p).plate.peer1 == 0x20 + n)

/-- Link `n` may train: LINK[0] from READY_FOR_PLATE on, another while a plate gives it (R679, R681). -/
def Chip.mayTrain (ch : Chip) (n : Nat) : Bool :=
  n < ch.links.length && !(ch.link n).forced && ch.alive && ch.pwr.state != .dormantReady &&
  (if n == 0 then ch.boot.stage == .ready || ch.boot.stage == .plateLoad || ch.boot.stage == .running
   else ch.linkGiven n && (ch.pwr.state == .active || ch.pwr.state == .idle))

/-- Link `n` begins training: its end sends its identity record (R680). -/
def Chip.trainLink (ch : Chip) (n : Nat) : Chip :=
  if ch.mayTrain n then
    (ch.modLink n fun l => { l with state := .training, trainSince := ch.time }).emit (.link n lkTrain
      (leBytes 4 ch.variant.chipId ++ leBytes 6 ch.boot.serial ++ [ch.boot.straps, n, b2n (ch.linkGiven n) + 2 * b2n (ch.linkBound n)]))
  else ch

/-- The far identity record lets link `n` enter UP (R681). -/
def Chip.identityOk (ch : Chip) (n serial chip link flags : Nat) : Bool :=
  match wired ch.tray ch.boot.straps n with
  | some (i, m) => serial == ch.boot.serial && chip == i && (n == 0 || link == m)
  | none => ch.linkBound n && flags % 4 == 3

/-- Training of link `n` ends: the far identity record decides UP or HELD; without success the link is down (R681). -/
def execLinkTrainingDone (c n : Nat) (ok : Bool) (serial chip link flags : Nat) (s : State) : Host.Outcome State Fault Refusal :=
  onChip c (fun ch =>
    if !ch.alive || (ch.link n).state != .training then ch
    else if !ok then ch.modLink n fun l => { l with state := .down, downSince := ch.time }
    else
      let a := ch.modLink n fun l => { l with farSerial := serial % 2 ^ 48, farChip := chip % 256, farLink := link % 256 }
      if a.identityOk n serial chip link flags then
        let b := ((a.modLink n fun l => { l with
          state := .up, upSince := ch.time, rxLast := 255, txSeq := 0, held := [], waiting := [], unacked := 0, nakSent := false, episode := 0 }).ev 0x0603 info (0x60 + n) 0xFF cOK 0 n).emit (.pin pinLink true)
        let d : Chip := { b with bg := { b.bg with lastSerdes := b.bg.lastSerdes.set n b.time } }
        if n == 0 then d.tryPair else d
      else
        (a.modLink n fun l => { l with state := .held, downSince := ch.time }).ev 0x0602 err (0x60 + n) 0xFF cLINKDOWN 0 n) s

/-- Once a second the steward tries a fresh training of a link that is down or held (R676, R681). -/
def execFreshTraining (c n : Nat) (s : State) : Host.Outcome State Fault Refusal :=
  onChip c (fun ch =>
    let l := ch.link n
    if ch.stwRuns && (l.state == .down || l.state == .held) && l.downSince + 1000000000 ≤ ch.time then ch.trainLink n else ch) s

/-- LINK.CTRL FORCE_DOWN (R716). -/
def Chip.forceDown (ch : Chip) (n : Nat) : Chip :=
  let a := ch.modLink n fun l => { l with forced := true }
  if (ch.link n).state == .down then a else a.linkDown n false

/-- LINK.CTRL RETRAIN: a fresh training; an UP link first goes down (R676, R716). -/
def Chip.ctrlRetrain (ch : Chip) (n : Nat) : Chip :=
  let a := ch.modLink n fun l => { l with forced := false }
  let b := if (ch.link n).state == .up || (ch.link n).state == .retraining then a.linkDown n false else a
  b.trainLink n

end Sys2Proof.Machine
end

