-- ==== Sys2Proof/Machine/Power.lean ====
section
/-! DEFINITION. The power controller: share offers and the fabric clock, fallbacks that a share needs, Idle, Standby and Dormant,
the thermal trip (R229 to R237, R242, R866 to R894). -/
namespace Sys2Proof.Machine

/-! ## States (R868, R870, R871) -/

/-- A plate load or UNLOAD is in progress. -/
def LoadState.busy : LoadState → Bool
  | .empty => false
  | .loaded => false
  | _ => true

/-- The conditions of R869, but for their duration. -/
def Chip.idleOk (ch : Chip) : Bool :=
  ch.loader.state == .loaded && ch.defined.all (fun p => (ch.part p).jobs.isEmpty && !ch.inFlight p && !(ch.part p).fbPending) &&
  ch.cores.all (fun x => x.state != .running && x.state != .waiting) &&
  ch.host.rings.all (fun r => r.cmdTail == r.cmdCons && r.fetched.isEmpty) && ch.loader.pending.all Option.isNone

/-- The chip enters Idle once the conditions have held for IDLE_DELAY_MS, or at once after a scrub pass (R869, R871). -/
def execIdleEntry (c : Nat) (s : State) : Host.Outcome State Fault Refusal :=
  onChip c (fun ch =>
    let w := ch.pwr
    let held := w.scrubRun || (match w.idleSince with
      | some t => t + w.idleDelay * 1000000 ≤ ch.time
      | none => false)
    if ch.alive && w.state == .active && w.autoIdle && ch.idleOk && held then
      ({ ch with pwr := { w with scrubRun := false } } : Chip).setPower .idle
    else ch) s

/-- An event of R871 ends Idle; `scrub` says that it is an SRAM scrub pass falling due. -/
def execIdleExit (c : Nat) (scrub : Bool) (s : State) : Host.Outcome State Fault Refusal :=
  onChip c (fun ch =>
    if ch.alive && ch.pwr.state == .idle then
      let a := ch.leaveIdle
      { a with pwr := { a.pwr with scrubRun := scrub } }
    else ch) s

/-! ## Shares and fc (R229 to R237, R881 to R886) -/

/-- The fallback of partition `p` becomes pending; for a protected partition of a pair the leader names its tick (R234, R727). -/
def Chip.fallbackPend (ch : Chip) (p : Nat) : Chip :=
  let a := ch.modPart p fun q => { q with fbPending := true }
  if ch.protected p && ch.twin.pair == .paired && ch.leader p then
    let t := ((ch.part p).workIndex + 2) % 2 ^ 32
    (a.modTp p fun y => { y with fbAt := some t }).twinSend 8 p t [t]
  else a

/-- PWR.OFFER OP COMMIT: the held share is accepted (R229, R233, R234, R883, R885). -/
def Chip.commitShare (ch : Chip) : Chip :=
  match ch.pwr.held with
  | none => ch
  | some (share, fc, _) =>
    let need := if ch.pwr.fc ≤ fc then [] else (ch.failing fc).filter fun p => !(ch.part p).fallback.isEmpty
    let a : Chip := { ch with pwr := { ch.pwr with
      held := none, share := share, target := fc, needFallback := need, acceptedAt := ch.time } }
    ((a.forEach (need.filter fun p => !(ch.part p).fbPending) fun p b => b.fallbackPend p).ev 0x0B02 info 0xFF 0xFF cOK fc share).leaveIdle

/-- PWR.OFFER OP ABANDON (R883). -/
def Chip.abandonShare (ch : Chip) : Chip := { ch with pwr := { ch.pwr with held := none } }

/-- A held offer is abandoned 10 ms after it was answered (R883). -/
def execOfferExpiry (c : Nat) (s : State) : Host.Outcome State Fault Refusal :=
  onChip c (fun ch =>
    match ch.pwr.held with
    | some (share, _, t) => if ch.alive && t + 10000000 ≤ ch.time then ch.abandonShare.ev 0x0B07 warn 0xFF 0xFF cOK 0 share else ch
    | none => ch) s

/-- fc reaches the committed value: a rise at once, a fall when no needed fallback is left (R233, R234, R885, R889, R890). -/
def execFcChangeDone (c : Nat) (s : State) : Host.Outcome State Fault Refusal :=
  onChip c (fun ch =>
    let w := ch.pwr
    if ch.alive && ch.fcRuns && !w.throttled && (w.fc ≤ w.target || w.needFallback.isEmpty) then { ch with pwr := { w with fc := w.target } }
    else ch) s

/-- A needed fallback has not applied 2 s after acceptance: fc is lowered anyway (R235). -/
def execFallbackTimeout (c : Nat) (s : State) : Host.Outcome State Fault Refusal :=
  onChip c (fun ch =>
    let w := ch.pwr
    if ch.alive && !w.needFallback.isEmpty && w.acceptedAt + 2000000000 ≤ ch.time then
      let a : Chip := { ch with pwr := { w with needFallback := [], fc := if w.throttled then w.fc else w.target } }
      a.forEach w.needFallback fun p b => b.ev 0x0405 err 0x70 p
    else ch) s

/-! ## The thermal trip (R889) -/

/-- A die at 105 degrees or more for 10 ms forces fc to 600 MHz. -/
def execThermalTrip (c : Nat) (s : State) : Host.Outcome State Fault Refusal :=
  onChip c (fun ch =>
    match ch.pwr.hotSince with
    | some t =>
      if ch.alive && !ch.pwr.throttled && t + 10000000 ≤ ch.time then
        ({ ch with pwr := { ch.pwr with fc := 600, throttled := true } } : Chip).ev 0x0B04 err 0xFF 0xFF cOK 0 ch.pwr.dieTemp
      else ch
    | none => ch) s

/-- A die at 95 degrees or less for 1 s ends it; fc returns to the committed value (R885). -/
def execThermalClear (c : Nat) (s : State) : Host.Outcome State Fault Refusal :=
  onChip c (fun ch =>
    match ch.pwr.coolSince with
    | some t =>
      if ch.alive && ch.pwr.throttled && t + 1000000000 ≤ ch.time then
        ({ ch with pwr := { ch.pwr with throttled := false } } : Chip).ev 0x0B05 info
      else ch
    | none => ch) s

/-! ## Standby and Dormant (R872 to R877) -/

/-- STANDBY and DORMANT are refused (R750, R872, R876); a transition in progress refuses them too. -/
def Chip.sleepBusy (ch : Chip) : Bool :=
  ch.defined.any (fun p => !(ch.part p).jobs.isEmpty) || ch.loader.pending.any Option.isSome || ch.loader.state.busy ||
  ch.pwr.held.isSome || ch.bound || ch.pwr.state.entering || ch.pwr.state == .exiting

/-- PWR.CTRL OP STANDBY (R872, R873): the code, and the chip. -/
def Chip.ctrlStandby (ch : Chip) : Chip × Nat :=
  if ch.sleepBusy then (ch, cBUSY)
  else if ch.pwr.state == .standby then (ch, cOK)
  else (ch.setPower .enteringStandby, cOK)

/-- PWR.CTRL OP ACTIVE (R871, R875). -/
def Chip.ctrlActive (ch : Chip) : Chip := if ch.pwr.state == .standby then ch.setPower .exiting else ch.leaveIdle

/-- PWR.CTRL OP DORMANT (R876, R877): the code, and the chip. -/
def Chip.ctrlDormant (ch : Chip) : Chip × Nat :=
  if ch.sleepBusy then (ch, cBUSY)
  else (({ ch with pwr := { ch.pwr with dormSeal := false } } : Chip).setPower .dormantEntry, cOK)

/-- The links other than LINK[0]. -/
def Chip.outerLinks (ch : Chip) : List Nat := (List.range ch.links.length).filter fun n => n != 0

/-- Every running tick has ended: fc stops, DRAM refreshes itself, links are parked, the chip is in Standby (R873). -/
def execStandbyEntryDone (c : Nat) (s : State) : Host.Outcome State Fault Refusal :=
  onChip c (fun ch =>
    if ch.alive && ch.pwr.state == .enteringStandby && ch.ticksEnded then
      (ch.forEach (ch.outerLinks.filter fun n => (ch.link n).state != .down) fun n a => a.linkDown n true).setPower .standby
    else ch) s

/-- DRAM leaves self-refresh, fc runs, and the parked links retrain (R875). -/
def execStandbyExitDone (c : Nat) (s : State) : Host.Outcome State Fault Refusal :=
  onChip c (fun ch =>
    if ch.alive && ch.pwr.state == .exiting then
      let a := ch.setPower .active
      a.forEach (a.outerLinks.filter fun n => (a.link n).state == .down) fun n b => b.trainLink n
    else ch) s

/-- The last tick of a Dormant entry has ended: fc stops and the seal begins; once the record is sealed the steward is held and the
state reads DORMANT_READY (R827, R877). -/
def execDormantReady (c : Nat) (s : State) : Host.Outcome State Fault Refusal :=
  onChip c (fun ch =>
    if !ch.alive || ch.pwr.state != .dormantEntry || !ch.ticksEnded then ch
    else if !ch.pwr.dormSeal then { ch with ler := ch.ler.doSeal ch.time 4, pwr := { ch.pwr with dormSeal := true } }
    else if ch.ler.sealWrites != 0 then ch
    else ({ ch with wdg := { ch.wdg with steward := .held } } : Chip).setPower .dormantReady) s

end Sys2Proof.Machine
end

