-- ==== Sys2Proof/Machine/Loader.lean ====
section
/-! DEFINITION. The loader at work: the copy, the validation and the apply of a plate, refusals, UNLOAD and CANCEL (R119, R138, R160 to
R168, R174, R179, R183 to R194, R428, R528, R725, R955, R956, R991). -/
namespace Sys2Proof.Machine

/-- The PCIe endpoint's physical layer begins training (R956); `first` says that a boot-time plate has been validated. -/
def Chip.pcieTrain (ch : Chip) (first : Bool) : Chip :=
  if ch.boot.pcie == .down then { ch with boot := { ch.boot with pcie := .training, pcieSince := ch.time, pcieFirst := first } } else ch

/-- The load in progress is refused (R164, R955): the state it started from, PLATE.RESULT, an INFO event. A boot-time load that
PWR_FAIL_N ended is retried once. -/
def Chip.refuseLoad (ch : Chip) (e : PlateErr) : Chip :=
  let l := ch.loader
  let boot := l.kind == .boot
  let again := boot && e.code == cBUSY && e.sub == sPOWER && !l.retried
  let a := ({ ch with
    loader := { l with state := l.back, kind := .none, ready := [], staged := [], retry := again, retried := false }
    boot := if boot && ch.boot.stage == .plateLoad then { ch.boot with stage := .ready } else ch.boot } : Chip).setResult e.code e.sub e.sec e.part
  let b := a.ev 0x0101 info 0x71 e.part e.code a.loader.result
  if boot then b.pcieTrain false else b

/-- LOAD: the copy begins (R162, R186, R187). A source in DRAM is read at once; a source in host memory by a request of the PF,
whose answer comes with the validation. -/
def Chip.loadStart (ch0 : Chip) : Chip :=
  let ch := ch0.leaveIdle
  let l := ch.loader
  let a : Chip := { ch with loader := { l with
    back := l.state, state := .copying, kind := .base, staged := [], ready := [], fromHost := false, copyCode := cOK, retry := false
    retried := false } }
  match ch.place l.src l.len with
  | some .dram =>
    if ch.bad l.src l.len then (a.violate 0x71 0xFF vRead cECC l.src).copied [] cECC
    else (a.countSoft l.src l.len).copied (ch.see none l.src l.len) cOK
  | some (.host b) =>
    if ch.busMaster 0 then ({ a with loader := { a.loader with fromHost := true } } : Chip).emit (.hostFetch 0 b l.len)
    else (a.hostMemError 0 b cPERM).copied [] cPERM
  | _ => a.copied [] cBOUNDS

/-- A valid overlay becomes pending; for a protected partition of a pair OVERLAY_READY is sent (R174, R725). -/
def Chip.overlayPend (ch : Chip) (d : PlateDoc) (p : Nat) (c : Content) (fb : List Content) : Chip :=
  let t := d.field 52 4
  let o : Pending := { content := c, applyTick := t, bytes := c.applyBytes, fallback := fb }
  let a := ({ ch with loader := { ch.loader with
    state := ch.loader.back, kind := .none, pending := ch.loader.pending.set p (some o) } } : Chip).setResult cOK 0 0xFFFF p
  if a.protected p && a.twin.pair == .paired then a.twinSend 6 p t [d.field 24 8, t] else a

/-- A valid base plate waits for its apply; the validation of a boot-time plate lets the PCIe endpoint train (R165, R956). -/
def Chip.baseReady (ch : Chip) (d : PlateDoc) (l : List (Nat × Content × List Content)) : Chip :=
  let a : Chip := { ch with loader := { ch.loader with
    state := .applying, ready := l, newPlateId := d.field 24 8, newDigest := (sha384 (d.bytes.take d.stop)).take 16
    newTwin := d.twin, newTimes := d.times } }
  if ch.loader.kind == .boot then a.pcieTrain true else a

/-- PLATE_VALIDATE: the copy has ended, and the staged bytes are checked (R162, R169). For a source in host memory `code` and `data`
are what the read brought; a grant of the flash switch for a boot-time plate ends (R35). -/
def execPlateValidate (c code : Nat) (data : List Nat) (s : State) : Host.Outcome State Fault Refusal :=
  let boot := (s.chip c).loader.kind == .boot && (s.chip c).loader.state == .copying && (s.chip c).boot.granted
  onChip c (fun ch0 =>
    if !ch0.stwRuns || ch0.loader.state != .copying || (ch0.loader.kind == .boot && !ch0.boot.granted) then ch0
    else
      let ch1 := if !ch0.loader.fromHost then ch0
        else if code == cOK then ch0.copied (sliceB data 0 ch0.loader.len) cOK
        else (ch0.hostMemError 0 (ch0.loader.src - hostBase) code).copied [] code
      let ch : Chip := { ch1 with loader := { ch1.loader with state := .validating } }
      let l := ch.loader
      if ch.pwr.pwrFail then ch.refuseLoad { code := cBUSY, sub := sPOWER }
      else if l.copyCode != cOK then ch.refuseLoad { code := l.copyCode }
      else match ch.validate l.staged with
        | .error e => ch.refuseLoad e
        | .ok (d, r) =>
          match d.mode, r with
          | .overlay p, (_, cc, fb) :: _ => ch.overlayPend d p cc fb
          | _, _ => ch.baseReady d r) (if boot then s.dropSwitch c else s)

/-! ## The apply of a base plate (R165, R428, R991) -/

/-- A core under a new base plate: no content, generations 0, debug settings at reset (R400, R428, R776). -/
def Core.base (x : Core) : Core :=
  let y := x.replace
  { y with
    epochs := List.replicate 4 {}
    sfuFenced := y.sfuKept
    inRec := false
    dbg := { y.dbg with en := false, partStop := false, bkpt := [0, 0, 0, 0], wpt := [0, 0], wptCfg := [0, 0] } }

/-- Every store zeroed, every generation 0, the registers of R991 at their reset values, nothing held. -/
def Chip.blank (ch : Chip) : Chip :=
  let a := ch.forEach (List.range ch.pods.length) fun d b => b.zeroPod d
  { a with
    cores := a.cores.map Core.base
    pods := a.pods.map fun x => { ({} : Pod) with fenced := x.kept, kept := x.kept, fences := x.fences, ostatus := x.ostatus }
    cus := a.cus.map fun x => { ({} : CoderUnit) with fenced := x.kept, kept := x.kept, fences := x.fences }
    tes := a.tes.map fun x => { ({} : TreeEngine) with fenced := x.kept, kept := x.kept, fences := x.fences }
    links := a.links.map fun x => { x with
      fenced := x.kept, gen := 0, txBytes := 0, rxBytes := 0, coded := 0, escapes := 0, clipped := 0, rawBlocks := 0 }
    chans := [], syncs := [], regions := List.replicate 64 {}, oldGens := [], arriving := []
    parts := List.replicate 8 {}
    bg := { a.bg with takenUs := List.replicate 8 0, droppedUs := List.replicate 8 0 }
    twin := { a.twin with pair := .unpaired, peer := none, rejoin := false, detaching := none, parts := a.twin.parts.map TwinPart.idle } }

/-- The roles that partitions start with: under STANDBY the leader of a protected partition is active, every other defined
partition is (R722; DEDUCED, log entry 15). -/
def Chip.roles (ch : Chip) : Chip :=
  { ch with twin := { ch.twin with parts := ((List.range 8).zip ch.twin.parts).map fun e =>
      { e.2 with active := (ch.part e.1).isDefined && !(ch.loader.twinMode == mSTANDBY && ch.protected e.1 && !ch.leader e.1) } } }

/-- The base plate in force, whose partitions have yet to start (R165): BASE_ID, digest, twin section, timeouts; chip_watchdog_ms is locked in (R138, R190, R528). -/
def Chip.inForce (ch : Chip) : Chip :=
  let l := ch.loader
  let t := fun i => l.newTimes.getD i 0
  let a : Chip := { ch with
    loader := { l with
      state := .applying, back := .loaded, kind := .starting, ready := [], baseId := l.newPlateId, baseDigest := l.newDigest
      pending := List.replicate 8 none, twinMode := l.newTwin.getD 0 0, protectedMask := l.newTwin.getD 1 0
      twinPlateId := l.newTwin.getD 2 0, linkReplayMax := t 0, linkRetrainMax := t 1, stewardWdgMs := t 2, chipWdgMs := t 3
      builtins := true, retry := false, retried := false }
    wdg := { ch.wdg with stwPeriodMs := t 2, stwLeft := t 2 * 1000000 } }
  (a.wdgPeriod (t 3)).1

/-- PLATE_APPLY: the valid base plate is applied (R165). A link that was held trains again where it may (R681). -/
def execPlateApply (c : Nat) (s : State) : Host.Outcome State Fault Refusal :=
  onChip c (fun ch =>
    if !ch.stwRuns || ch.loader.state != .applying || ch.loader.kind == .starting || ch.loader.unloading then ch
    else
      let a := ch.blank.inForce
      let b := ch.loader.ready.foldl (fun x e =>
        (x.install e.1 e.2.1).modPart e.1 fun q => { q with fallback := e.2.2, startNow := false }) a
      let d := (b.roles).setResult cOK 0
      let links := (List.range d.links.length).filter fun n => (d.linkGiven n && (d.link n).state == .down) || (d.link n).state == .held
      d.freeHeld.forEach links fun n x => x.trainLink n) s

/-! ## PLATE.CTRL (R183 to R185, R750) and PWR_FAIL_N (R119, R193) -/

/-- A write to PLATE.CTRL: LOAD, UNLOAD and CANCEL; the code, and the chip. -/
def Chip.plateCtrl (ch : Chip) (v : Nat) : Chip × Nat :=
  let p := bitsOf v 8 8
  match bitsOf v 0 2 with
  | 1 => if ch.loader.state.busy then (ch, cBUSY) else (ch.loadStart, cOK)
  | 2 => if ch.loader.state.busy || ch.bound then (ch, cBUSY) else (ch.leaveIdle.unloadStart, cOK)
  | 3 => (if (ch.pendingOf p).isSome then (ch.withdraw p).setResult cOK 0 0xFFFF p else ch, cOK)
  | _ => (ch, cOK)

/-- PWR_FAIL_N falls while a plate is copied or validated: the load is abandoned (R193). -/
def Chip.powerLost (ch : Chip) : Chip :=
  if ch.loader.state == .copying || ch.loader.state == .validating then ch.refuseLoad { code := cBUSY, sub := sPOWER } else ch

/-- PLATE.STATE (R188). -/
def LoadState.value : LoadState → Nat
  | .empty => 0
  | .copying => 1
  | .validating => 2
  | .applying => 3
  | .loaded => 4

end Sys2Proof.Machine
end

