-- ==== Sys2Proof/Machine/Boot.lean ====
section
/-! DEFINITION. Start-up of a chip: power-on and wake, the stages of the boot, the release, the boot-time plate; PWR_FAIL_N and WAKE_N
(R83, R115 to R119, R193, R826, R829, R831, R832, R878, R879, R942 to R962). -/
namespace Sys2Proof.Machine

/-! ## Power (R115, R829, R831, R878, R879, R942) -/

/-- The main rails of a chip have fallen: only the wake domain and the record survive; a frame write in flight goes on (R829, R878). -/
def Chip.powerOff (ch : Chip) : Chip :=
  let n := Chip.reset ch.variant ch.boot.straps
  let a : Chip := Chip.portDown { n with
    tray := ch.tray
    strapPins := ch.strapPins
    ler := { n.ler with mram := ch.ler.mram, writing := ch.ler.writing }
    pwr := { n.pwr with pwrFail := ch.pwr.pwrFail }
    free := ch.free
    out := ch.out } ch
  if ch.ler.fatals.isEmpty then a else a.emit (.pin pinAlert true)

/-- A pulse of `ns` low on WAKE_N: in Dormant it sets the latch from 10 µs on, may set it from 2 µs on, and is ignored below; in every
other state it is ignored and logged (R117, R879). -/
def Chip.wakePulse (ch : Chip) (ns : Nat) : Chip :=
  if ch.alive then ch.ev 0x0902 info
  else if !ch.pwr.armed || ns < 2000 then ch
  else if 10000 ≤ ns then { ch with pwr := { ch.pwr with latched := true } }
  else
    let (i, a) := ch.draw
    if Config.shortPulseLatches i then { a with pwr := { a.pwr with latched := true } } else a

/-- WAKE_N is low for `ns` (R117, R879). -/
def execWakeNPulse (c ns : Nat) (s : State) : Host.Outcome State Fault Refusal := onChip c (fun ch => ch.wakePulse ns) s

/-- The internal power-on reset of a chip whose rails are good: the straps are sampled, the boot begins as a wake or a power-on
reset; a frame write that the loss of power cut off leaves a torn slot (R115, R831, R879, R942). -/
def execPowerOnReset (c : Nat) (s : State) : Host.Outcome State Fault Refusal :=
  onChip c (fun ch =>
    if !ch.pwr.powerGood || !ch.pwr.armed then ch
    else
      let a := ch.afterReset (if ch.pwr.latched then .wake else .powerOn)
      { a with
        ler := match ch.ler.writing with
          | some (slot, _) => { a.ler with mram := putSlot slot (.torn false) a.ler.mram }
          | none => a.ler
        pwr := { a.pwr with armed := false, latched := false }
        boot := { a.boot with straps := ch.strapPins % 4 } }) s

/-! ## The stages (R946 to R953) -/

/-- The boot is at a stage and goes on. -/
def Chip.atStage (ch : Chip) (st : Stage) : Bool := ch.alive && ch.boot.stage == st && !ch.wdg.fatalHalt

/-- The boot enters a stage; the boot ROM or the firmware kicks the chip watchdog (R787, R946). -/
def Chip.toStage (ch : Chip) (st : Stage) : Chip :=
  { ch with
    boot := { ch.boot with stage := st, since := ch.time }
    wdg := { ch.wdg with left := ch.wdg.full, stage2 := false } }

/-- The boot fails: the chip halts on FATAL (R83, R948, R950). -/
def Chip.bootFails (ch : Chip) : Chip := (ch.toStage .failed).haltFatal

/-- The chip leaves WAIT_RELEASE with the plate slot of BOOT_CTRL (R951). -/
def Chip.leaveWait (ch : Chip) : Chip :=
  let a := ch.toStage .hbmTrain
  { a with boot := { a.boot with bootSlot := ch.boot.plateSlot } }

/-- The internal reset ends: the boot ROM begins to read firmware; not while the LER controller is held out of a reset by its pin for a
frame write in flight (R123, R946). -/
def execBootResetDone (c : Nat) (s : State) : Host.Outcome State Fault Refusal :=
  onChip c (fun ch =>
    if ch.atStage .reset && ch.ler.writing.isNone then
      let a := ch.toStage .fwRead
      { a with boot := { a.boot with resetEnd := ch.time } }
    else ch) s

/-- The header field of `n` bytes at an offset of the steward firmware image in a slot (R947). -/
def Tmc.fwField (t : Tmc) (slot off n : Nat) : Nat := leNat (t.flashBytes (flashBase 2 slot + off) n)

/-- The signed bytes of the steward image in a slot: header and body (R947). -/
def Tmc.fwSigned (t : Tmc) (slot : Nat) : List Nat := t.flashBytes (flashBase 2 slot) (64 + t.fwField slot 12 4)

/-- The steward image in a slot is valid (R947). -/
def Tmc.fwOk (t : Tmc) (slot : Nat) : Bool :=
  let base := flashBase 2 slot
  let len := t.fwField slot 12 4
  let sig := t.flashBytes (base + 64 + len) 200
  t.flashBytes base 4 == [0x41, 0x4D, 0x5A, 0x53] && t.fwField slot 4 2 == 1 && 64 + len + 200 ≤ 0x400000 && t.fwField slot 16 4 < len &&
  crc32c (t.flashBytes base 60) == t.fwField slot 60 4 && leAt sig 0 2 == 1 &&
  beNat (sha384 (sliceB sig 4 97)) == Config.holtadKeyDigest 0 &&
  ecdsaOk (sliceB sig 4 97) (sha384 (t.fwSigned slot)) (sliceB sig 104 96)

/-- What the steward takes from the configuration copy in force: the tray serial number and the plate-key digests (R35, R37, R39). -/
def Tmc.forBoot (t : Tmc) (b : Boot) : Boot :=
  { b with
    serial := leAt t.config 16 6
    plateKeys := ((List.range 8).map fun i => beNat (sliceB t.config (944 + 48 * i) 48)).filter fun d => d != 0 }

/-- The boot ROM has read a firmware image and the configuration under its grant, and verifies the image: the other slot is tried
once, then the boot fails (R947 to R949). -/
def Chip.fwRead (ch : Chip) (t : Tmc) : Chip :=
  let slot := if ch.boot.triedOther then 1 - t.fwSlot else t.fwSlot
  let a : Chip := { ch with boot := { ch.boot with granted := false } }
  if t.fwOk slot then
    let b := a.toStage .waitRelease
    let d : Chip := { b with boot := { t.forBoot b.boot with
      fwSlot := slot, fwVersion := t.fwField slot 8 4, fwDigest := sha384 (t.fwSigned slot) } }
    if d.boot.released then d.leaveWait else d
  else if !ch.boot.triedOther then
    ({ a with boot := { a.boot with triedOther := true } } : Chip).ev 0x0D02 warn 0xFF 0xFF cOK 0 slot
  else (a.ev 0x0D03 fatal).bootFails

/-- The firmware image is read and verified; the grant of the flash switch ends (R35, R947). -/
def execFwReadDone (c : Nat) (s : State) : Host.Outcome State Fault Refusal :=
  let ch := s.chip c
  if ch.atStage .fwRead && ch.boot.granted then onChip c (fun x => x.fwRead s.tmc) (s.dropSwitch c) else onChip c id s

/-- A side-band write of CHIP.BOOT_CTRL: the code, and the chip (R951, R962). -/
def Chip.bootCtrl (ch : Chip) (v : Nat) : Chip × Nat :=
  let slot := bitsOf v 4 4
  if slot == 12 || slot == 13 || slot == 14 then (ch, cBOUNDS)
  else
    let a : Chip := { ch with boot := { ch.boot with plateSlot := slot, released := ch.boot.released || bitOf v 0 } }
    (if a.boot.released && a.atStage .waitRelease then a.leaveWait else a, cOK)

/-- After 500 ms at WAIT_RELEASE the chip goes on without a plate slot (R953). -/
def execReleaseTimeout (c : Nat) (s : State) : Host.Outcome State Fault Refusal :=
  onChip c (fun ch =>
    if ch.atStage .waitRelease && ch.boot.since + 500000000 ≤ ch.time then
      (({ ch with boot := { ch.boot with plateSlot := 0xF } } : Chip).ev 0x0D04 warn).leaveWait
    else ch) s

/-- Training of the stacks ends; `failed` names those that failed (R83, R946). -/
def execHbmTrainDone (c : Nat) (failed : List Nat) (s : State) : Host.Outcome State Fault Refusal :=
  onChip c (fun ch =>
    if !ch.atStage .hbmTrain then ch
    else if failed.isEmpty then ch.toStage .selfTest
    else (failed.foldl (fun (a : Chip) i => a.ev 0x0903 fatal 0xFF 0xFF cOK 0 i) ch).bootFails) s

/-- The self-test ends; `failed` names the agents of the units that failed (R946, R950). -/
def execSelfTestDone (c : Nat) (failed : List Nat) (s : State) : Host.Outcome State Fault Refusal :=
  onChip c (fun ch =>
    if !ch.atStage .selfTest then ch
    else if failed.isEmpty then ch.toStage .lerScan
    else (failed.foldl (fun (a : Chip) i => a.ev 0x0D05 fatal 0xFF 0xFF cOK 0 i) ch).bootFails) s

/-- The scan of the record (R832, R946). -/
def execLerScan (c : Nat) (s : State) : Host.Outcome State Fault Refusal :=
  onChip c (fun ch => if ch.atStage .lerScan then ch.lerScan.toStage .ready else ch) s

/-! ## The boot-time plate (R954 to R956) -/

/-- The steward asks for the plate of the boot's slot: the copy begins with the read of the flash (R954). -/
def Chip.bootLoad (ch : Chip) : Chip :=
  { ch with
    boot := { ch.boot with stage := .plateLoad, granted := false }
    loader := { ch.loader with
      back := ch.loader.state, state := .copying, kind := .boot, staged := [], ready := [], fromHost := false, copyCode := cOK } }

/-- At READY_FOR_PLATE: BOOT is raised, LINK[0] trains, and the selected plate is loaded; without one the endpoint trains
(R954, R956). -/
def execBootPlateLoad (c : Nat) (s : State) : Host.Outcome State Fault Refusal :=
  onChip c (fun ch =>
    if !ch.atStage .ready || ch.boot.raised then ch
    else
      let a := (({ ch with boot := { ch.boot with raised := true } } : Chip).ev 0x0D01 info 0xFF 0xFF cOK ch.boot.cause.value ch.boot.fwSlot).trainLink 0
      if a.boot.bootSlot ≤ 11 && a.loader.state == .empty then a.bootLoad else a.pcieTrain false) s

/-! ## PWR_FAIL_N (R119, R193, R826, R955) -/

/-- PWR_FAIL_N falls at the chip: a WARN event, the seal, and a load in progress is abandoned. The event comes before the seal and stands in
the sealed frame (R119; DESIGN CHOICE, log entry 70). -/
def Chip.pwrFall (ch : Chip) : Chip :=
  let a : Chip := { ch with pwr := { ch.pwr with pwrFail := true } }
  if ch.pwr.pwrFail || !ch.alive then a
  else
    let b := a.ev 0x0901 warn
    ({ b with ler := (b.ler.doSeal b.time 2).work b.time } : Chip).powerLost

/-- PWR_FAIL_N rises at the chip: loads are allowed again, and a boot-time load refused for power is retried once (R955). -/
def Chip.pwrRise (ch : Chip) : Chip :=
  let a : Chip := { ch with pwr := { ch.pwr with pwrFail := false } }
  if ch.pwr.pwrFail && ch.alive && ch.loader.retry && ch.loader.state == .empty && ch.boot.stage == .ready then
    ({ a with loader := { a.loader with retry := false, retried := true } } : Chip).bootLoad
  else a

/-- A falling edge of PWR_FAIL_N (R119, R826). -/
def execPwrFailNFall (c : Nat) (s : State) : Host.Outcome State Fault Refusal := onChip c Chip.pwrFall s

/-- A rising edge of PWR_FAIL_N (R955). -/
def execPwrFailNRise (c : Nat) (s : State) : Host.Outcome State Fault Refusal := onChip c Chip.pwrRise s

end Sys2Proof.Machine
end

