-- ==== Sys2Proof/Machine/Remote.lean ====
section
/-! DEFINITION. Requests between chips: serving them, their responses and timeouts, narrowed blocks received, and the commands of a
link's narrowing unit (R685 to R697, R702, R710 to R713, R801, R874). -/
namespace Sys2Proof.Machine

/-! ## Serving (R686, R687, R692, R693, R874) -/

/-- DRAM does not answer: it is in self-refresh (R873 to R875, R877). -/
def Chip.dramAsleep (ch : Chip) : Bool :=
  match ch.pwr.state with
  | .standby => true
  | .exiting => true
  | .dormantEntry => ch.pwr.dormSeal
  | .dormantReady => true
  | _ => false

/-- The chip at the far end of link `n`, as its wiring or else its identity record says (R23, R24, R680). -/
def Chip.farChipOf (ch : Chip) (n : Nat) : Nat :=
  match wired ch.tray ch.boot.straps n with
  | some (i, _) => i
  | none => (ch.link n).farChip

/-- The far end of link `n` may use partition `p` through window `win`, 0 being the twin window (R687). -/
def Chip.servesFor (ch : Chip) (n p win : Nat) : Bool :=
  let x := (ch.part p).plate
  let peer := match wired ch.tray ch.boot.straps n with
    | some (i, _) => i
    | none => 0x20 + n
  (ch.part p).isDefined && (if win == 0 then n == 0 && bitOf x.linkMask 0 else x.peer0 == peer || x.peer1 == peer)

/-- The device address that an offset of a window reaches in partition `p`, or the code that refuses it (R572, R686, R687). -/
def Chip.farAddr (ch : Chip) (p off n : Nat) : Except Nat Nat :=
  let x := (ch.part p).plate
  if !windowOk off n then .error cBOUNDS
  else if off < 0x0F00000000 then
    if x.dramSize < off + n then .error cBOUNDS
    else if x.dramSize < off + n + x.spill then .error cPERM
    else .ok (x.dramBase + off)
  else if off < 0x0F40000000 then
    let d := (off - 0x0F00000000) / 0x1000000
    if d < ch.pods.length && bitOf x.podMask d then .ok (podStoreBase + (off - 0x0F00000000)) else .error cBOUNDS
  else
    let k := (off - 0x0F40000000) / 0x200000
    if k < ch.cores.length && bitOf x.podMask (podOf k) then .ok (coreStoreBase + (off - 0x0F40000000)) else .error cBOUNDS

/-- The response to a request of link `n` leaves: its code and the bytes read (R692, R694). -/
def Chip.respond (ch : Chip) (n code : Nat) (bytes : List Nat) : Chip := ch.linkSend n 3 [code] bytes

/-- A request of link `n` is refused: the violation is logged and the code returned (R687, R694, R760, R761). -/
def Chip.refuseRemote (ch : Chip) (n p code addr : Nat) (isRead : Bool) : Chip :=
  (ch.violateIf (0x60 + n) p vRemote code addr isRead (ch.farChipOf n + 256 * n)).respond n code []

/-- A request of link `n` for `len` bytes at an offset of window `win` of partition `p` is checked and performed: a read, or a write of
`data` (R687). -/
def Chip.serve (ch : Chip) (n p win off len : Nat) (write : Bool) (data : List Nat) : Chip :=
  let a := ch.leaveIdle
  if a.dramAsleep then a.respond n cBUSY []
  else if !a.servesFor n p win then a.refuseRemote n p cPERM 0 (!write)
  else match a.farAddr p off len with
    | .error c => a.refuseRemote n p c 0 (!write)
    | .ok d =>
      if write then
        match a.writeCode d len with
        | 0 => (a.plainStore d (sliceB data 0 len)).respond n cOK []
        | c => a.refuseRemote n p c d false
      else if a.bad d len then a.refuseRemote n p cECC d true
      else (a.countSoft d len).respond n cOK (a.see none d len)

/-- A window request arrives over link `n`. -/
def execRemoteRequestServe (c n p win off len : Nat) (write : Bool) (data : List Nat) (s : State) : Host.Outcome State Fault Refusal :=
  onChip c (fun ch => if ch.alive && ch.linkUp n then ch.serve n p win off len write data else ch) s

/-! ## Responses and timeouts (R690, R692, R694, R801 to R803) -/

/-- The request with an id that has no response yet. -/
def Chip.remote (ch : Chip) (id : Nat) : Option Remote := ch.remotes.find? fun r => r.id == id

/-- The link number that a request to host memory carries: it uses none. -/
abbrev noLink : Nat := 0xFF

/-- The response to request `id` arrives; one that nothing waits for is discarded, and none carries a reserved code (R690, R758). -/
def execRemoteResponse (c id code : Nat) (data : List Nat) (s : State) : Host.Outcome State Fault Refusal :=
  onChip c (fun ch =>
    match ch.remote id with
    | some r => if ch.alive && r.link != noLink && ch.linkUp r.link then ch.requestDone r (code % 16) data else ch
    | none => ch) s

/-- A request has had no answer within msg_wait_us (R690). -/
def execRemoteTimeout (c id : Nat) (s : State) : Host.Outcome State Fault Refusal :=
  onChip c (fun ch =>
    match ch.remote id with
    | some r =>
      if ch.alive && r.link < 6 && r.behind == 0 && r.since + ch.msgWaitNs r.part ≤ ch.time && !ch.requestFrozen r && !(ch.part r.part).inSlot then
        (ch.supersede r 2).requestDone r cTIMEOUT []
      else ch
    | none => ch) s

/-! ## Narrowed blocks (R697, R702, R704) -/

/-- The stretches of a walk's rows that hold bytes `skip` to `skip + n - 1` of the walk, each with its bytes' place among them. -/
def walkPart : List (Nat × Nat) → Nat → Nat → Nat → List (Nat × Nat × Nat)
  | [], _, _, _ => []
  | (a, l) :: r, skip, n, at_ =>
    if n = 0 then []
    else if l ≤ skip then walkPart r (skip - l) n at_
    else
      let m := min (l - skip) n
      (a + skip, at_, m) :: walkPart r 0 (n - m) (at_ + m)

/-- The offset in a window of a device address of the requester. -/
def windowOff (a : Nat) : Nat := if a < peer0Base then a - twinBase else if a < peer1Base then a - peer0Base else a - peer1Base

/-- A narrowed block arrives over link `n`: `whole` says that it arrived whole and its check passed. It is widened and written where
the descriptor's far walk says (R687, R697, R702). -/
def execNarrowBlockReceive (c n p win : Nat) (whole : Bool) (desc rec blk : List Nat) (s : State) : Host.Outcome State Fault Refusal :=
  onChip c (fun ch0 =>
    if !ch0.alive || !ch0.linkUp n || !whole then ch0
    else
      let ch := ch0.leaveIdle
      let rows := (Desc.of desc).farRows
      let (first, xs) := widenBlock rec blk
      let bytes := xs.flatMap (leBytes 4)
      let addr := fun (a m : Nat) => ch.farAddr p (windowOff a) m
      let bad := rows.findSome? fun e => match addr e.1 e.2 with
        | .error c => some c
        | .ok _ => none
      if ch.dramAsleep then ch.respond n cBUSY []
      else if (ch.link n).fenced then ch.respond n cFENCED []
      else if !ch.servesFor n p win then ch.refuseRemote n p cPERM 0 false
      else match bad with
        | some c => ch.refuseRemote n p c 0 false
        | none =>
          let (a, code, at_) := (walkPart rows (4 * first) bytes.length 0).foldl (fun (x : Chip × Nat × Nat) e =>
            match x.2.1, addr e.1 e.2.2 with
            | 0, .ok d => (match x.1.writeCode d e.2.2 with
              | 0 => (x.1.plainStore d ((bytes.drop e.2.1).take e.2.2), cOK, 0)
              | c => (x.1, c, d))
            | _, _ => x) (ch, cOK, 0)
          if code == cOK then a.respond n cOK [] else a.refuseRemote n p code at_ false) s

/-! ## STATS and ADAPT_RESET (R710 to R713) -/

/-- A command for link `n`. -/
def forLnu (n : Nat) (u : UnitCmd) : Bool := u.unit == 0x20 + n

/-- The profile of link `n` that a command names. -/
def Chip.lnuProfile (ch : Chip) (n : Nat) (u : UnitCmd) : Option Profile :=
  ((ch.part (ch.partNo u.core)).tables.profile (u.byte 4)).filter fun p => p.link == n

/-- The 16 bytes of one channel (R711). -/
def LnuChan.bytes (x : LnuChan) : List Nat :=
  [sbyte x.a, x.q, 0, 0] ++ leBytes 4 (min x.n 0xFFFFFFFF) ++ leBytes 4 (min x.clipped 0xFFFFFFFF) ++ leBytes 4 x.m

/-- The bytes of STATS for a profile; for one without adaptation, of which an LNU keeps nothing, free values (DESIGN CHOICE, log entry 30). -/
def Chip.statsBytes (ch : Chip) (p : Nat) (pr : Profile) : Chip × List Nat :=
  match (ch.part p).lnu.lookup pr.id with
  | some l => (ch, l.flatMap LnuChan.bytes)
  | none =>
    let (d, a) := ch.draw
    (a, (List.range (16 * pr.channels)).map fun i => (Config.freeByte d i).toNat)

/-- STATS on link `n` (R710, R711); the answers are those of far memory and the host. -/
def execStats (c n : Nat) (far : List (Nat × Nat × List Nat)) (s : State) : Host.Outcome State Fault Refusal :=
  onChip c (fun ch => ch.accept (forLnu n) 1 fun u a =>
    let p := a.partNo u.core
    let dst := u.le 8 8
    match a.lnuProfile n u with
    | none => a.refuse u cBOUNDS
    | some pr =>
      let code := firstCode [chk cBOUNDS (u.flagsOk && u.zero 5 7 && u.zero 16 63), chk cALIGN (dst % 64 == 0),
        a.usable p dst (16 * pr.channels)]
      if code != cOK then a.refuse u code dst
      else
        let (b, bytes) := a.statsBytes p pr
        let (d, code) := b.uwrite p far dst bytes
        if code == cOK then d.complete u cOK pr.channels else d.refuse u code dst) s

/-- ADAPT_RESET on link `n` (R710, R712, R713). -/
def execAdaptReset (c n : Nat) (s : State) : Host.Outcome State Fault Refusal :=
  onChip c (fun ch => ch.accept (forLnu n) 2 fun u a =>
    let p := a.partNo u.core
    match a.lnuProfile n u with
    | none => a.refuse u cBOUNDS
    | some pr =>
      if !(u.flagsOk && u.zero 5 63) then a.refuse u cBOUNDS
      else if !(a.part p).expert then a.refuse u cPERM
      else
        (a.modPart p fun q => { q with lnu := q.lnu.map fun e => if e.1 == pr.id then (e.1, e.2.map fun _ => ({} : LnuChan)) else e }).complete
          u cOK 0) s

end Sys2Proof.Machine
end

