-- ==== Sys2Proof/Machine/Host.lean ====
section
/-! DEFINITION. The host interface: doorbells, commands of the rings, deferred vectors, BAR4, configuration writes, the loss of the link,
Function Level Reset, answers of host memory (R31, R212 to R218, R895 to R907, R909 to R918, R926, R927, R937 to R941, R956). -/
namespace Sys2Proof.Machine

/-! ## Functions and refusals (R897, R898, R905, R906) -/

/-- A function answers memory accesses: it exists, its BARs are enabled and it is in D0 (R897, R898). -/
def Chip.fnAnswers (ch : Chip) (fn : Nat) : Bool :=
  let f := ch.host.fns.getD fn {}
  ch.alive && f.mem && !f.d3hot && (fn == 0 || (ch.host.vfEnable && fn ≤ ch.host.numVfs))

/-- The agent number of a function (R762). -/
def fnAgent (fn : Nat) : Nat := if fn == 0 then 0x80 else 0x87 + fn

/-- The partition that a VF serves, 0xFF for the PF (R898). -/
def fnPart (fn : Nat) : Nat := if fn == 0 then 0xFF else fn - 1

/-- FN_ERR[f] after a refusal (R905, R941). -/
def FnErr.record (e : FnErr) (bar off code : Nat) : FnErr :=
  if e.valid then { e with multi := true } else { valid := true, multi := false, offset := off, bar := bar, code := code }

/-- A host access is refused: a violation, FN_ERR[f], the vector, and all ones for a read of `len` bytes (R905, R926). -/
def Chip.hostRefused (ch : Chip) (fn bar off len code : Nat) (write : Bool) : Chip :=
  let kind := if bar == 4 then (if write then vWrite else vRead) else (if write then vRegWrite else vRegRead)
  let fresh := !(ch.host.fnErr.getD fn {}).valid
  let a := ch.violateIf (fnAgent fn) (fnPart fn) kind code off (!write)
  let b : Chip := { a with host := { a.host with fnErr := a.host.fnErr.modify fn fun e => e.record bar off code } }
  let d := if fn == 0 then (if fresh || isViolation code (!write) then b.fireOf 0 35 0 else b)
    else if fresh then b.firePart (fn - 1) 3 else b
  if write then d else d.emit (.hostRead fn (List.replicate len 0xFF) false)

/-! ## Doorbells (R904, R909 to R912) -/

/-- Ring `i` of partition `p` is put in ERROR (R912). -/
def Chip.ringError (ch : Chip) (p i : Nat) : Chip :=
  ((ch.modRing p fun r => { r with err := r.err ||| 2 ^ i, errCode := cBOUNDS }).ev 0x0C01 warn 0xFF p cBOUNDS 0
    (ch.ownerFn p * 256 + i)).firePart p 3

/-- The chip event ring is put in ERROR (R912); R926 gives that no vector. -/
def Chip.chipRingError (ch : Chip) : Chip :=
  ({ ch with host := { ch.host with chipEvtErr := true } } : Chip).ev 0x0C01 warn 0xFF 0xFF cBOUNDS 0 4

/-- Function `fn` writes the doorbell at `off` of page `p`, page 8 being the chip page: the checks of R899 and R978, then `f`. A
doorbell write ends Idle (R871). -/
def Chip.doorbell (ch : Chip) (fn p off : Nat) (f : Chip → Chip) : Chip :=
  if !ch.fnAnswers fn then ch.emit (.unsupported fn)
  else if fn != 0 && p + 1 != fn then ch.emit (.unsupported fn)
  else if p < 8 && ch.variant.maxParts ≤ p then ch
  else if (if p < 8 then ch.ownerFn p else 0) != fn then ch.hostRefused fn 2 (if fn == 0 then p * 0x1000 + off else off) 4 cPERM true
  else f ch.leaveIdle

/-- A consumer doorbell: `head` and `prod` are the ring's counters, and `v` lies beyond `prod` (R912). -/
def beyond (v head prod : Nat) : Bool := ctrDiff prod head < ctrDiff v head

/-- CMD_TAIL (R910 to R912). -/
def execCmdTail (c fn p v : Nat) (s : State) : Host.Outcome State Fault Refusal :=
  onChip c (fun ch => ch.doorbell fn p 0 fun a =>
    let r := a.ring p
    let w := v % 2 ^ 32
    if 8 ≤ p || !r.on 0 || r.bad 0 then a
    else if r.size 0 < ctrDiff w r.cmdCons || ctrDiff w r.cmdCons < ctrDiff r.cmdTail r.cmdCons then a.ringError p 0
    else a.modRing p fun x => { x with cmdTail := w }) s

/-- CPL_HEAD: space for the completions that wait (R910, R912, R922). -/
def execCplHead (c fn p v : Nat) (s : State) : Host.Outcome State Fault Refusal :=
  onChip c (fun ch => ch.doorbell fn p 8 fun a =>
    let r := a.ring p
    let w := v % 2 ^ 32
    if 8 ≤ p || !r.on 1 || r.bad 1 then a
    else if beyond w r.cplHead r.cplProd then a.ringError p 1
    else Chip.drainCpl p r.waiting.length (a.modRing p fun x => { x with cplHead := w })) s

/-- EVT_HEAD, of a partition or, on page 8, of the chip event ring (R910, R912). -/
def execEvtHead (c fn p v : Nat) (s : State) : Host.Outcome State Fault Refusal :=
  onChip c (fun ch => ch.doorbell fn p 0x10 fun a =>
    let w := v % 2 ^ 32
    if p == 8 then
      let h := a.host
      if !bitOf h.chipEvtCtrl 0 || h.chipEvtErr then a
      else if beyond w h.chipEvtHead h.chipEvtProd then a.chipRingError
      else { a with host := { h with chipEvtHead := w } }
    else
      let r := a.ring p
      if 8 ≤ p || !r.on 2 || r.bad 2 then a
      else if beyond w r.evtHead r.evtProd then a.ringError p 2
      else a.modRing p fun x => { x with evtHead := w }) s

/-- TLM_HEAD (R910, R912). -/
def execTlmHead (c fn p v : Nat) (s : State) : Host.Outcome State Fault Refusal :=
  onChip c (fun ch => ch.doorbell fn p 0x18 fun a =>
    let r := a.ring p
    let w := v % 2 ^ 32
    if 8 ≤ p || !r.on 3 || r.bad 3 then a
    else if beyond w r.tlmHead r.tlmProd then a.ringError p 3
    else a.modRing p fun x => { x with tlmHead := w }) s

/-! ## Commands (R900, R913 to R918) -/

/-- A completion of a command waits for space, so the command ring advances no further (R922). -/
def Rings.blocked (r : Rings) : Bool := r.waiting.any fun x => !x.unsolicited

/-- A command from the 64 bytes of its entry, at a position of the ring (R913). -/
def HostCmd.of (b : List Nat) (seq : Nat) : HostCmd :=
  { opcode := leAt b 0 1, flags := leAt b 1 1, cmdId := leAt b 4 4, seq := seq, bytes := sliceB b 0 64 }

/-- An unlisted opcode, a reserved bit set or a reserved field not 0 (R913). -/
def HostCmd.bad (x : HostCmd) : Bool :=
  let used := match x.opcode with
    | 1 => [8, 9, 10, 11, 12, 13, 14, 15]
    | 2 => [8, 9, 10, 11]
    | 3 => [8, 9, 10, 12, 13, 14, 15]
    | _ => []
  4 < x.opcode || (if x.opcode == 1 then 4 ≤ x.flags else 2 ≤ x.flags) || leAt x.bytes 2 2 != 0 ||
  (List.range 56).any fun i => !used.contains (8 + i) && leAt x.bytes (8 + i) 1 != 0

/-- The command that the ring of partition `p` takes next: the oldest fetched, unless a completion waits. -/
def Chip.frontCmd (ch : Chip) (p : Nat) : Option HostCmd :=
  let r := ch.ring p
  if r.blocked || !r.on 0 || r.bad 0 then none else r.fetched.head?

/-- It is accepted (R913). -/
def Chip.acceptCmd (ch : Chip) (p : Nat) : Chip :=
  ch.modRing p fun r => { r with fetched := r.fetched.drop 1, live := r.live ++ ((r.fetched.take 1).map HostCmd.seq) }

/-- Commands at the front that complete with BOUNDS (R900, R913). -/
def Chip.dropBad (p : Nat) : Nat → Chip → Chip
  | 0, ch => ch
  | n + 1, ch =>
    match ch.frontCmd p with
    | some x => if x.bad || !ch.takesCmds p then Chip.dropBad p n ((ch.acceptCmd p).cmdCpl p x cBOUNDS 0 0) else ch
    | none => ch

/-- The next command of partition `p`, where it has opcode `op`, is accepted and carried out by `f`; then the commands after it that
complete with BOUNDS. -/
def Chip.takeCmd (ch : Chip) (p op : Nat) (f : HostCmd → Chip → Chip) : Chip :=
  match ch.frontCmd p with
  | some x => if ch.alive && x.opcode == op then Chip.dropBad p 8 (f x (ch.acceptCmd p)) else ch
  | none => ch

/-- The device fetches the next burst of commands of partition `p` (R907, R913): `code` is the outcome of the read, `data` the bytes of
the entries it uses. -/
def execCmdFetch (c p code : Nat) (data : List Nat) (s : State) : Host.Outcome State Fault Refusal :=
  onChip c (fun ch =>
    let r := ch.ring p
    let n := ctrDiff r.cmdTail r.cmdCons
    if !ch.alive || !r.on 0 || r.bad 0 || r.blocked || !r.fetched.isEmpty || n == 0 then ch
    else
      let slot := r.cmdCons % r.size 0
      let addr := r.cmdBase + 64 * (slot / 8 * 8)
      let fn := ch.ownerFn p
      if !ch.busMaster fn then ch.hostMemError fn addr cPERM
      else
        let a := ch.emit (.hostFetch fn addr 512)
        if code != cOK then a.hostMemError fn addr code
        else
          let k := min n (8 - slot % 8)
          let new := (List.range k).map fun i => HostCmd.of ((data.drop (64 * i)).take 64) ((r.cmdCons + i) % 2 ^ 32)
          Chip.dropBad p 8 (a.modRing p fun x => { x with fetched := new, cmdCons := (x.cmdCons + k) % 2 ^ 32 })) s

/-- HOST_NOP (R914). -/
def execHostNop (c p : Nat) (s : State) : Host.Outcome State Fault Refusal :=
  onChip c (fun ch => ch.takeCmd p 0 fun x a => a.cmdCpl p x cOK 0 0) s

/-- ADMIT_JOB: the next command is accepted, and the steward decides it (R213, R218). -/
def execAdmitJob (c p : Nat) (s : State) : Host.Outcome State Fault Refusal :=
  onChip c (fun ch => ch.takeCmd p 1 fun x a => a.submit (.admission p x)) s

/-- RETIRE_JOB: the next command is accepted, and the steward decides it (R217, R218). -/
def execRetireJob (c p : Nat) (s : State) : Host.Outcome State Fault Refusal :=
  onChip c (fun ch => ch.takeCmd p 2 fun x a => a.submit (.retire p x)) s

/-- SYNC_POST (R421, R914, R917). Whether the object is the partition's is checked before the operation's own encoding (R18; DESIGN CHOICE,
log entry 69). -/
def execSyncPost (c p : Nat) (s : State) : Host.Outcome State Fault Refusal :=
  onChip c (fun ch => ch.takeCmd p 3 fun x a =>
    let n := leAt x.bytes 8 2
    let op := leAt x.bytes 10 1
    match a.sync n with
    | none => a.cmdCpl p x cPERM 0 0
    | some o =>
      if o.part != p then a.cmdCpl p x cPERM 0 0
      else if !((op == 1 && o.kind == kCOUNTER) || (op == 2 && o.kind == kEVENT)) then a.cmdCpl p x cBOUNDS 0 0
      else match a.postTo n 0 (leAt x.bytes 12 4) with
        | .error e => a.cmdCpl p x e 0 0
        | .ok b => b.cmdCpl p x cOK 0 o.value) s

/-- HOST_FENCE (R914). -/
def execHostFence (c p : Nat) (s : State) : Host.Outcome State Fault Refusal :=
  onChip c (fun ch => ch.takeCmd p 4 fun x a =>
    let before := (a.ring p).live.filter fun i => i != x.seq
    if before.isEmpty then a.cmdCpl p x cOK 0 0 else a.modRing p fun r => { r with fences := r.fences ++ [(x, before)] }) s

/-! ## Vectors (R926, R927) -/

/-- A firing held back by CPL_MOD is delivered at the end of the interval (R927). -/
def execMsixDeferred (c fn vec : Nat) (s : State) : Host.Outcome State Fault Refusal :=
  onChip c (fun ch =>
    let p := if fn == 0 then vec / 4 else fn - 1
    match ch.host.vectors.find? fun v => v.fn == fn && v.vec == vec && v.deferred with
    | some v =>
      if ch.alive && v.last + 1000 * (ch.ring p).cplMod ≤ ch.time then
        ({ ch with host := { ch.host with vectors := ch.host.vectors.map fun w =>
          if w.fn == fn && w.vec == vec then { w with deferred := false, last := ch.time } else w } } : Chip).emit (.msix fn vec)
      else ch
    | none => ch) s

/-! ## BAR4 (R901, R903, R906) -/

/-- The device address that `len` bytes at an offset of a function's BAR4 reach, or the code that refuses them (R903). -/
def Chip.bar4Addr (ch : Chip) (fn off len : Nat) : Except Nat Nat :=
  let x := (ch.part (fn - 1)).plate
  let a := if fn == 0 then ch.host.bar4Base + off else x.dramBase + off
  let spilled := ch.defined.any fun p =>
    let y := (ch.part p).plate
    y.spill != 0 && a < y.dramBase + y.dramSize && y.dramBase + y.dramSize - y.spill < a + len
  if (fn != 0 && (!(ch.part (fn - 1)).isDefined || x.dramSize < off + len)) || ch.variant.dramBytes < a + len || spilled ||
    ch.staging < a + len then .error cBOUNDS
  else if ch.dramAsleep then .error cBUSY
  else .ok a

/-- A host access through BAR4 (R903, R905, R906). -/
def execBar4Access (c fn off len : Nat) (write : Bool) (data : List Nat) (s : State) : Host.Outcome State Fault Refusal :=
  onChip c (fun ch =>
    if !ch.fnAnswers fn || 2 ^ (if fn == 0 then ch.host.pfBar4 else ch.host.vfBar4) < off + len then ch.emit (.unsupported fn)
    else
      let b := ch.leaveIdle
      match b.bar4Addr fn off len with
      | .error e => b.hostRefused fn 4 off len e write
      | .ok a =>
        if write then
          match b.writeCode a len with
          | 0 => b.plainStore a (sliceB data 0 len)
          | e => b.hostRefused fn 4 off len e true
        else if b.bad a len then
          let v := b.violate (fnAgent fn) (fnPart fn) vRead cECC off
          (if fn == 0 then v.fireOf 0 35 0 else v).emit (.hostRead fn (b.see none a len) true)
        else (b.countSoft a len).emit (.hostRead fn (b.see none a len) false)) s

/-! ## Host memory (R907) -/

/-- The host completes a device request: the agent learns its code, and one that is not OK raises HOST_MEM_ERROR. -/
def execHostMemCompletion (c id code : Nat) (data : List Nat) (s : State) : Host.Outcome State Fault Refusal :=
  onChip c (fun ch =>
    match ch.remote id with
    | some r =>
      if ch.alive && r.link == noLink then
        (if code == cOK then ch else ch.hostMemError (ch.ownerFn r.part) (r.addr - hostBase) code).requestDone r code data
      else ch
    | none => ch) s

/-! ## Configuration, resets of functions, loss of the link (R897 to R901, R937, R938, R956) -/

/-- What the configuration space states of function `fn`: vendor, device, class code, revision, subsystem vendor and subsystem (R896); of the
PF also TotalVFs, First VF Offset and VF Stride (R898). -/
def Chip.identity (ch : Chip) (tray : TrayType) (fn : Nat) : List Nat :=
  [0x1F3C, ch.variant.deviceId + (if fn == 0 then 0 else 0x8000), 0x120000, 0x01, 0x1F3C, match tray with | .st4 => 0x0004 | .st2 => 0x0002] ++
  (if fn == 0 then [ch.variant.maxParts, 1, 1] else [])

/-- A configuration request of function `fn`: a write of field 0 Bus Master Enable, 1 the D-state, 2 NumVFs, 3 VF Enable, 4 Memory Space
Enable, 5 the size of BAR4 as a power of two; field 6, which no write changes, answers the identification (R895 to R901; PRESUMED, log
entry 32). -/
def execPcieConfigWrite (c fn field v : Nat) (s : State) : Host.Outcome State Fault Refusal :=
  onChip c (fun ch =>
    let h := ch.host
    let put := fun (f : HostFn → HostFn) => ({ ch with host := { h with fns := h.fns.modify fn f } } : Chip)
    if !ch.alive || ch.boot.pcie != .up || !(fn == 0 || (h.vfEnable && fn ≤ h.numVfs)) then ch
    else match field with
      | 0 => put fun f => { f with bme := bitOf v 0 }
      | 1 => put fun f => { f with d3hot := v % 4 == 3 }
      | 2 => if fn == 0 && !h.vfEnable && v ≤ ch.variant.maxParts then { ch with host := { h with numVfs := v } } else ch
      | 3 => if fn != 0 then ch
        else if bitOf v 0 then { ch with host := { h with vfEnable := true } }
        else { ch with host := { h with vfEnable := false, fns := h.fns.take 1 ++ List.replicate 8 {} } }
      | 4 => put fun f => { f with mem := bitOf v 0 }
      | 5 => if fn == 0 && 30 ≤ v && v ≤ 38 then { ch with host := { h with pfBar4 := v } }
        else if fn != 0 && 30 ≤ v && v ≤ 36 then { ch with host := { h with vfBar4 := v } }
        else ch
      | 6 => ch.emit (.identity c fn (ch.identity s.trayType fn))
      | _ => ch) s

/-- The endpoint completes link initialisation: at the first tick of the plate's first partition, or while the chip stays in
READY_FOR_PLATE; not while PERST# holds the links in reset (R30, R31, R956). -/
def execPcieLinkUp (c : Nat) (s : State) : Host.Outcome State Fault Refusal :=
  onChip c (fun ch =>
    if ch.alive && !s.port.perst && ch.boot.pcie == .training && (!ch.boot.pcieFirst || (ch.part 0).ticked) then
      ({ ch with boot := { ch.boot with pcie := .up } } : Chip).emit (.pin pinPort true)
    else ch) s

/-- A decision about partition `p` outlives the rings: its command is none of the new ring's (R937, R938). -/
def Decision.orphan : Decision → Decision
  | .admission p x => .admission p { x with seq := x.seq + 2 ^ 32 }
  | .retire p x => .retire p { x with seq := x.seq + 2 ^ 32 }
  | .offer w => .offer w

/-- Decisions that wait for the steward outlive the rings. -/
def Chip.orphans (ch : Chip) : Chip := { ch with decisions := ch.decisions.map Decision.orphan }

/-- PERST# (1), link down (2) or a hot reset (3): configuration spaces and HOSTQ at reset, unsolicited completions discarded (R937). -/
def Chip.hostLinkReset (ch : Chip) (kind : Nat) : Chip :=
  if !ch.alive || ch.boot.pcie != .up then ch
  else (({ ch.orphans with host := ({} : HostIf), boot := { ch.boot with pcie := .training, pcieSince := ch.time, pcieFirst := false } } : Chip).emit
    (.pin pinPort false)).ev 0x0C02 warn 0xFF 0xFF cOK 0 kind

/-- HOST_LINK_RESET (R937). -/
def execHostLinkReset (c kind : Nat) (s : State) : Host.Outcome State Fault Refusal :=
  onChip c (fun ch => if 1 ≤ kind && kind ≤ 3 then ch.hostLinkReset kind else ch) s

/-- The lanes to which the upstream port trains (R27). -/
def HostPort.width (h : HostPort) : Nat := if !h.cableA then 0 else if h.cableB then 16 else 8

/-- The training of the endpoint's link begins again. -/
def Chip.retrainHost (ch : Chip) : Chip :=
  if ch.boot.pcie == .training then { ch with boot := { ch.boot with pcieSince := ch.time } } else ch

/-- PERST# on the host connectors, and which of them are cabled: asserted on HOST A it resets the switch and holds every downstream link in
reset; the links train again once it is released (R27, R31; the levels are operands: DESIGN CHOICE, log entry 71). -/
def execHostPerst (asserted cableA cableB : Bool) (s : State) : Host.Outcome State Fault Refusal :=
  let port : HostPort := { cableA := cableA, cableB := cableB, perst := asserted && cableA }
  .next { s with
    port := port
    chips := s.chips.map fun ch =>
      if port.perst && !s.port.perst then ch.hostLinkReset 1
      else if !port.perst && s.port.perst then ch.retrainHost
      else ch }

/-- Every job of partition `p` is retired at the end of the tick in progress (R938). -/
def Chip.retireAtEnd (ch : Chip) (p : Nat) : Chip :=
  if (ch.part p).running then ch.modPart p fun q => { q with retireAll := true } else ch.retireAllJobs p cFENCED 0

/-- Decisions about partition `p` that wait for a steward that does not run are dropped (R938; DEDUCED, log entry 35). -/
def Chip.dropDecisions (ch : Chip) (p : Nat) : Chip := { ch with decisions := ch.decisions.filter fun d => d.part? != some p }

/-- A Function Level Reset (R938, R991). -/
def execFlr (c fn : Nat) (s : State) : Host.Outcome State Fault Refusal :=
  onChip c (fun ch =>
    if !ch.alive || ch.boot.pcie != .up || !(fn == 0 || (ch.host.vfEnable && fn ≤ ch.host.numVfs)) then ch
    else
      let a : Chip := if fn == 0 then { ch with host := ({} : HostIf) }
        else { ch with host := { ch.host with
          fns := ch.host.fns.set fn {}, rings := ch.host.rings.set (fn - 1) {}, fnErr := ch.host.fnErr.set fn {}
          vectors := ch.host.vectors.filter fun v => v.fn != fn } }
      let l := if fn == 0 then a.defined else a.defined.filter fun p => p + 1 == fn
      (a.forEach l fun p b => (b.dropDecisions p).retireAtEnd p).ev 0x0C03 info 0xFF 0xFF cOK 0 fn) s

end Sys2Proof.Machine
end

