-- ==== Sys2Proof/Machine/RegMap.lean ====
section
/-! DEFINITION. The register space: blocks, the word that each register reads as, absent instances, and who may read (R90 to R101,
R110, R161, R196, R238 to R241, R393 to R399, R452 to R455, R484 to R488, R527 to R529, R584, R585, R633 to R635, R666, R667, R714
to R716, R754, R755, R797 to R799, R841, R842, R863, R892, R893, R928, R929, R940, R941, R961 to R965, R976 to R984). -/
namespace Sys2Proof.Machine

/-! ## The block map (R963) -/

/-- A block of the register space, with its instance. -/
inductive Block where
  | chip | steward | plate
  | part (p : Nat)
  | wdg | evt | pwr | twin
  | link (n : Nat)
  | pod (d : Nat)
  | core (k : Nat)
  | cu (u : Nat)
  | te (u : Nat)
  | sfu | sync | hostq
  deriving DecidableEq, Repr, Inhabited

/-- A block with `n` instances at a stride: its instance and the offset within it. -/
def inBlock (off base stride n : Nat) (mk : Nat → Block) : Option (Block × Nat) :=
  if base ≤ off && off < base + stride * n then some (mk ((off - base) / stride), (off - base) % stride) else none

/-- The block of a register offset and the offset within its instance; none in a gap (R963, R964). -/
def blockOf (off : Nat) : Option (Block × Nat) :=
  inBlock off 0 0x10000 1 (fun _ => .chip) <|>
  inBlock off 0x10000 0x10000 1 (fun _ => .steward) <|>
  inBlock off 0x20000 0x10000 1 (fun _ => .plate) <|>
  inBlock off 0x30000 0x1000 8 Block.part <|>
  inBlock off 0x40000 0x10000 1 (fun _ => .wdg) <|>
  inBlock off 0x50000 0x10000 1 (fun _ => .evt) <|>
  inBlock off 0x60000 0x10000 1 (fun _ => .pwr) <|>
  inBlock off 0x70000 0x10000 1 (fun _ => .twin) <|>
  inBlock off 0x100000 0x4000 6 Block.link <|>
  inBlock off 0x200000 0x10000 8 Block.pod <|>
  inBlock off 0x300000 0x1000 64 Block.core <|>
  inBlock off 0x400000 0x10000 4 Block.cu <|>
  inBlock off 0x500000 0x10000 2 Block.te <|>
  inBlock off 0x600000 0x10000 1 (fun _ => .sfu) <|>
  inBlock off 0x700000 0x18000 1 (fun _ => .sync) <|>
  inBlock off 0x800000 0x10000 1 (fun _ => .hostq)

/-- The unit blocks (R102). -/
def Block.isUnit : Block → Bool
  | .link _ => true
  | .pod _ => true
  | .core _ => true
  | .cu _ => true
  | .te _ => true
  | .sfu => true
  | .sync => true
  | _ => false

/-! ## Arrays of registers -/

/-- The index of a register in an array at `base`: `n` of them, `stride` apart, each at `at` within its stride. -/
def regIx (off base stride n at' : Nat) : Option Nat :=
  if base ≤ off && off < base + stride * n && (off - base) % stride == at' then some ((off - base) / stride) else none

/-- The 64-bit word at an offset of a run of bytes that starts at `base`. -/
def bytesAt (l : List Nat) (base off : Nat) : Nat := leAt l (off - base) 8

/-! ## Values (R239 to R241, R394 to R399, R454 to R455, R471, R486, R523, R529, R585, R634, R667, R715, R755, R798, R842, R893, R941) -/

/-- CORE.STATE.STATE (R394). -/
def RunState.value : RunState → Nat
  | .halted => 0
  | .running => 1
  | .waiting => 2
  | .parked => 3
  | .faulted => 4
  | .debug => 5
  | .fenced => 6

/-- A violation as 32 bytes (R761). -/
def Violation.bytes (v : Violation) : List Nat :=
  leBytes 8 v.time ++ leBytes 8 v.addr ++ [v.code, v.agent, v.part, v.kind] ++ leBytes 2 v.detail ++ leBytes 2 v.count ++
  leBytes 4 v.tick ++ [0, 0, 0, 0]

/-- EVT.VLOG[i] (R799). -/
def Recovery.vlogBytes (r : Recovery) (i : Nat) : List Nat :=
  match r.vlog[(r.vlogHead + 255 - i) % 128]? with
  | some v => v.bytes
  | none => []

/-- EVT.RECENT[i] (R841). -/
def Record.recentBytes (r : Record) (i : Nat) : List Nat :=
  match r.recent[(r.recentCount + 63 - i + 64) % 64]? with
  | some e => e.bytes
  | none => []

/-- EVT.LER_STATE (R842). -/
def Record.state (r : Record) : Nat :=
  b2n r.writing.isSome * 2 ^ 31 + b2n (r.sealWrites != 0) * 2 ^ 30 + r.held.length * 2 ^ 24 + r.newestSlot

/-- EVT.FIFO_STATE (R842). -/
def Record.fifoState (r : Record) : Nat := r.high * 2 ^ 16 + b2n (r.sums.any Option.isSome) * 2 ^ 15 + r.fifo.length

/-- WDG.STATUS (R798). -/
def Watchdogs.status (w : Watchdogs) : Nat :=
  w.badKicks * 2 ^ 16 + b2n w.frozen * 16 + b2n w.backup * 8 + b2n w.next * 4 + (if w.stage2 then 2 else 1)

/-- TWIN.STATE.PAIR (R722). -/
def PairState.value : PairState → Nat
  | .unpaired => 0
  | .pairing => 1
  | .paired => 2
  | .mismatch => 3
  | .degraded => 4
  | .detached => 5

/-- PROOF_SLOT.OUTCOME (R755). -/
def Proof.value : Proof → Nat
  | .empty => 0
  | .pending => 1
  | .matched => 2
  | .mismatch => 3
  | .late => 4
  | .unchecked => 5
  | .error => 6

/-- SUSPECT of an outcome (R732). -/
def Proof.suspect : Proof → Bool
  | .mismatch => true
  | .late => true
  | .error => true
  | .empty => false
  | .pending => false
  | .matched => false
  | .unchecked => false

/-- PROOF_SLOT[s] (R732, R755). -/
def ProofSlot.word (x : ProofSlot) : Nat :=
  x.code * 2 ^ 24 + x.reason * 2 ^ 12 + b2n x.outcome.suspect * 2 ^ 8 + x.outcome.value

/-- PSTATE of partition `p` (R755). -/
def Chip.pstate (ch : Chip) (p : Nat) : Nat :=
  let t := ch.tp p
  b2n t.takeover * 128 + b2n t.provisional * 64 + b2n t.ckptValid * 32 + t.ckptSel * 16 + b2n t.ready * 8 + b2n t.intraDue * 4 +
  b2n (ch.servesPart p) * 2 + b2n (bitOf ch.loader.protectedMask p)

/-- TWIN.STATE (R755). -/
def Chip.twinState (ch : Chip) : Nat :=
  maskOf ch.servesPart * 2 ^ 16 + ch.loader.protectedMask * 2 ^ 8 + ch.loader.twinMode * 64 + ch.twin.pair.value * 8

/-- LINK.STATE.STATE (R715). -/
def LinkState.value : LinkState → Nat
  | .down => 0
  | .training => 1
  | .up => 2
  | .held => 3
  | .retraining => 4

/-- LINK.STATE (R715). -/
def Link.word (l : Link) (now : Nat) : Nat := min 255 l.episode * 2 ^ 16 + min 255 (l.retrainsNow now) * 2 ^ 8 + l.state.value

/-- BANK0 and BANK1 of POD.ARR_STATE (R486). -/
def BankState.value : BankState → Nat
  | .empty => 0
  | .fp32 => 1
  | .int32 => 2

/-- POD.ARR_STATE (R486). -/
def Pod.arrState (d : Pod) : Nat :=
  d.arrq.length * 2 ^ 16 + d.bank1.state.value * 2 ^ 10 + d.bank0.state.value * 2 ^ 8 +
  b2n (d.arrq.any fun q => q.2 && !q.1.onMac) * 2 + b2n (d.arrq.any fun q => q.2 && q.1.onMac)

/-- POD.SE_CTX_STATE.STATE (R585). -/
def CtxState.value : CtxState → Nat
  | .free => 0
  | .idle => 1
  | .running => 2
  | .persist => 3
  | .error => 4

/-- POD.SE_CTX_STATE[c] (R585). -/
def SeCtx.word (x : SeCtx) : Nat :=
  (if x.state == .error then x.code * 2 ^ 24 else 0) + x.owner * 2 ^ 16 + x.depth * 2 ^ 8 + x.state.value

/-- CU.STATE and TE.STATE (R634, R666). -/
def heldWord (owner : Option Nat) (busy : Bool) (gen : Nat) : Nat :=
  b2n owner.isSome * 2 ^ 31 + b2n busy * 2 ^ 30 + owner.getD 0 * 2 ^ 16 + gen

/-- CU.SESS_STATE.STATE (R635). -/
def SessState.value : SessState → Nat
  | .closed => 0
  | .enc => 1
  | .dec => 2
  | .error => 3

/-- CU.SESS_STATE[s] (R634). -/
def Session.word (x : Session) : Nat := x.err * 2 ^ 8 + x.state.value * 32 + min 31 x.spec.length

/-- The partition that holds a coder unit, a tree engine or a link. -/
def Chip.holderOf (ch : Chip) (mask : PartPlate → Nat) (u : Nat) : Option Nat :=
  ch.defined.find? fun p => bitOf (mask (ch.part p).plate) u

/-- CU.TABLE_BYTES: the bodies of the tables of the partition that holds the unit (R150, R633). -/
def Chip.tableBytes (ch : Chip) (u : Nat) : Nat :=
  match ch.holderOf PartPlate.cuMask u with
  | some p => ((ch.part p).tables.coder.map fun t => t.body.length).sum
  | none => 0

/-- The four built-in tables as bytes, in id order and in the entry layout of R145 (R527). -/
def builtinBytes : List Nat :=
  (List.range 4).flatMap fun id =>
    [id, 1, 0, 0] ++ (List.range 256).flatMap fun seg => (List.range 3).flatMap fun i => leBytes 4 (builtinCoef id seg i)

/-- SFU.PROGS (R505, R527). -/
def Chip.progs (ch : Chip) : Nat :=
  if !ch.loader.builtins then 0
  else (((List.range 64).filter fun n => n < 5 || ch.defined.any fun p => ((ch.part p).tables.burin.lookup n).isSome).map fun n => 2 ^ n).sum

/-- SFU.PART[p] (R529). -/
def Chip.sfuPart (ch : Chip) (p : Nat) : Nat :=
  if (ch.part p).isDefined then
    2 ^ 16 + 15 + (((List.range 16).filter fun n => 4 ≤ n && ((ch.part p).tables.sfuTable n).isSome).map fun n => 2 ^ n).sum
  else 0

/-- The synchronisation object `n`. -/
def Chip.syncObj (ch : Chip) (n : Nat) : Option SyncObj := ch.syncs.find? fun o => o.obj == n

/-- Channel `c`. -/
def Chip.chanOf (ch : Chip) (c : Nat) : Option Chan := ch.chans.find? fun x => x.id == c

/-- The words of SYNC[n], APPEND[r] and CHAN[c] (R452, R454, R455): 64-bit words of the groups. -/
def Chip.syncWord (ch : Chip) (off : Nat) : Nat :=
  if off < 0x4000 then
    let n := off / 16
    match ch.syncObj n with
    | some o =>
      if off % 16 == 0 then o.value + o.limit * 2 ^ 32
      else (min 255 o.waiters.length * 2 ^ 24 + 2 ^ 19 + o.part * 2 ^ 16 + o.kind) + o.gen * 2 ^ 32
    | none => if off % 16 == 0 then 0 else ch.idleGen 1 n * 2 ^ 32
  else if off < 0x4800 then
    let r := (off - 0x4000) / 32
    let x := ch.region r
    match off % 32 with
    | 0 => x.base
    | 8 => x.size
    | 16 => x.committed
    | _ => (b2n x.bound * 2 ^ 31 + (if x.bound then x.part * 2 ^ 16 else 0) + min 15 (ch.marksIn r)) + x.gen * 2 ^ 32
  else if 0x8000 ≤ off && off < 0x18000 then
    let c := (off - 0x8000) / 16
    match ch.chanOf c with
    | some x =>
      if off % 16 == 0 then (x.queue.length * 2 ^ 16 + x.credits) + (x.rxSeq * 2 ^ 16 + x.txSeq) * 2 ^ 32
      else x.gen + (2 ^ 31 + b2n (ch.isFenced x.dstCore) * 2 ^ 17 + b2n (ch.isFenced x.srcCore) * 2 ^ 16 + x.stale) * 2 ^ 32
    | none => if off % 16 == 0 then 0 else ch.idleGen 0 c
  else 0

/-! ## The 64-bit registers (R968) -/

/-- The debugged register that DBG_REGSEL selects (R386, R397). -/
def Core.debugRead (x : Core) : Nat :=
  let r := x.dbg.regsel % 256
  let w := bitsOf x.dbg.regsel 8 3
  if r < 0x20 then (x.getS r).toNat
  else if r < 0x40 then ((x.getV (r - 0x20)).toNat >>> (64 * w)) % 2 ^ 64
  else if r < 0x48 then (x.getP (r - 0x40)).toNat
  else if r == 0x50 then x.pc
  else if r == 0x51 then x.acw.toNat
  else 0

/-- The 8 bytes at DBG_MADDR, of the core's own store (R386). -/
def Chip.debugMem (ch : Chip) (k : Nat) : Nat := leNat (ch.see none (ch.core k).dbg.maddr 8)

/-- The 64-bit registers of CHIP (R961, R981). -/
def Chip.chip64 (ch : Chip) (o : Nat) : Option Nat :=
  if o == 0x20 then some (ch.time % 2 ^ 64)
  else (regIx o 0x110 8 6 0).map fun k => leAt ch.boot.fwDigest (8 * k) 8

/-- The 64-bit registers of STEWARD (R863, R983, R984). -/
def Chip.steward64 (ch : Chip) (o : Nat) : Option Nat :=
  let m := ch.mbox
  if o == 0x10 then some (b2n m.tmcValid * 2 ^ 63 + m.tmcService * 2 ^ 32 + m.tmcSeq * 2 ^ 16 + m.tmcArg)
  else if o == 0x4010 then some ch.bg.dramPos
  else ((regIx o 0x800 8 8 0).map fun _ => 0) <|> ((regIx o 0x4100 16 8 0).map fun p => ch.bg.takenUs.getD p 0)

/-- The 64-bit registers of PLATE (R186, R189, R190). -/
def Chip.plate64 (ch : Chip) (o : Nat) : Option Nat :=
  let l := ch.loader
  let up := l.baseDigest.length == 16
  match o with
  | 0x08 => some l.src
  | 0x20 => some l.result
  | 0x28 => some l.baseId
  | 0x30 => some (if up then leAt l.baseDigest 0 8 else 0)
  | 0x38 => some (if up then leAt l.baseDigest 8 8 else 0)
  | _ => none

/-- The 64-bit registers of PART[p]. -/
def Chip.part64 (ch : Chip) (p o : Nat) : Option Nat :=
  let q := ch.part p
  match o with
  | 0x18 => some (if q.isDefined then q.tickStart else 0)
  | 0x20 => some (if q.isDefined then q.admCycles else 0)
  | _ => none

/-- The 64-bit registers of EVT (R799, R841); the ring's registers read 0 before the scan. -/
def Chip.evt64 (ch : Chip) (o : Nat) : Option Nat :=
  let l := ch.ler
  let r := ch.rcv
  if o == 0x08 then some (if l.scanDone then l.newestSeq else 0)
  else if o == 0x20 then some (l.coalesced.getD 0 0 + l.coalesced.getD 1 0 * 2 ^ 16 + l.coalesced.getD 2 0 * 2 ^ 32 + l.coalesced.getD 3 0 * 2 ^ 48)
  else if o == 0x28 then some l.recentCount
  else if 0x40 ≤ o && o < 0x60 then some (bytesAt ((l.fatals.head?.map Entry.bytes).getD []) 0x40 o)
  else if 0x80 ≤ o && o < 0xC0 then
    match l.held[(o - 0x80) / 16]? with
    | some (seq, slot) => some (if !l.scanDone then 0 else if o % 16 == 0 then seq else 2 ^ 31 + slot)
    | none => some 0
  else if 0x1000 ≤ o && o < 0x1800 then some (bytesAt (l.recentBytes ((o - 0x1000) / 32)) (o / 32 * 32) o)
  else if o == 0x4008 then some r.violTotal
  else if 0x4100 ≤ o && o < 0x5100 then some (bytesAt (r.vlogBytes ((o - 0x4100) / 32)) (o / 32 * 32) o)
  else ((regIx o 0x5200 8 8 0).map fun p =>
      let q := ch.part p
      q.lastCore * 2 ^ 40 + b2n q.halted * 2 ^ 32 + min 0xFFFF q.partRecoveries * 2 ^ 16 + min 0xFFFF q.coreRecoveries) <|>
    ((regIx o 0x6000 8 8 0).map fun n => r.corrHbm.getD n 0)

/-- The 64-bit registers of TWIN (R754). -/
def Chip.twin64 (ch : Chip) (o : Nat) : Option Nat :=
  if o == 0x08 then some ch.twin.twinPlate
  else if o == 0x10 then some ch.twin.hbTime
  else if 0x100 ≤ o && o < 0x900 then
    let t := ch.tp ((o - 0x100) / 0x100)
    match o % 0x100 with
    | 0x08 => some t.proofAddr
    | 0x40 => some t.ckptList
    | 0x50 => some t.ckptDst
    | 0x58 => some t.ckptHalf
    | _ => none
  else none

/-- The 64-bit registers of LINK[n] (R714). -/
def Link.reg64 (l : Link) (o : Nat) : Option Nat :=
  match o with
  | 0x08 => some (l.farSerial + l.farChip * 2 ^ 48 + l.farLink * 2 ^ 56)
  | 0x10 => some l.replays
  | 0x20 => some l.fecCorrected
  | 0x28 => some l.crcErrors
  | 0x30 => some l.txBytes
  | 0x38 => some l.rxBytes
  | 0x100 => some l.coded
  | 0x108 => some l.escapes
  | 0x110 => some l.clipped
  | 0x118 => some l.rawBlocks
  | _ => none

/-- The 64-bit registers of POD[d] (R485, R555, R584). -/
def Pod.reg64 (d : Pod) (o : Nat) : Option Nat :=
  match o with
  | 0x18 => some d.mmaCount
  | 0x20 => some d.busyCycles
  | 0x100 => some d.seBytesRd
  | 0x108 => some d.seBytesWr
  | 0x110 => some d.seBytesRem
  | 0x118 => some d.seWait
  | _ => (regIx o 0x1000 0x20 32 0x10).map fun _ => 0

/-- The 64-bit registers of CORE[k] (R393). -/
def Chip.core64 (ch : Chip) (k o : Nat) : Option Nat :=
  let x := ch.core k
  match o with
  | 0x08 => some x.pc
  | 0x18 => some x.fault.pc
  | 0x20 => some x.fault.addr
  | 0x30 => some x.retired
  | 0x118 => some x.debugRead
  | 0x120 => some x.dbg.maddr
  | 0x128 => some (ch.debugMem k)
  | _ => ((regIx o 0x140 8 4 0).map fun n => x.dbg.bkpt.getD n 0) <|> ((regIx o 0x160 16 2 0).map fun n => x.dbg.wpt.getD n 0)

/-- The 64-bit registers of CU[u] (R633). -/
def CoderUnit.reg64 (x : CoderUnit) (o : Nat) : Option Nat :=
  match o with
  | 0x08 => some x.symbols
  | 0x10 => some x.bytesOut
  | 0x18 => some x.bytesIn
  | 0x20 => some x.raHits
  | 0x28 => some x.raRollbacks
  | _ => none

/-- The 64-bit registers of TE[u] (R666). -/
def TreeEngine.reg64 (x : TreeEngine) (o : Nat) : Option Nat :=
  match o with
  | 0x08 => some x.samples
  | 0x10 => some x.visits
  | 0x18 => some x.streamBytes
  | _ => none

/-- The 64-bit registers of SFU (R527). -/
def Chip.sfu64 (ch : Chip) (o : Nat) : Option Nat :=
  if o == 0x20 then some ch.progs
  else (regIx o 0 8 4 0).map fun k => if ch.loader.builtins then leAt (sha256 builtinBytes) (8 * k) 8 else 0

/-- The 64-bit registers of SYNC: BASE, SIZE and COMMITTED of APPEND[r] (R452). -/
def Chip.sync64 (ch : Chip) (o : Nat) : Option Nat :=
  if 0x4000 ≤ o && o < 0x4800 && o % 32 < 24 then some (ch.syncWord o) else none

/-- The 64-bit registers of HOSTQ (R940, R941). -/
def Chip.hostq64 (ch : Chip) (o : Nat) : Option Nat :=
  if o < 0x8000 then
    let r := ch.ring (o / 0x1000)
    match o % 0x1000 with
    | 0x00 => some r.cmdBase
    | 0x10 => some r.cplBase
    | 0x18 => some r.evtBase
    | 0x20 => some r.tlmBase
    | _ => none
  else if o == 0x8000 then some ch.host.chipEvtBase
  else if o == 0x9100 then some ch.host.bar4Base
  else (regIx o 0x9000 8 9 0).map fun f =>
    let e := ch.host.fnErr.getD f {}
    b2n e.valid * 2 ^ 63 + b2n e.multi * 2 ^ 62 + (e.offset % 2 ^ 40) * 2 ^ 16 + e.bar * 2 ^ 8 + e.code

/-- The value of the 64-bit register at an offset of a block; none where no 64-bit register stands there. -/
def Chip.reg64 (ch : Chip) (b : Block) (o : Nat) : Option Nat :=
  match b with
  | .chip => ch.chip64 o
  | .steward => ch.steward64 o
  | .plate => ch.plate64 o
  | .part p => ch.part64 p o
  | .wdg => if o == 0x28 then some ch.wdg.tripTime else none
  | .evt => ch.evt64 o
  | .pwr => if o == 0x28 then some ch.pwr.energyMj else none
  | .twin => ch.twin64 o
  | .link n => (ch.link n).reg64 o
  | .pod d => (ch.pod d).reg64 o
  | .core k => ch.core64 k o
  | .cu u => (ch.cu u).reg64 o
  | .te u => (ch.te u).reg64 o
  | .sfu => ch.sfu64 o
  | .sync => ch.sync64 o
  | .hostq => ch.hostq64 o

/-! ## The 32-bit registers; an unlisted offset reads 0 (R965) -/

/-- CHIP (R94, R95, R961, R962, R979, R980). -/
def Chip.chip32 (ch : Chip) (o : Nat) : Nat :=
  match o with
  | 0x00 => ch.variant.chipId
  | 0x04 => contractRev
  | 0x08 => ch.variant.cap0
  | 0x0C => ch.variant.cap1
  | 0x10 => ch.boot.straps
  | 0x100 => b2n ch.boot.released * 2 ^ 16 + ch.boot.fwSlot * 2 ^ 8 + ch.stageNow
  | 0x104 => ch.boot.cause.value
  | 0x108 => ch.boot.plateSlot * 16
  | 0x10C => ch.boot.fwVersion
  | _ => 0

/-- STEWARD (R863, R928, R929). -/
def Chip.steward32 (ch : Chip) (o : Nat) : Nat :=
  let m := ch.mbox
  match o with
  | 0x00 => ch.wdg.heartbeat
  | 0x0C => b2n m.done * 2 ^ 31 + b2n m.busy * 2 ^ 30 + b2n m.overrun * 2 ^ 29 + m.code * 2 ^ 8 + m.seq
  | 0x4000 => ch.bg.cfg
  | 0x4004 => ch.bg.cfg2
  | 0x4018 => ch.bg.passes
  | 0x401C => ch.bg.telemDropped
  | 0x4020 => ch.bg.overdue
  | _ =>
    if 0x1000 ≤ o && o < 0x2000 then leNat (Memory.bytes m.req (o - 0x1000) 4)
    else if 0x2000 ≤ o && o < 0x3000 then leNat (Memory.bytes m.rsp (o - 0x2000) 4)
    else ((regIx o 0x4100 16 8 8).map fun p => ch.bg.droppedUs.getD p 0).getD 0

/-- PLATE (R183, R187, R188). -/
def Chip.plate32 (ch : Chip) (o : Nat) : Nat :=
  match o with
  | 0x10 => ch.loader.len
  | 0x18 => maskOf (fun p => (ch.pendingOf p).isSome) * 2 ^ 8 + ch.loader.state.value
  | _ => 0

/-- PART[p] (R203 to R206, R238, R239). -/
def Chip.part32 (ch : Chip) (p o : Nat) : Nat :=
  let q := ch.part p
  if !q.isDefined then 0
  else match o with
    | 0x00 => q.cfg
    | 0x04 => q.plate.period
    | 0x08 => q.plate.budget
    | 0x0C => guardUs q.plate.period
    | 0x10 => shareUs q.plate.period q.plate.stipple
    | 0x14 => q.tickIndex
    | 0x28 => q.admUs
    | 0x2C => q.jobs.length
    | 0x30 => ch.status p
    | 0x34 => q.overruns
    | 0x3C => q.lastWork
    | _ => 0

/-- WDG (R797, R798). -/
def Chip.wdg32 (ch : Chip) (o : Nat) : Nat :=
  let w := ch.wdg
  match o with
  | 0x00 => b2n w.locked * 2 ^ 31 + w.periodMs
  | 0x08 => w.status
  | 0x0C => ceilDiv w.left 32
  | 0x10 => w.stwPeriodMs
  | 0x20 => b2n w.tripped * 2 ^ 31 + w.tripCause * 2 ^ 28 + w.woscHz
  | _ => 0

/-- EVT (R799, R841, R842). -/
def Chip.evt32 (ch : Chip) (o : Nat) : Nat :=
  let l := ch.ler
  let r := ch.rcv
  match o with
  | 0x00 => if l.scanDone then l.state else 0
  | 0x10 => if l.scanDone then l.bootCount else 0
  | 0x14 => l.lerCfg
  | 0x1C => l.fifoState
  | 0x30 => l.freezeLost
  | 0x4000 => r.overwritten * 2 ^ 16 + r.vlogHead
  | 0x5100 => r.reclaimCode * 2 ^ 16 + r.reclaimAgent
  | 0x5108 => r.stwRestarts
  | _ => ((regIx o 0x6100 4 64 0).map fun k => r.corrCore.getD k 0).getD 0

/-- PWR (R881, R892, R893). -/
def Chip.pwr32 (ch : Chip) (o : Nat) : Nat :=
  let w := ch.pwr
  match o with
  | 0x00 => b2n (w.fc != w.target) * 2 ^ 9 + b2n w.throttled * 2 ^ 8 + w.state.value
  | 0x04 => w.target * 2 ^ 16 + w.fc
  | 0x08 => w.share * 2 ^ 16 + ch.variant.maxShare * 2 ^ 8 + 60
  | 0x10 => b2n w.offerDone * 2 ^ 31 + b2n w.held.isSome * 2 ^ 30 + w.offerCode * 2 ^ 16 + w.offerPart * 2 ^ 8 + w.offerShare
  | 0x18 => w.idleDelay * 2 ^ 8 + b2n w.autoIdle
  | 0x20 => w.powerMw
  | 0x24 => w.stackTemp * 2 ^ 16 + w.dieTemp
  | _ => ((regIx o 0x100 4 19 0).map fun i => ch.variant.fcTable.getD i 0).getD 0

/-- TWIN (R754, R755). -/
def Chip.twin32 (ch : Chip) (o : Nat) : Nat :=
  if o < 0x100 then
    match o with
    | 0x00 => ch.twinState
    | 0x18 => ch.twin.takeovers
    | 0x1C => ch.twin.resetsSent
    | _ => 0
  else if o < 0x900 then
    let p := (o - 0x100) / 0x100
    let t := ch.tp p
    match o % 0x100 with
    | 0x00 => ch.pstate p
    | 0x10 => t.proofLen
    | 0x48 => t.ckptCount
    | 0x4C => t.ckptEvent
    | 0x60 => t.ckptTick
    | 0x64 => t.ckptSkips
    | 0x68 => t.mismatches
    | 0x6C => t.late
    | i => ((regIx i 0x20 4 8 0).map fun n => (ch.slot p n).word).getD 0
  else 0

/-- LINK[n] (R700, R714, R715). -/
def Chip.link32 (ch : Chip) (n o : Nat) : Nat :=
  let l := ch.link n
  match o with
  | 0x00 => l.word ch.time
  | 0x18 => l.retrains
  | 0x1C => l.downs
  | _ => if 0x400 ≤ o && o < 0x600 then grid8.getD ((o - 0x400) / 4) 0
    else if 0x600 ≤ o && o < 0x620 then grid4.getD ((o - 0x600) / 4) 0
    else 0

/-- POD[d] (R485, R486, R584, R585). -/
def Chip.pod32 (ch : Chip) (d o : Nat) : Nat :=
  let x := ch.pod d
  match o with
  | 0x00 => x.arrState
  | 0x08 => x.bank0.status
  | 0x0C => x.bank1.status
  | 0x10 => x.ostatus
  | 0x28 => x.duty
  | 0x200 => x.psCorrected
  | 0x300 => match ch.partOfPod d with
    | some p => let c := (ch.part p).carousel; b2n c.armed * 2 ^ 31 + c.ring.length * 2 ^ 16 + c.gen
    | none => 0
  | _ =>
    if 0x1000 ≤ o && o < 0x1400 then
      let c := ch.ctx d ((o - 0x1000) / 0x20)
      match o % 0x20 with
      | 0x00 => c.word
      | 0x04 => c.gen
      | 0x08 => c.head
      | 0x0C => c.tail
      | _ => 0
    else 0

/-- CORE[k] (R393 to R399). -/
def Chip.core32 (ch : Chip) (k o : Nat) : Nat :=
  let x := ch.core k
  let f := x.fault
  match o with
  | 0x00 => min 63 x.cq.length * 2 ^ 16 + min 63 x.outst.length * 2 ^ 8 + x.state.value
  | 0x10 => b2n f.valid * 2 ^ 31 + b2n f.imprecise * 2 ^ 30 + b2n f.multi * 2 ^ 29 + f.code * 2 ^ 16 + f.cause
  | 0x28 => x.wdgPeriod
  | 0x2C => x.wdgLeft
  | 0x104 => b2n (x.state == .debug) * 2 ^ 8 + x.dbg.index * 16 + x.dbg.reason
  | 0x108 => b2n x.dbg.partStop * 2 + b2n x.dbg.en
  | 0x110 => x.dbg.regsel
  | _ => ((regIx o 0x168 16 2 0).map fun n => x.dbg.wptCfg.getD n 0).getD 0

/-- CU[u] (R609, R633, R634). -/
def Chip.cu32 (ch : Chip) (u o : Nat) : Nat :=
  let x := ch.cu u
  match o with
  | 0x00 => heldWord x.owner (!x.q.isEmpty) x.gen
  | 0x30 => ch.tableBytes u
  | _ =>
    if 0x100 ≤ o && o < 0x180 then
      let i := x.sess.getD ((o - 0x100) / 16) {}
      match o % 16 with
      | 0 => i.word
      | 4 => i.pos % 2 ^ 32
      | 8 => i.clamped % 2 ^ 32
      | _ => 0
    else if 0x204 ≤ o && o < 0x300 then thresholds.getD ((o - 0x204) / 4) 0
    else 0

/-- TE[u] (R666, R667). -/
def Chip.te32 (ch : Chip) (u o : Nat) : Nat :=
  let x := ch.te u
  match o with
  | 0x00 => heldWord x.owner (!x.q.isEmpty) x.gen
  | 0x04 => x.status
  | 0x20 => 0x800000
  | _ => 0

/-- SFU (R523, R527, R529). -/
def Chip.sfu32 (ch : Chip) (o : Nat) : Nat :=
  if 0x1000 ≤ o && o < 0x1400 then
    let x := ch.core ((o - 0x1000) / 16)
    match o % 16 with
    | 0 => min 127 x.rowq.length * 2 ^ 16 + b2n (!x.rowq.isEmpty)
    | 4 => x.rowStatus
    | _ => 0
  else ((regIx o 0x100 8 8 0).map fun p => ch.sfuPart p).getD 0

/-- HOSTQ (R940, R941). -/
def Chip.hostq32 (ch : Chip) (o : Nat) : Nat :=
  if o < 0x8000 then
    let r := ch.ring (o / 0x1000)
    match o % 0x1000 with
    | 0x08 => r.sizes
    | 0x0C => r.cplMod * 2 ^ 16 + r.en
    | 0x28 => r.errCode * 2 ^ 24 + r.err
    | 0x30 => r.cmdCons
    | 0x34 => r.cplProd
    | 0x38 => r.evtProd
    | 0x3C => r.tlmProd
    | 0x40 => r.droppedCpl * 2 ^ 16 + r.droppedEvt
    | _ => 0
  else match o with
    | 0x8008 => ch.host.chipEvtCtrl
    | 0x8010 => ch.host.chipEvtProd
    | _ => 0

/-- The value of the 32-bit register at an offset of a block, 0 where none stands. -/
def Chip.reg32 (ch : Chip) (b : Block) (o : Nat) : Nat :=
  match b with
  | .chip => ch.chip32 o
  | .steward => ch.steward32 o
  | .plate => ch.plate32 o
  | .part p => ch.part32 p o
  | .wdg => ch.wdg32 o
  | .evt => ch.evt32 o
  | .pwr => ch.pwr32 o
  | .twin => ch.twin32 o
  | .link n => ch.link32 n o
  | .pod d => ch.pod32 d o
  | .core k => ch.core32 k o
  | .cu u => ch.cu32 u o
  | .te u => ch.te32 u o
  | .sfu => ch.sfu32 o
  | .sync => bitsOf (ch.syncWord (o / 8 * 8)) (o % 8 * 8) 32
  | .hostq => ch.hostq32 o

/-- The offset lies in a 64-bit register (R968). -/
def Chip.wide (ch : Chip) (b : Block) (o : Nat) : Bool := (ch.reg64 b (o / 8 * 8)).isSome

/-- The 32 bits at an offset of a block. -/
def Chip.half (ch : Chip) (b : Block) (o : Nat) : Nat :=
  match ch.reg64 b (o / 8 * 8) with
  | some v => bitsOf v (o % 8 * 8) 32
  | none => ch.reg32 b o % 2 ^ 32

/-! ## Absent units and undefined instances (R97, R99, R978) -/

/-- The registers at an offset read 0 and ignore writes. -/
def Chip.regAbsent (ch : Chip) (b : Block) (o : Nat) : Bool :=
  let noPart (p : Nat) : Bool := ch.variant.maxParts ≤ p
  let noCore (k : Nat) : Bool := Nat.ble ch.variant.pods (podOf k) || Nat.ble ch.variant.cores k
  let within (base n stride : Nat) (f : Nat → Bool) : Bool := base ≤ o && o < base + n * stride && f ((o - base) / stride)
  match b with
  | .pod d => ch.variant.pods ≤ d
  | .core k => noCore k
  | .cu u => ch.variant.cus ≤ u
  | .te u => ch.variant.tes ≤ u
  | .link n => ch.variant.links ≤ n
  | .part p => noPart p
  | .sfu => within 0x1000 64 16 noCore || within 0x100 8 8 noPart
  | .evt => within 0x6100 64 4 noCore || within 0x6000 8 8 (fun n => ch.variant.stacks ≤ n) || within 0x5200 8 8 noPart
  | .twin => within 0x100 8 0x100 noPart
  | .hostq => within 0 8 0x1000 noPart || within 0x9008 8 8 noPart
  | .steward => within 0x4100 8 16 noPart
  | _ => false

/-! ## Who may read (R110, R966 step 4, R976) -/

abbrev agSTEWARD : Nat := 0x70
abbrev agLOADER : Nat := 0x71
abbrev agPF : Nat := 0x80
abbrev agSB : Nat := 0x90
abbrev agTAP : Nat := 0x91

/-- The side-band and, like it, the test access port (R110, R975). -/
def isSb (a : Nat) : Bool := a == agSB || a == agTAP

/-- The steward and the plate loader (R976). -/
def isInner (a : Nat) : Bool := a == agSTEWARD || a == agLOADER

/-- A core or a stream engine. -/
def isFabric (a : Nat) : Bool := a < 0x48

/-- A virtual function. -/
def isVf (a : Nat) : Bool := 0x88 ≤ a && a < 0x90

/-- The partition of a requester: of a core, a pod's engines, or a virtual function (R762). -/
def Chip.agentPart (ch : Chip) (a : Nat) : Option Nat :=
  if a < 0x40 then ch.partOfCore a
  else if a < 0x48 then ch.partOfPod (a - 0x40)
  else if isVf a then some (a - 0x88)
  else none

/-- The partition that holds what stands at an offset of a block: `some none` is held by none; `none`, open to all. -/
def Chip.regHolder (ch : Chip) (b : Block) (o : Nat) : Option (Option Nat) :=
  match b with
  | .part p => some (some p)
  | .link n => some (ch.holderOf PartPlate.linkMask n)
  | .pod d => some (ch.partOfPod d)
  | .core k => some (ch.partOfCore k)
  | .cu u => if 0x200 ≤ o && o < 0x300 then none else some (ch.holderOf PartPlate.cuMask u)
  | .te u => some (ch.holderOf PartPlate.teMask u)
  | .sfu => if 0x1000 ≤ o && o < 0x1400 then some (ch.partOfCore ((o - 0x1000) / 16))
    else if 0x100 ≤ o && o < 0x140 then some (some ((o - 0x100) / 8))
    else none
  | .sync => if o < 0x4000 then some ((ch.syncObj (o / 16)).map SyncObj.part)
    else if o < 0x4800 then (let r := ch.region ((o - 0x4000) / 32); some (if r.bound then some r.part else none))
    else if 0x8010 ≤ o then some ((ch.chanOf ((o - 0x8000) / 16)).map Chan.part)
    else none
  | .twin => if 0x100 ≤ o && o < 0x900 then some (some ((o - 0x100) / 0x100)) else none
  | .evt => some (if 0x5200 ≤ o && o < 0x5240 then some ((o - 0x5200) / 8) else none)
  | _ => none

/-- A requester of the partition that holds the register. -/
def Chip.holds (ch : Chip) (a : Nat) (b : Block) (o : Nat) : Bool :=
  match ch.regHolder b o with
  | none => true
  | some none => false
  | some (some p) => ch.agentPart a == some p

/-- The function number of a host agent. -/
def fnOf (a : Nat) : Nat := if a == agPF then 0 else a - 0x87

/-- The agent owns the rings of partition `p` (R899). -/
def Chip.ownsRings (ch : Chip) (a p : Nat) : Bool := (a == agPF || isVf a) && fnOf a == ch.ownerFn p

/-- The agent may read the register at an offset of a block. -/
def Chip.mayRead (ch : Chip) (a : Nat) (b : Block) (o : Nat) : Bool :=
  if isInner a || isSb a then true
  else match b with
    | .steward =>
      if o == 0x10 || o == 0x14 || (0x800 ≤ o && o < 0x840) then false
      else if o == 0x08 || o == 0x0C || (0x1000 ≤ o && o < 0x3000) then a == agPF
      else true
    | .hostq =>
      if o < 0x8000 then a == agPF || ch.ownsRings a (o / 0x1000)
      else a == agPF || (isVf a && 0x9000 ≤ o && o < 0x9048 && (o - 0x9000) / 8 == fnOf a)
    | _ => a == agPF || ch.holds a b o

end Sys2Proof.Machine
end

