-- ==== Sys2Proof/Machine/Debug.lean ====
section
/-! DEFINITION. The debugger's operations on cores: halt, resume, step, and access to their registers and stores (R381 to R387,
R395 to R399). -/
namespace Sys2Proof.Machine

/-- The core runs or waits. -/
def Core.active (x : Core) : Bool := x.state == .running || x.state == .waiting

/-- HALT of core `k`: at once where it runs or waits, and held for its next instruction where it does not (R383, R384). -/
def Chip.dbgHalt (ch : Chip) (k : Nat) : Chip :=
  let x := ch.core k
  if x.active then ch.haltCore k 1 0
  else if x.state == .debug then ch
  else ch.modCore k fun y => { y with dbg := { y.dbg with request := true } }

/-- Core `k` leaves DEBUG; its limits go on with what they had left, and a wait whose end has come ends (R381, R383). `step` makes
it halt again after one instruction (R387). -/
def Chip.dbgResume (ch : Chip) (k : Nat) (step : Bool) : Chip :=
  let x := ch.core k
  if x.state != .debug then ch
  else
    let d := (ch.heldSince (ch.partNo k)).getD ch.time - x.dbg.since
    let go := x.dbg.resumeTo == .running || x.dbg.resumeTo == .waiting
    let a : Chip := { ch with remotes := ch.remotes.map fun r => if r.core? == some k then { r with since := r.since + d } else r }
    (a.modCore k fun y => { y with
      state := y.dbg.resumeTo
      wait := y.wait.map (Wait.shift d)
      dbg := { y.dbg with skip := go, stepping := step && go } }).poke k

/-- HALT_PART: every running or waiting core of the partition of core `k` is halted (R396). -/
def Chip.dbgHaltPart (ch : Chip) (k : Nat) : Chip :=
  ch.forEach ((ch.coresOf (ch.partNo k)).filter fun j => (ch.core j).active) fun j a => a.debugHalt j 2 0

/-- RESUME_PART: the cores of the partition that a partition halt stopped resume together, and core `k` with them (R385, R396). -/
def Chip.dbgResumePart (ch : Chip) (k : Nat) : Chip :=
  ch.forEach ((ch.coresOf (ch.partNo k)).filter fun j => j == k || (ch.core j).dbg.reason == 2) fun j a => a.dbgResume j false

/-- A write to CORE.DBG_CTRL of core `k`: its bits from the lowest to the highest (R396). -/
def Chip.dbgCtrl (ch : Chip) (k v : Nat) : Chip :=
  let a0 := if bitOf v 0 then ch.dbgHalt k else ch
  let a1 := if bitOf v 1 then a0.dbgResume k false else a0
  let a2 := if bitOf v 2 then a1.dbgResume k true else a1
  let a3 := if bitOf v 3 then a2.dbgHaltPart k else a2
  if bitOf v 4 then a3.dbgResumePart k else a3

/-- CORE.DBG_REGSEL names a register (R397). -/
def regselOk (v : Nat) : Bool :=
  let r := v % 256
  r < 0x48 || r == 0x50 || r == 0x51

/-- A write to CORE.DBG_REGDATA: the register that DBG_REGSEL selects (R386, R397); ACW as its fields are accessed (R15, R288), none
where the value puts a reserved mode into it (R289, R966). -/
def Core.debugWrite (x : Core) (v : Nat) : Option Core :=
  let r := x.dbg.regsel % 256
  let sh := 64 * bitsOf x.dbg.regsel 8 3
  if r < 0x20 then some (x.setS r (BitVec.ofNat 64 v))
  else if r < 0x40 then
    let old := (x.getV (r - 0x20)).toNat
    some (x.setV (r - 0x20) (BitVec.ofNat 512 (old - bitsOf old sh 64 * 2 ^ sh + v % 2 ^ 64 * 2 ^ sh)))
  else if r < 0x48 then some (x.setP (r - 0x40) (BitVec.ofNat 64 v))
  else if r == 0x50 then some { x with pc := v % 0x40000 }
  else (acwWrite x.acw (BitVec.ofNat 64 v)).map fun a => { x with acw := a, late := 0 }

/-- The code of an access to DBG_REGDATA or DBG_MDATA at offset `o` of core `k`, 0 at any other offset (R386): only while it neither
runs nor waits; 8 bytes of its own store; a line that cannot be corrected (R81). -/
def Chip.debugCode (ch : Chip) (k o : Nat) (write : Bool) : Nat :=
  let a := (ch.core k).dbg.maddr
  let reg := o / 8 * 8
  if reg != 0x118 && reg != 0x128 then cOK
  else if (ch.core k).active then cBUSY
  else if reg == 0x118 then cOK
  else if a < coreBase k || coreBase (k + 1) < a + 8 then cBOUNDS
  else if write then ch.writeCode a 8 else ch.readCode a 8

end Sys2Proof.Machine
end

