-- ==== Sys2Proof/Machine/Regs.lean ====
section
/-! DEFINITION. Register accesses: the checks in their order, the effect of a write on every writable register, reads, and how each
requester learns the outcome (R15 to R17, R90, R91, R101, R102, R107, R108, R110, R161, R181, R241, R382, R391, R484, R488, R555,
R716, R754, R780, R782, R797 to R799, R836, R841, R842, R863, R864, R892, R893, R899, R902, R905, R908, R909, R912, R928 to R931,
R940, R941, R961, R962, R964 to R978, R982 to R984). -/
namespace Sys2Proof.Machine

/-! ## Who may write -/

/-- The physical function, the side-band and the test access port. -/
def isPfSb (a : Nat) : Bool := a == agPF || isSb a

/-- A write that only a permitted requester makes. -/
def permitted (ok : Bool) (r : Except Nat Chip) : Except Nat Chip := if ok then r else .error cPERM

/-- A write whose value is in bounds. -/
def inBounds (ok : Bool) (r : Except Nat Chip) : Except Nat Chip := if ok then r else .error cBOUNDS

/-- A write that answers a code and a chip. -/
def coded (r : Chip × Nat) : Except Nat Chip := if r.2 == cOK then .ok r.1 else .error r.2

/-- Writes that the test access port may not make (R975). -/
def tapBarred (b : Block) (o v : Nat) : Bool :=
  match b with
  | .chip => o == 0x108
  | .evt => o == 0x34
  | .pwr => o == 0x0C || (o == 0x14 && v % 4 == 3)
  | .steward => 0x800 ≤ o && o < 0x840
  | _ => false

/-- The fields of `v` that `mask` keeps. -/
abbrev keep (v mask : Nat) : Nat := v &&& mask

/-! ## The writable 32-bit registers, block by block -/

/-- CHIP (R90, R961). -/
def Chip.chipWrite (ch : Chip) (a o v : Nat) : Except Nat Chip :=
  if o == 0x108 then permitted (isSb a) (coded (ch.bootCtrl v))
  else permitted (!isFabric a) (.ok ch)

/-- STEWARD (R101, R863, R864, R928, R929, R931). -/
def Chip.stewardWrite (ch : Chip) (a o v : Nat) : Except Nat Chip :=
  let m := ch.mbox
  match o with
  | 0x00 => permitted (isInner a || isSb a) (.ok ch)
  | 0x08 => permitted (a == agPF) (.ok (if bitOf v 0 then ch.mbGo else ch))
  | 0x0C => permitted (a == agPF) (.ok { ch with mbox := { m with done := m.done && !bitOf v 31, overrun := m.overrun && !bitOf v 29 } })
  | 0x4000 => permitted (isPfSb a) (inBounds
      (6 ≤ bitsOf v 24 8 && bitsOf v 24 8 ≤ 168 && 1 ≤ bitsOf v 20 4 && bitsOf v 20 4 ≤ 10 && 1 ≤ bitsOf v 8 8 && bitsOf v 8 8 ≤ 100 &&
       1 ≤ bitsOf v 4 4 && 1 ≤ bitsOf v 0 4)
      (.ok { ch with bg := { ch.bg with cfg := keep v 0xFFF0FFFF } }))
  | 0x4004 => permitted (isPfSb a) (inBounds (5 ≤ bitsOf v 8 8 && bitsOf v 8 8 ≤ 50)
      (.ok { ch with bg := { ch.bg with cfg2 := keep v 0xFFFF } }))
  | _ =>
    if 0x1000 ≤ o && o < 0x2000 then
      permitted (a == agPF) (.ok (if m.busy then ch else { ch with mbox := { m with req := Memory.write m.req (o - 0x1000) (leBytes 4 v) } }))
    else .ok ch

/-- PLATE (R161, R183, R187). -/
def Chip.plateWrite (ch : Chip) (a o v : Nat) : Except Nat Chip :=
  permitted (isPfSb a) (match o with
    | 0x00 => coded (ch.plateCtrl v)
    | 0x10 => .ok { ch with loader := { ch.loader with len := keep v 0xFFFFFF } }
    | _ => .ok ch)

/-- PART[p] (R196, R239 to R241). -/
def Chip.partWrite (ch : Chip) (a p o v : Nat) : Except Nat Chip :=
  if o == 0x30 then permitted (isPfSb a) (.ok (ch.modPart p fun q => { q with overrunBit := q.overrunBit && !bitOf v 0 }))
  else if o == 0x38 then permitted (isPfSb a) (.ok (ch.modPart p fun q => { q with overruns := if bitOf v 0 then 0 else q.overruns }))
  else permitted (isInner a || isPfSb a || ch.holds a (.part p) o) (.ok ch)

/-- WDG (R782, R787, R788, R797, R804). -/
def Chip.wdgWrite (ch : Chip) (a o v : Nat) : Except Nat Chip :=
  let stw := a == agSTEWARD
  permitted (isInner a || isSb a) (match o with
    | 0x00 => coded (ch.wdgPeriod v)
    | 0x04 => permitted stw (.ok (ch.wdgKick v))
    | 0x14 => permitted stw (.ok ch.stwKick)
    | 0x18 => if !isSb a then .error cPERM
      else inBounds (v % 4 != 3) (.ok (if bitOf v 0 then ch.stwHalt else if bitOf v 1 then ch.stwResume else ch))
    | _ => .ok ch)

/-- EVT (R780, R799, R836, R840 to R842). -/
def Chip.evtWrite (ch : Chip) (a o v : Nat) : Except Nat Chip :=
  match o with
  | 0x14 => permitted (isPfSb a) (inBounds (bitsOf v 8 8 != 0) (.ok { ch with ler := { ch.ler with lerCfg := keep v 0xFF03 } }))
  | 0x18 =>
    let b := if bitOf v 1 then ch.lerFlush else ch
    permitted (isPfSb a) (.ok (if bitOf v 0 then b.lerRelease a else b))
  | 0x34 => permitted (isSb a) (.ok (if bitOf v 0 then ch.fatalAck else ch))
  | 0x4004 => permitted (isPfSb a)
      (.ok (if bitOf v 0 then { ch with rcv := { ch.rcv with vlog := [], vlogHead := 0, overwritten := 0 } } else ch))
  | 0x5100 => permitted (a == agSTEWARD || isSb a) (.ok (ch.reclaimOp (bitsOf v 8 2) (bitsOf v 0 8)))
  | _ => .ok ch

/-- PWR (R882, R883, R892, R893). -/
def Chip.pwrWrite (ch : Chip) (a o v : Nat) : Except Nat Chip :=
  match o with
  | 0x0C => permitted (isSb a) (match bitsOf v 30 2 with
    | 1 => .ok (ch.offerWrite (bitsOf v 0 8))
    | 2 => .ok ch.commitShare
    | 3 => .ok ch.abandonShare
    | _ => .error cBOUNDS)
  | 0x14 => permitted (isPfSb a) (match v % 4 with
    | 1 => .ok ch.ctrlActive
    | 2 => coded ch.ctrlStandby
    | 3 => permitted (isSb a) (coded ch.ctrlDormant)
    | _ => .ok ch)
  | 0x18 => permitted (isPfSb a) (inBounds (bitsOf v 8 8 != 0)
      (.ok { ch with pwr := { ch.pwr with idleDelay := bitsOf v 8 8, autoIdle := bitOf v 0 } }))
  | _ => .ok ch

/-- TWIN.CTRL (R745 to R749, R755). -/
def Chip.twinCtrl (ch : Chip) (v : Nat) : Except Nat Chip :=
  let mask := bitsOf v 8 8
  match v % 8 with
  | 0 => .ok ch
  | 1 => .ok ch.detachCtrl
  | 2 => coded ch.rejoinCtrl
  | 3 => .ok (ch.switchCtrl mask)
  | 4 => .ok (ch.confirmCtrl mask)
  | 5 => .ok (ch.relinquishCtrl mask)
  | _ => .error cBOUNDS

/-- The requester may write TWIN.PART[p] (R754). -/
def Chip.mayTwinPart (ch : Chip) (a p : Nat) : Bool := isPfSb a || ch.agentPart a == some p

/-- TWIN (R754, R755). -/
def Chip.twinWrite (ch : Chip) (a o v : Nat) : Except Nat Chip :=
  if o == 0x04 then permitted (isPfSb a) (ch.twinCtrl v)
  else if 0x100 ≤ o && o < 0x900 then
    let p := (o - 0x100) / 0x100
    permitted (ch.mayTwinPart a p) (match o % 0x100 with
      | 0x10 => .ok (ch.modTp p fun t => { t with proofLen := v })
      | 0x14 => .ok (ch.proofGo p v)
      | 0x48 => inBounds (v ≤ 64) (.ok (ch.modTp p fun t => { t with ckptCount := v }))
      | 0x4C => inBounds (v < 1024 || v == 0xFFFF) (.ok (ch.modTp p fun t => { t with ckptEvent := v }))
      | _ => .ok ch)
  else .ok ch

/-- A unit block: a write by a requester of another partition is refused, and a read-only register ignores the others (R89, R485). -/
def Chip.unitWrite (ch : Chip) (a : Nat) (b : Block) (o : Nat) : Except Nat Chip := permitted (isInner a || isPfSb a || ch.holds a b o) (.ok ch)

/-- LINK[n] (R716). -/
def Chip.linkWrite (ch : Chip) (a n o v : Nat) : Except Nat Chip :=
  if o == 0x04 then
    let b := if bitOf v 1 then ch.forceDown n else ch
    permitted (isPfSb a) (.ok (if bitOf v 0 then b.ctrlRetrain n else b))
  else ch.unitWrite a (.link n) o

/-- A requester that expert_unlock of partition `p` gates is shut out (R181). -/
def Chip.gated (ch : Chip) (a p : Nat) : Bool := ch.agentPart a == some p && !(ch.part p).expert

/-- POD[d] (R484, R488). -/
def Chip.podWrite (ch : Chip) (a d o v : Nat) : Except Nat Chip :=
  if o == 0x28 then
    let mine := match ch.partOfPod d with
      | some p => (a < 0x40 || isVf a) && ch.agentPart a == some p && !ch.gated a p
      | none => false
    permitted (isPfSb a || mine) (inBounds (bitsOf v 0 5 ≤ 16) (.ok (ch.modPod d fun x => { x with duty := bitsOf v 0 5 })))
  else ch.unitWrite a (.pod d) o

/-- The debug registers and CORE.FAULT of core `k`, 32 bits wide (R382, R395 to R397, R399). -/
def Chip.coreWrite (ch : Chip) (a k o v : Nat) : Except Nat Chip :=
  let set := fun (f : CoreDbg → CoreDbg) => Except.ok (ε := Nat) (ch.modCore k fun x => { x with dbg := f x.dbg })
  match o with
  | 0x10 => permitted (isPfSb a) (.ok (if bitOf v 31 then ch.modCore k fun x => { x with fault := {} } else ch))
  | 0x100 => permitted (isPfSb a) (.ok (ch.dbgCtrl k v))
  | 0x108 => permitted (isPfSb a) (set fun d => { d with partStop := bitOf v 1, en := bitOf v 0 })
  | 0x110 => permitted (isPfSb a) (inBounds (regselOk v) (set fun d => { d with regsel := keep v 0x7FF }))
  | _ =>
    match regIx o 0x168 16 2 0 with
    | some i => permitted (isPfSb a) (inBounds (bitsOf v 4 4 ≤ 12) (set fun d => { d with wptCfg := d.wptCfg.set i (keep v 0x800000F3) }))
    | none => ch.unitWrite a (.core k) o

/-- Bounds of a ring's log2 of entries (R908, R941). -/
def ringLogOk (sizes i : Nat) : Bool :=
  match i with
  | 0 => 4 ≤ bitsOf sizes 0 4 && bitsOf sizes 0 4 ≤ 12
  | 1 => 6 ≤ bitsOf sizes 12 5 && bitsOf sizes 12 5 ≤ 16
  | 2 => 6 ≤ bitsOf sizes 20 5 && bitsOf sizes 20 5 ≤ 16
  | _ => 4 ≤ bitsOf sizes 28 4 && bitsOf sizes 28 4 ≤ 12

/-- Ring `i` of a partition is enabled: its counters are 0 and it leaves ERROR (R909, R912). -/
def Rings.enable (r : Rings) (i : Nat) : Rings :=
  let r1 : Rings := { r with err := keep r.err (0xF - 2 ^ i) }
  let r2 := { r1 with errCode := if r1.err == 0 then 0 else r1.errCode }
  match i with
  | 0 => { r2 with cmdTail := 0, cmdCons := 0, fetched := [] }
  | 1 => { r2 with cplProd := 0, cplHead := 0 }
  | 2 => { r2 with evtProd := 0, evtHead := 0 }
  | _ => { r2 with tlmProd := 0, tlmHead := 0 }

/-- A write to HOSTQ.Q[p].CTRL (R909, R912, R923, R941). -/
def Chip.ringCtrl (ch : Chip) (p v : Nat) : Except Nat Chip :=
  let r := ch.ring p
  let up := (List.range 4).filter fun i => bitOf v i && !r.on i
  if up.any fun i => !ringLogOk r.sizes i then .error cBOUNDS
  else
    let drop := if r.on 1 && !bitOf v 1 then r.waiting.length else 0
    let a := ch.modRing p fun x =>
      let y := up.foldl Rings.enable x
      { y with en := keep v 0xF, cplMod := bitsOf v 16 10, waiting := if drop == 0 then y.waiting else [] }
    .ok (a.forEach (List.range drop) fun _ b => b.dropCpl p)

/-- A field of HOSTQ.Q[p].SIZES changes only while its ring is not enabled (R908). -/
def Rings.sizesBusy (r : Rings) (v : Nat) : Bool :=
  (r.on 0 && bitsOf v 0 4 != bitsOf r.sizes 0 4) || (r.on 1 && bitsOf v 12 5 != bitsOf r.sizes 12 5) ||
  (r.on 2 && bitsOf v 20 5 != bitsOf r.sizes 20 5) || (r.on 3 && bitsOf v 28 4 != bitsOf r.sizes 28 4)

/-- A write to HOSTQ.CHIP.EVT_CTRL (R908, R909, R940). -/
def Chip.chipRingCtrl (ch : Chip) (v : Nat) : Except Nat Chip :=
  let h := ch.host
  let on := bitOf h.chipEvtCtrl 0
  let new := keep v 0x1F01
  let up := bitOf v 0 && !on
  if on && bitOf v 0 && bitsOf v 8 5 != bitsOf h.chipEvtCtrl 8 5 then .error cBUSY
  else if up && !(6 ≤ bitsOf v 8 5 && bitsOf v 8 5 ≤ 16) then .error cBOUNDS
  else if up then .ok { ch with host := { h with chipEvtCtrl := new, chipEvtProd := 0, chipEvtHead := 0, chipEvtErr := false } }
  else .ok { ch with host := { h with chipEvtCtrl := new } }

/-- HOSTQ, 32 bits wide (R899, R940, R941). -/
def Chip.hostqWrite (ch : Chip) (a o v : Nat) : Except Nat Chip :=
  if o < 0x8000 then
    let p := o / 0x1000
    permitted (ch.ownsRings a p) (match o % 0x1000 with
      | 0x08 => if (ch.ring p).sizesBusy v then .error cBUSY else .ok (ch.modRing p fun r => { r with sizes := keep v 0xF1F1F00F })
      | 0x0C => ch.ringCtrl p v
      | _ => .ok ch)
  else permitted (isPfSb a || isInner a) (if o == 0x8008 then ch.chipRingCtrl v else .ok ch)

/-- A write of 32 bits to the register at offset `o` of a block, by agent `a`: the code that refuses it, or the chip after it. -/
def Chip.write32 (ch : Chip) (a : Nat) (b : Block) (o v : Nat) : Except Nat Chip :=
  match b with
  | .chip => ch.chipWrite a o v
  | .steward => ch.stewardWrite a o v
  | .plate => ch.plateWrite a o v
  | .part p => ch.partWrite a p o v
  | .wdg => ch.wdgWrite a o v
  | .evt => ch.evtWrite a o v
  | .pwr => ch.pwrWrite a o v
  | .twin => ch.twinWrite a o v
  | .link n => ch.linkWrite a n o v
  | .pod d => ch.podWrite a d o v
  | .core k => ch.coreWrite a k o v
  | .cu u => ch.unitWrite a (.cu u) o
  | .te u => ch.unitWrite a (.te u) o
  | .sfu => ch.unitWrite a .sfu o
  | .sync => ch.unitWrite a .sync o
  | .hostq => ch.hostqWrite a o v

/-! ## The writable 64-bit registers -/

/-- A ring's base: 4 KiB aligned, and written only while the ring is not enabled (R908). -/
def Chip.ringBase (ch : Chip) (p i v : Nat) (f : Rings → Rings) : Except Nat Chip :=
  if (ch.ring p).on i then .error cBUSY else inBounds (v % 4096 == 0) (.ok (ch.modRing p f))

/-- HOSTQ, 64 bits wide (R902, R908, R940, R941). -/
def Chip.hostqWide (ch : Chip) (a o v : Nat) : Except Nat Chip :=
  if o < 0x8000 then
    let p := o / 0x1000
    permitted (ch.ownsRings a p) (match o % 0x1000 with
      | 0x00 => ch.ringBase p 0 v fun r => { r with cmdBase := v }
      | 0x10 => ch.ringBase p 1 v fun r => { r with cplBase := v }
      | 0x18 => ch.ringBase p 2 v fun r => { r with evtBase := v }
      | 0x20 => ch.ringBase p 3 v fun r => { r with tlmBase := v }
      | _ => .ok ch)
  else match o with
    | 0x8000 => permitted (isPfSb a) (
        if bitOf ch.host.chipEvtCtrl 0 then .error cBUSY
        else inBounds (v % 4096 == 0) (.ok { ch with host := { ch.host with chipEvtBase := v } }))
    | 0x9100 => permitted (isPfSb a) (
        if v % 2 ^ ch.host.pfBar4 == 0 then .ok { ch with host := { ch.host with bar4Base := v } } else .error cALIGN)
    | _ => match regIx o 0x9000 8 9 0 with
      | some f => permitted (isPfSb a || (isVf a && fnOf a == f))
          (.ok (if bitOf v 63 then { ch with host := { ch.host with fnErr := ch.host.fnErr.set f {} } } else ch))
      | none => .ok ch

/-- The debug registers of core `k`, 64 bits wide (R382, R386, R398). -/
def Chip.coreWide (ch : Chip) (a k o v : Nat) : Except Nat Chip :=
  let set := fun (f : CoreDbg → CoreDbg) => Except.ok (ε := Nat) (ch.modCore k fun x => { x with dbg := f x.dbg })
  let code := ch.debugCode k o true
  match o with
  | 0x118 => permitted (isPfSb a) (if code != cOK then .error code else match (ch.core k).debugWrite v with
    | some x => .ok (ch.modCore k fun _ => x)
    | none => .error cBOUNDS)
  | 0x120 => permitted (isPfSb a) (set fun d => { d with maddr := v })
  | 0x128 => permitted (isPfSb a) (if code != cOK then .error code else .ok (ch.plainStore (ch.core k).dbg.maddr (leBytes 8 v)))
  | _ => match regIx o 0x140 8 4 0, regIx o 0x160 16 2 0 with
    | some i, _ => permitted (isPfSb a) (set fun d => { d with bkpt := d.bkpt.set i (keep v (2 ^ 63 + 0x3FFF8)) })
    | _, some i => permitted (isPfSb a) (set fun d => { d with wpt := d.wpt.set i (v % 2 ^ 40) })
    | _, _ => ch.unitWrite a (.core k) o

/-- TWIN, 64 bits wide (R754). -/
def Chip.twinWide (ch : Chip) (a o v : Nat) : Except Nat Chip :=
  if 0x100 ≤ o && o < 0x900 then
    let p := (o - 0x100) / 0x100
    permitted (ch.mayTwinPart a p) (match o % 0x100 with
      | 0x08 => .ok (ch.modTp p fun t => { t with proofAddr := v })
      | 0x40 => .ok (ch.modTp p fun t => { t with ckptList := v })
      | 0x50 => inBounds (v % 64 == 0) (.ok (ch.modTp p fun t => { t with ckptDst := v }))
      | 0x58 => inBounds (v % 64 == 0) (.ok (ch.modTp p fun t => { t with ckptHalf := v }))
      | _ => .ok ch)
  else .ok ch

/-- A write of 64 bits to the 64-bit register at offset `o` of a block, by agent `a`. -/
def Chip.write64 (ch : Chip) (a : Nat) (b : Block) (o v : Nat) : Except Nat Chip :=
  match b with
  | .chip => permitted (!isFabric a) (.ok ch)
  | .steward => if 0x800 ≤ o && o < 0x840 then permitted (isSb a) (coded (ch.tmcRsp ((o - 0x800) / 8) v)) else .ok ch
  | .plate => permitted (isPfSb a) (.ok (if o == 0x08 then { ch with loader := { ch.loader with src := keep v 0xFFFFFFFFC0 } } else ch))
  | .part p => ch.partWrite a p o v
  | .wdg => permitted (isInner a || isSb a) (.ok ch)
  | .twin => ch.twinWide a o v
  | .pod d => match regIx o 0x1000 0x20 32 0x10 with
    | some x => if a < 0x40 then (match ch.ctxArm a d x v with
        | (0, c) => .ok c
        | (e, _) => .error e) else .error cPERM
    | none => ch.unitWrite a (.pod d) o
  | .core k => ch.coreWide a k o v
  | .hostq => ch.hostqWide a o v
  | .link n => ch.unitWrite a (.link n) o
  | .cu u => ch.unitWrite a (.cu u) o
  | .te u => ch.unitWrite a (.te u) o
  | .sfu => ch.unitWrite a .sfu o
  | .sync => ch.unitWrite a .sync o
  | _ => .ok ch

/-! ## The checks of an access (R91, R966 to R968, R973, R974, R978) -/

/-- What a refusal comes to: the side-band never meets PERM (R110), the test access port in the writes of R975 only. -/
def forAgent (a : Nat) (b : Block) (o v : Nat) (ch : Chip) (r : Except Nat Chip) : Except Nat Chip :=
  if a == agTAP && tapBarred b o v then .error cPERM
  else match r with
    | .error 2 => if isSb a then .ok ch else .error cPERM
    | x => x

/-- The 32-bit half at an offset is written; absent registers ignore it (R978). -/
def Chip.writeHalf (ch : Chip) (a : Nat) (b : Block) (o v : Nat) : Except Nat Chip :=
  if ch.regAbsent b o then .ok ch else forAgent a b o v ch (ch.write32 a b o v)

/-- Steps 1 and 2: size, alignment, and gaps (R91, R964, R968). -/
def Chip.regPlace (ch : Chip) (off size : Nat) (write : Bool) : Except Nat (Block × Nat) :=
  if !((size == 4 || size == 8) && off % size == 0) then .error cALIGN
  else match blockOf off with
    | none => .error cBOUNDS
    | some (b, o) => if write && size == 4 && ch.wide b o then .error cALIGN else .ok (b, o)

/-- The chip is in Standby or enters it, where unit blocks other than LINK are not served (R973). -/
def Chip.unitAsleep (ch : Chip) (b : Block) : Bool :=
  b.isUnit && (match b with | .link _ => false | _ => true) && (ch.pwr.state == .standby || ch.pwr.state == .enteringStandby)

/-- fc runs for an access to a unit block (R102). -/
def Chip.wakeFor (ch : Chip) (b : Block) : Chip := if b.isUnit then ch.leaveIdle else ch

/-- Registers at `o` and, for 8 bytes, in the upper half are all absent. -/
def Chip.absentAll (ch : Chip) (b : Block) (o size : Nat) : Bool := ch.regAbsent b o && (size == 4 || ch.regAbsent b (o + 4))

/-- A write of the bytes `v` by agent `a`: the code that refuses it, or the chip after it. -/
def Chip.regPut (ch : Chip) (a : Nat) (b : Block) (o size v : Nat) : Except Nat Chip :=
  if ch.absentAll b o size then .ok ch
  else if size == 8 && ch.wide b o then forAgent a b o v ch (ch.write64 a b o v)
  else if size == 4 then ch.writeHalf a b o (v % 2 ^ 32)
  else match ch.writeHalf a b o (v % 2 ^ 32) with
    | .error e => .error e
    | .ok c => c.writeHalf a b (o + 4) (v / 2 ^ 32 % 2 ^ 32)

/-- The refusal that permission gives before the state is looked at: PERM answers before BUSY (R966). -/
def permFirst (r : Except Nat Chip) (code : Nat) : Except Nat Chip :=
  match r with
  | .error 2 => .error cPERM
  | _ => .error code

/-- TIME's latch of agent `a` is gone: it has made another access to the CHIP block (R982). -/
def Chip.unlatch (ch : Chip) (a : Nat) (b : Block) : Chip :=
  if b == .chip then { ch with timeLatch := ch.timeLatch.filter fun x => x.1 != a } else ch

/-- A register write by agent `a` at an offset: the chip after it, and its code (R966). -/
def Chip.writeOnce (ch : Chip) (a off size v : Nat) : Chip × Nat :=
  if isSb a && (ch.boot.pendingReset.isSome || ch.boot.stage == .reset) then (ch, cBUSY)
  else match ch.regPlace off size true with
    | .error e => (ch, e)
    | .ok (b, o) =>
      let c := (ch.unlatch a b).wakeFor b
      let r := c.regPut a b o size v
      match (if c.unitAsleep b && !c.absentAll b o size then permFirst r cBUSY else r) with
      | .error e => (c, e)
      | .ok d => (d, cOK)

/-- The register at an offset reads back `v`: it holds the value written to it. -/
def Chip.holdsValue (ch : Chip) (off size v : Nat) : Bool :=
  match ch.regPlace off size false with
  | .error _ => false
  | .ok (b, o) => ch.half b o == v % 2 ^ 32 && (size != 8 || ch.half b (o + 4) == v / 2 ^ 32)

/-- The place of agent `a` among the agents that write one register in the same cycle (R122, R971): steward and loader, physical function,
virtual functions, cores and their engines, test access port, side-band. -/
def regRank (a : Nat) : Nat :=
  if a == agSB then 0x101 else if a == agTAP then 0x100
  else if isFabric a then 0x10 + a
  else if isVf a then a - 0x86
  else if a == agPF then 1 else 0

/-- The write comes after one of agent `a` in the same cycle, at bytes of the same register (R971). -/
def RegWrite.after (w : RegWrite) (now a off size : Nat) : Bool :=
  w.at' == now && regRank a < regRank w.agent && w.off < off + size && off < w.off + w.size

/-- The writes of this cycle that come after one of agent `a`, in their order, and stand again after it: those whose value the register holds,
and the one that locked WDG.PERIOD (R122, R971; the queue's order decides nothing here: DEDUCED, log entry 72). -/
def Chip.laterWrites (ch : Chip) (a off size : Nat) : List RegWrite :=
  (ch.regLog.filter fun w => w.after ch.time a off size && (w.locks || ch.holdsValue w.off w.size w.v)).mergeSort
    fun x y => regRank x.agent ≤ regRank y.agent

/-- A lock of WDG.PERIOD that a later one of these writes took is not yet taken (R971). -/
def Chip.beforeLock (ch : Chip) (l : List RegWrite) : Chip :=
  if l.any RegWrite.locks then { ch with wdg := { ch.wdg with locked := false } } else ch

/-- A register write by agent `a` at an offset, and after it those of the same cycle that R971 orders after it (R122, R966, R971). -/
def Chip.regWrite (ch : Chip) (a off size v : Nat) : Chip × Nat :=
  let l := ch.laterWrites a off size
  let (b, code) := (ch.beforeLock l).writeOnce a off size v
  let d := l.foldl (fun (x : Chip) w => (x.writeOnce w.agent w.off w.size w.v).1) b
  if code != cOK then (d, code)
  else
    let mine : RegWrite := { agent := a, off := off, size := size, v := v, at' := ch.time, locks := !(ch.beforeLock l).wdg.locked && b.wdg.locked }
    ({ d with regLog := (ch.regLog.filter fun w => w.at' == ch.time && !(b.wdg.locked && mine.locks && w.locks)) ++ [mine] }, cOK)

/-- The code that refuses a read of a present register: permission, then state (R386, R966, R973). -/
def Chip.readRefusal (ch : Chip) (a : Nat) (b : Block) (o : Nat) : Nat :=
  if ch.regAbsent b o then cOK
  else if !ch.mayRead a b o then cPERM
  else if ch.unitAsleep b then cBUSY
  else match b with
    | .core k => ch.debugCode k o false
    | _ => cOK

/-- The 32 bits that a read of an offset returns to agent `a`: TIME's upper half may be the latched one (R982). -/
def Chip.readHalf (ch : Chip) (a : Nat) (b : Block) (o size : Nat) : Nat :=
  if ch.regAbsent b o then 0
  else if b == .chip && o == 0x24 && size == 4 then (ch.timeLatch.lookup a).getD (ch.half b o)
  else ch.half b o

/-- A register read by agent `a` at an offset: the chip after it, its code and its value (R966 to R969, R982). -/
def Chip.regRead (ch : Chip) (a off size : Nat) : Chip × Nat × Nat :=
  if isSb a && (ch.boot.pendingReset.isSome || ch.boot.stage == .reset) then (ch, cBUSY, 0)
  else match ch.regPlace off size false with
    | .error e => (ch, e, 0)
    | .ok (b, o) =>
      let c := ch.wakeFor b
      let lower := c.readRefusal a b o
      let upper := if size == 8 then c.readRefusal a b (o + 4) else cOK
      let code := if lower != cOK then lower else upper
      let v := c.readHalf a b o size + (if size == 8 then c.readHalf a b (o + 4) 8 * 2 ^ 32 else 0)
      let d := c.unlatch a b
      let e : Chip := if b == .chip && o == 0x20 && size == 4 then { d with timeLatch := (a, ch.half .chip 0x24) :: d.timeLatch } else d
      if code != cOK then (e, code, 0) else (e, cOK, v)

/-! ## How a requester learns the outcome (R107, R108, R391, R760, R905) -/

/-- The partition of a requester as a field, 0xFF for none. -/
def Chip.agentField (ch : Chip) (a : Nat) : Nat := (ch.agentPart a).getD 0xFF

/-- The agent can make an access now: the chip runs, a host function answers, the steward's firmware runs. -/
def Chip.agentUp (ch : Chip) (a : Nat) : Bool :=
  if a == agPF || isVf a then ch.fnAnswers (fnOf a) else if a == agSTEWARD then ch.stwRuns else ch.alive

/-- The outcome of a write goes to its requester, and a violation to the log; the side-band has served a transaction (R717). -/
def Chip.reportWrite (ch0 : Chip) (a off size code : Nat) : Chip :=
  let ch : Chip := if a == agSB then { ch0 with sb := { ch0.sb with served := ch0.time } } else ch0
  if code == cOK then ch
  else if a == agPF || isVf a then
    if 0x1000000 < off + size then ch.emit (.unsupported (fnOf a)) else ch.hostRefused (fnOf a) 0 off size code true
  else
    let b := ch.violateIf a (ch.agentField a) vRegWrite code off false
    if a == agSB then { b with sb := { b.sb with lastError := code } }
    else if a == agTAP then { b with tap := { b.tap with code := code } }
    else b.emit (.value a code 0)

/-- A register write by any agent, as a command. -/
def regRow (c a off size v : Nat) (s : State) : Host.Outcome State Fault Refusal :=
  onChip c (fun ch =>
    if !ch.agentUp a then ch
    else
      let (b, code) := ch.regWrite a off size v
      b.reportWrite a off size code) s

/-- A register write of a command that names the register, where `ok` holds of the chip. -/
def regRowIf (ok : Chip → Bool) (c a off size v : Nat) (s : State) : Host.Outcome State Fault Refusal :=
  onChip c (fun ch =>
    if !ch.agentUp a || !ok ch then ch
    else
      let (b, code) := ch.regWrite a off size v
      b.reportWrite a off size code) s

/-! ## The commands -/

/-- A write to a register that has no row of its own (R966). -/
def execRegisterWrite (c a off size v : Nat) (s : State) : Host.Outcome State Fault Refusal := regRow c a off size v s

/-- A 4-byte read of TIME bits 31:0 by agent `a` (R982). -/
def execTimeLowRead (c a : Nat) (s : State) : Host.Outcome State Fault Refusal :=
  onChip c (fun ch =>
    if !ch.agentUp a then ch
    else
      let (b, code, v) := ch.regRead a 0x20 4
      b.emit (.value a code v)) s

/-- A read of a unit block while fc is stopped in Idle starts fc (R102); the value goes to the requester, or the refusal. -/
def execUnitBlockAccessIdle (c a off size : Nat) (s : State) : Host.Outcome State Fault Refusal :=
  onChip c (fun ch =>
    let unit := match blockOf off with
      | some (b, _) => b.isUnit
      | none => false
    if !ch.agentUp a || !unit || ch.pwr.state != .idle then ch
    else
      let (b, code, v) := ch.regRead a off size
      if code == cOK then (if a == agPF || isVf a then b.emit (.hostRead (fnOf a) (leBytes size v) false) else b.emit (.value a cOK v))
      else if a == agPF || isVf a then b.hostRefused (fnOf a) 0 off size code false
      else (b.violateIf a (b.agentField a) vRegRead code off true).emit (.value a code 0)) s

/-- Bytes of a BAR of a function (R901). -/
def Chip.barSize (ch : Chip) (fn bar : Nat) : Nat :=
  match bar with
  | 0 => 0x1000000
  | 2 => if fn == 0 then 0x10000 else 0x1000
  | 4 => 2 ^ (if fn == 0 then ch.host.pfBar4 else ch.host.vfBar4)
  | _ => 0

/-- The code that refuses a host access in an enabled BAR, 0 where none does (R899, R903 to R905, R966). -/
def Chip.hostCode (ch : Chip) (fn bar off len : Nat) (write : Bool) (v : Nat) : Nat :=
  match bar with
  | 0 => if write then (ch.regWrite (fnAgent fn) off len v).2 else (ch.regRead (fnAgent fn) off len).2.1
  | 2 =>
    let p := if fn == 0 then off / 0x1000 else fn - 1
    let o := off % 0x1000
    if !(len == 4 && off % 4 == 0) then cALIGN
    else if write && (if p == 8 then o == 0x10 else p < 8 && (o == 0 || o == 8 || o == 0x10 || o == 0x18)) && !(p < 8 && ch.variant.maxParts ≤ p) && (if p < 8 then ch.ownerFn p else 0) != fn then cPERM else cOK
  | 4 => match ch.bar4Addr fn off len with
    | .error e => e
    | .ok a => if write then ch.writeCode a len else cOK
  | _ => cOK

/-- A host access in an enabled BAR that is refused: recorded, all ones for a read, discarded for a write (R905); outside every enabled
BAR it is an Unsupported Request (R906). -/
def execHostRefusedAccess (c fn bar off len : Nat) (write : Bool) (v : Nat) (s : State) : Host.Outcome State Fault Refusal :=
  onChip c (fun ch =>
    let code := ch.hostCode fn bar off len write v
    if !ch.fnAnswers fn || ch.barSize fn bar < off + len then ch.emit (.unsupported fn)
    else if code == cOK then ch
    else
      let a := if bar == 4 then ch.leaveIdle
        else if bar == 0 then (if write then (ch.regWrite (fnAgent fn) off len v).1 else (ch.regRead (fnAgent fn) off len).1)
        else ch
      a.hostRefused fn bar off len code write) s

/-- POD.SE_CTX_ARM of context `x` of pod `p` is written by agent `k` with a far base (R555). -/
def execSeCtxArmWrite (c k p x far : Nat) (s : State) : Host.Outcome State Fault Refusal :=
  regRow c k (0x200000 + 0x10000 * p + 0x1010 + 0x20 * x) 8 far s

/-- PLATE.CTRL LOAD (R162, R183). -/
def execPlateLoad (c a : Nat) (s : State) : Host.Outcome State Fault Refusal := regRow c a 0x20000 4 1 s

/-- PLATE.CTRL UNLOAD (R167). -/
def execPlateUnload (c a : Nat) (s : State) : Host.Outcome State Fault Refusal := regRow c a 0x20000 4 2 s

/-- PLATE.CTRL CANCEL of partition `p` (R185). -/
def execPlateCancel (c a p : Nat) (s : State) : Host.Outcome State Fault Refusal := regRow c a 0x20000 4 (p % 256 * 256 + 3) s

/-- PART[p].CTRL.CLR_OVERRUNS (R240). -/
def execClrOverruns (c a p : Nat) (s : State) : Host.Outcome State Fault Refusal := regRow c a (0x30038 + 0x1000 * p) 4 1 s

/-- PWR.OFFER OP OFFER (R882). -/
def execPwrOffer (c share : Nat) (s : State) : Host.Outcome State Fault Refusal := regRow c agSB 0x6000C 4 (0x40000000 + share % 256) s

/-- PWR.OFFER OP COMMIT (R883). -/
def execPwrCommit (c : Nat) (s : State) : Host.Outcome State Fault Refusal := regRow c agSB 0x6000C 4 0x80000000 s

/-- PWR.OFFER OP ABANDON (R883). -/
def execPwrAbandon (c : Nat) (s : State) : Host.Outcome State Fault Refusal := regRow c agSB 0x6000C 4 0xC0000000 s

/-- PWR.CTRL OP STANDBY (R872). -/
def execPwrCtrlStandby (c a : Nat) (s : State) : Host.Outcome State Fault Refusal := regRow c a 0x60014 4 2 s

/-- PWR.CTRL OP ACTIVE (R875). -/
def execPwrCtrlActive (c a : Nat) (s : State) : Host.Outcome State Fault Refusal := regRow c a 0x60014 4 1 s

/-- PWR.CTRL OP DORMANT (R876). -/
def execPwrCtrlDormant (c a : Nat) (s : State) : Host.Outcome State Fault Refusal := regRow c a 0x60014 4 3 s

/-- LINK[n].CTRL.FORCE_DOWN (R716). -/
def execLinkForceDown (c a n : Nat) (s : State) : Host.Outcome State Fault Refusal := regRow c a (0x100004 + 0x4000 * n) 4 2 s

/-- LINK[n].CTRL.RETRAIN (R716). -/
def execLinkCtrlRetrain (c a n : Nat) (s : State) : Host.Outcome State Fault Refusal := regRow c a (0x100004 + 0x4000 * n) 4 1 s

/-- TWIN.PART[p].PROOF_GO (R730). -/
def execProofGo (c a p v : Nat) (s : State) : Host.Outcome State Fault Refusal := regRow c a (0x70114 + 0x100 * p) 4 v s

/-- TWIN.CTRL OP DETACH (R747). -/
def execTwinCtrlDetach (c a : Nat) (s : State) : Host.Outcome State Fault Refusal := regRow c a 0x70004 4 1 s

/-- TWIN.CTRL OP REJOIN (R749). -/
def execTwinCtrlRejoin (c a : Nat) (s : State) : Host.Outcome State Fault Refusal := regRow c a 0x70004 4 2 s

/-- TWIN.CTRL OP SWITCH of a mask of partitions (R746). -/
def execTwinCtrlSwitch (c a mask : Nat) (s : State) : Host.Outcome State Fault Refusal := regRow c a 0x70004 4 (mask % 256 * 256 + 3) s

/-- TWIN.CTRL OP CONFIRM (R745). -/
def execConfirm (c a mask : Nat) (s : State) : Host.Outcome State Fault Refusal := regRow c a 0x70004 4 (mask % 256 * 256 + 4) s

/-- TWIN.CTRL OP RELINQUISH (R745). -/
def execRelinquish (c a mask : Nat) (s : State) : Host.Outcome State Fault Refusal := regRow c a 0x70004 4 (mask % 256 * 256 + 5) s

/-- EVT.RECLAIM with OP 0 sets the agent (R777, R799). -/
def execReclaimSetAgent (c a agent : Nat) (s : State) : Host.Outcome State Fault Refusal := regRow c a 0x55100 4 (agent % 256) s

/-- EVT.RECLAIM OP FENCE (R777). -/
def execReclaimFence (c a agent : Nat) (s : State) : Host.Outcome State Fault Refusal := regRow c a 0x55100 4 (0x100 + agent % 256) s

/-- EVT.RECLAIM OP RECLAIM (R778). -/
def execReclaim (c a agent : Nat) (s : State) : Host.Outcome State Fault Refusal := regRow c a 0x55100 4 (0x200 + agent % 256) s

/-- EVT.RECLAIM OP UNFENCE (R777). -/
def execReclaimUnfence (c a agent : Nat) (s : State) : Host.Outcome State Fault Refusal := regRow c a 0x55100 4 (0x300 + agent % 256) s

/-- WDG.STW_KICK (R782). -/
def execStwKick (c a : Nat) (s : State) : Host.Outcome State Fault Refusal := regRow c a 0x40014 4 0 s

/-- WDG.KICK (R788). -/
def execWdgKick (c a v : Nat) (s : State) : Host.Outcome State Fault Refusal := regRow c a 0x40004 4 v s

/-- WDG.PERIOD (R787). -/
def execWdgPeriodWrite (c a v : Nat) (s : State) : Host.Outcome State Fault Refusal := regRow c a 0x40000 4 v s

/-- WDG.STW_DBG.HALT (R804). -/
def execStwDbgHalt (c a : Nat) (s : State) : Host.Outcome State Fault Refusal := regRow c a 0x40018 4 1 s

/-- WDG.STW_DBG.RESUME (R804). -/
def execStwDbgResume (c a : Nat) (s : State) : Host.Outcome State Fault Refusal := regRow c a 0x40018 4 2 s

/-- EVT.VLOG_CTRL.CLEAR (R799). -/
def execVlogClear (c a : Nat) (s : State) : Host.Outcome State Fault Refusal := regRow c a 0x54004 4 1 s

/-- A write of 1 to CORE.FAULT.VALID of core `k` (R395). -/
def execCoreFaultClear (c a k : Nat) (s : State) : Host.Outcome State Fault Refusal := regRow c a (0x300010 + 0x1000 * k) 4 0x80000000 s

/-- EVT.LER_CTRL.FLUSH (R819). -/
def execLerCtrlFlush (c a : Nat) (s : State) : Host.Outcome State Fault Refusal := regRow c a 0x50018 4 2 s

/-- EVT.LER_CTRL.RELEASE (R836). -/
def execLerCtrlRelease (c a : Nat) (s : State) : Host.Outcome State Fault Refusal := regRow c a 0x50018 4 1 s

/-- EVT.FATAL_ACK.ACK (R840). -/
def execFatalAck (c : Nat) (s : State) : Host.Outcome State Fault Refusal := regRow c agSB 0x50034 4 1 s

/-- CHIP.BOOT_CTRL is written over the side-band (R951). -/
def execBootRelease (c v : Nat) (s : State) : Host.Outcome State Fault Refusal := regRow c agSB 0x108 4 v s

/-- A word of STEWARD.TMC_RSP is written over the side-band (R984). -/
def execTmcRspWrite (c i v : Nat) (s : State) : Host.Outcome State Fault Refusal := regRow c agSB (0x10800 + 8 * (i % 8)) 8 v s

/-! ## Mailbox requests (R929 to R935): GO, where MB_REQ holds a valid request of the service -/

/-- The PF writes GO for a request of a service. -/
def mbRow (c service : Nat) (s : State) : Host.Outcome State Fault Refusal :=
  regRowIf (fun ch => !ch.mbox.busy && ch.mbox.valid && ch.mbox.service == service) c agPF 0x10008 4 1 s

/-- GET_INFO (R932). -/
def execGetInfo (c : Nat) (s : State) : Host.Outcome State Fault Refusal := mbRow c svINFO s

/-- LER_READ (R839, R933). -/
def execMbLerRead (c : Nat) (s : State) : Host.Outcome State Fault Refusal := mbRow c svLERREAD s

/-- LER_RELEASE (R836). -/
def execMbLerRelease (c : Nat) (s : State) : Host.Outcome State Fault Refusal := mbRow c svLERRELEASE s

/-- SET_HOST_CAP (R935). -/
def execSetHostCap (c : Nat) (s : State) : Host.Outcome State Fault Refusal := mbRow c svHOSTCAP s

/-- GET_TRAY_CAP (R932). -/
def execMbGetTrayCap (c : Nat) (s : State) : Host.Outcome State Fault Refusal := mbRow c svTRAYCAP s

/-- REQ_DORMANT (R935). -/
def execReqDormant (c : Nat) (s : State) : Host.Outcome State Fault Refusal := mbRow c svDORMANT s

/-- A GO that names an unlisted service or carries a bad payload, or that arrives while BUSY (R929, R932). -/
def execMbUnknownService (c : Nat) (s : State) : Host.Outcome State Fault Refusal :=
  regRowIf (fun ch => ch.mbox.busy || !ch.mbox.valid) c agPF 0x10008 4 1 s

/-! ## Debug commands (R383 to R386) -/

/-- DBG_CTRL.HALT of core `k` (R383). -/
def execDbgHalt (c a k : Nat) (s : State) : Host.Outcome State Fault Refusal := regRow c a (0x300100 + 0x1000 * k) 4 1 s

/-- DBG_CTRL.RESUME (R383). -/
def execDbgResume (c a k : Nat) (s : State) : Host.Outcome State Fault Refusal := regRow c a (0x300100 + 0x1000 * k) 4 2 s

/-- DBG_CTRL.STEP (R387). -/
def execDbgStep (c a k : Nat) (s : State) : Host.Outcome State Fault Refusal := regRow c a (0x300100 + 0x1000 * k) 4 4 s

/-- DBG_CTRL.HALT_PART (R396). -/
def execDbgHaltPart (c a k : Nat) (s : State) : Host.Outcome State Fault Refusal := regRow c a (0x300100 + 0x1000 * k) 4 8 s

/-- DBG_CTRL.RESUME_PART (R385). -/
def execDbgResumePart (c a k : Nat) (s : State) : Host.Outcome State Fault Refusal := regRow c a (0x300100 + 0x1000 * k) 4 16 s

/-- A register read of 8 bytes by agent `a`, as a command: the value, or the refusal, goes to it. -/
def readRow (c a off : Nat) (s : State) : Host.Outcome State Fault Refusal :=
  onChip c (fun ch =>
    if !ch.agentUp a then ch
    else
      let (b, code, v) := ch.regRead a off 8
      if a == agPF || isVf a then
        (if code == cOK then b.emit (.hostRead (fnOf a) (leBytes 8 v) false) else b.hostRefused (fnOf a) 0 off 8 code false)
      else (b.violateIf a (b.agentField a) vRegRead code off true).emit (.value a code v)) s

/-- CORE.DBG_REGDATA of core `k` is written or read (R386). -/
def execDbgRegdataAccess (c a k : Nat) (write : Bool) (v : Nat) (s : State) : Host.Outcome State Fault Refusal :=
  if write then regRow c a (0x300118 + 0x1000 * k) 8 v s else readRow c a (0x300118 + 0x1000 * k) s

/-- CORE.DBG_MDATA of core `k` is written or read (R386). -/
def execDbgMdataAccess (c a k : Nat) (write : Bool) (v : Nat) (s : State) : Host.Outcome State Fault Refusal :=
  if write then regRow c a (0x300128 + 0x1000 * k) 8 v s else readRow c a (0x300128 + 0x1000 * k) s

end Sys2Proof.Machine
end

