-- ==== Sys2Proof/Machine/SideBand.lean ====
section
/-! DEFINITION. The SMBus side-band target and the test access port: the commands that reach a chip without the steward (R103 to R113,
R389 to R391, R838, R974, R975). -/
namespace Sys2Proof.Machine

/-! ## The side-band target (R103 to R113) -/

/-- The chip's side-band serves a transaction, or does not answer its address. -/
def Chip.sbServe (ch : Chip) (f : Chip → Chip) : Chip :=
  if ch.alive then f { ch with sb := { ch.sb with served := ch.time } } else ch.emit .sideBandNack

/-- A write that fails: its code goes to STATUS byte 1 (R108). -/
def Chip.sbError (ch : Chip) (code : Nat) : Chip := { ch with sb := { ch.sb with lastError := code } }

/-- The address at which a chip's side-band answers: 0x40 plus its straps (R22, R96). -/
def Chip.sbAddress (ch : Chip) : Nat := 0x40 + ch.boot.straps

/-- A transaction at an SMBus address: the chip whose address it is serves it by `f`; where no chip has it, nothing answers (R96). -/
def onSideBand (addr : Nat) (f : Chip → Chip) (s : State) : Host.Outcome State Fault Refusal :=
  match s.chips.findIdx? fun ch => ch.sbAddress == addr with
  | some c => onChip c (fun ch => ch.sbServe f) s
  | none => .next s

/-- The commands of the side-band by code: the bytes of a Block Write and of a Block Read, where the command has one (R103). -/
def sbCommands : List (Nat × Option Nat × Option Nat) :=
  [(0x10, some 4, none), (0x11, some 4, some 5), (0x12, some 8, some 9), (0x20, some 2, none), (0x21, none, some 33), (0x22, some 1, none),
   (0x30, some 2, none), (0x40, none, some 9)]

/-- ADDR, code 0x10 (R103, R105). -/
def execSbAddr (addr off : Nat) (s : State) : Host.Outcome State Fault Refusal :=
  onSideBand addr (fun x =>
    if off < 0x1000000 then { x with sb := { x.sb with addr := off } } else x.sbError cBOUNDS) s

/-- ADDR advances after an access; past 0xFFFFFC it goes on into bits 31:24, where every access is BOUNDS (R104; DESIGN CHOICE, log
entry 49). -/
def Chip.sbStep (ch : Chip) (size : Nat) : Chip := { ch with sb := { ch.sb with addr := (ch.sb.addr + size) % 2 ^ 32 } }

/-- DATA32 and DATA64, Block Read: the status, then the value (R104, R107). -/
def Chip.sbRead (ch : Chip) (size : Nat) : Chip :=
  let off := ch.sb.addr
  let (a, code, v) := ch.regRead agSB off size
  ((a.violateIf agSB 0xFF vRegRead code off true).sbStep size).emit (.sideBand (code :: leBytes size v))

/-- DATA32 and DATA64, Block Write (R104, R108). -/
def Chip.sbWrite (ch : Chip) (size v : Nat) : Chip :=
  let off := ch.sb.addr
  let (a, code) := ch.regWrite agSB off size v
  (a.reportWrite agSB off size code).sbStep size

/-- DATA32, code 0x11, Block Read (R103, R104). -/
def execSbData32Read (addr : Nat) (s : State) : Host.Outcome State Fault Refusal := onSideBand addr (fun x => x.sbRead 4) s

/-- DATA32, code 0x11, Block Write (R103, R104). -/
def execSbData32Write (addr v : Nat) (s : State) : Host.Outcome State Fault Refusal := onSideBand addr (fun x => x.sbWrite 4 v) s

/-- DATA64, code 0x12, Block Read (R103, R104). -/
def execSbData64Read (addr : Nat) (s : State) : Host.Outcome State Fault Refusal := onSideBand addr (fun x => x.sbRead 8) s

/-- DATA64, code 0x12, Block Write (R103, R104). -/
def execSbData64Write (addr v : Nat) (s : State) : Host.Outcome State Fault Refusal := onSideBand addr (fun x => x.sbWrite 8 v) s

/-- LER_FRAME, code 0x20, selects a frame (R103). -/
def execLerFrame (addr frame : Nat) (s : State) : Host.Outcome State Fault Refusal :=
  onSideBand addr (fun x =>
    if frame < 4096 then { x with sb := { x.sb with frame := frame, pos := 0 } } else x.sbError cBOUNDS) s

/-- The slot is being written (R838). -/
def Chip.slotBusy (ch : Chip) (i : Nat) : Bool :=
  match ch.ler.writing with
  | some (j, _) => i == j
  | none => false

/-- The read position moves on by 32 bytes, after the last into the next frame of the ring (R106). -/
def SideBand.advance (b : SideBand) : SideBand :=
  if b.pos + 1 < 128 then { b with pos := b.pos + 1 } else { b with pos := 0, frame := (b.frame + 1) % 4096 }

/-- LER_READ, code 0x21: the next 32 bytes of the selected frame (R103, R106, R838). -/
def execLerRead (addr : Nat) (s : State) : Host.Outcome State Fault Refusal :=
  onSideBand addr (fun x =>
    if x.slotBusy x.sb.frame then x.emit (.sideBand (cBUSY :: List.replicate 32 0))
    else
      let (a, code, bytes) := x.slotBytes x.sb.frame
      let data := if code == cOK then sliceB bytes (32 * x.sb.pos) 32 else List.replicate 32 0
      ({ a with sb := a.sb.advance } : Chip).emit (.sideBand (code :: data))) s

/-- LER_RELEASE, code 0x22, carries the value 0x01 (R103, R836). -/
def execLerRelease (addr value : Nat) (s : State) : Host.Outcome State Fault Refusal :=
  onSideBand addr (fun x => if value == 1 then x.lerRelease agSB else x.sbError cBOUNDS) s

/-- The reset of a kind byte (R111). -/
def resetKindOf (kind : Nat) : Option ResetKind :=
  match kind with
  | 1 => some .warm
  | 2 => some .cold
  | 3 => some .sideband
  | _ => none

/-- RESET: a kind, then 0xA5 (R111, R112). -/
def Chip.sbReset (ch : Chip) (kind key : Nat) : Chip :=
  match resetKindOf kind with
  | some k => if key == 0xA5 then ch.askReset k else ch.sbError cBOUNDS
  | none => ch.sbError cBOUNDS

/-- RESET, code 0x30 (R103, R111, R112). -/
def execSbReset (addr kind key : Nat) (s : State) : Host.Outcome State Fault Refusal := onSideBand addr (fun x => x.sbReset kind key) s

/-- The nine bytes of STATUS (R113). -/
def Chip.sbStatus (ch : Chip) : List Nat :=
  [cOK, ch.sb.lastError, ch.stateByte, 0] ++ leBytes 4 ch.wdg.heartbeat ++ [ch.ler.bootCount % 256]

/-- STATUS, code 0x40: the read clears byte 1 (R103, R113). -/
def execSbStatus (addr : Nat) (s : State) : Host.Outcome State Fault Refusal :=
  onSideBand addr (fun x => (x.sbError cOK).emit (.sideBand x.sbStatus)) s

/-- A command that the target does not perform but answers with NACK: one whose code the table does not list (R103), or a Block Write with
a wrong PEC byte (R109). A listed command without a Block Write carries no PEC byte of the master's, and is none of these. -/
def execSbBadPec (addr code : Nat) (s : State) : Host.Outcome State Fault Refusal :=
  match s.chips.findIdx? fun ch => ch.sbAddress == addr, sbCommands.lookup code with
  | some _, some (none, _) => .next s
  | some c, _ => onChip c (fun ch => ch.emit .sideBandNack) s
  | none, _ => .next s

end Sys2Proof.Machine
end

