-- ==== Sys2Proof/Machine/Tray.lean ====
section
/-! DEFINITION. What the TMC's operations share: the tray's figures, its configuration, its events, the division of the tray cap into
shares, and waking (R37 to R39, R42, R45 to R58, R73, R884, R887, R999, R1011, R1013). -/
namespace Sys2Proof.Machine

/-! ## The tray's figures (R1, R45, R994, R1011) -/

/-- Tray maximum, in W. -/
def TrayType.maxCap : TrayType → Nat
  | .st4 => 760 | .st2 => 340

/-- Allowance for switch, fans, TMC and conversion loss, in W. -/
def TrayType.allowance : TrayType → Nat
  | .st4 => 160 | .st2 => 80

/-- Derating per degree of the inlet above 40, in W (R1011). -/
def TrayType.derate : TrayType → Nat
  | .st4 => 20 | .st2 => 8

/-- Fans (R39). -/
def TrayType.fans : TrayType → Nat
  | .st4 => 4 | .st2 => 3

/-- chip_variant of R37. -/
def Variant.cfgCode : Variant → Nat
  | .ha720 => 0x20 | .ha716 => 0x16 | .ha708 => 0x08

/-- Draw a fresh index of the free values. -/
def State.draw (s : State) : Nat × State := (s.tmc.free * 8 + 7, s.modTmc fun t => { t with free := t.free + 1 })

/-- The TMC sends something outwards. -/
def State.emit (s : State) (o : Output) : State := s.modTmc fun t => { t with out := o :: t.out }

/-- Apply `f` for each number of a list, in order. -/
def State.forEach (s : State) (l : List Nat) (f : Nat → State → State) : State := l.foldl (fun a i => f i a) s

/-- The chips of a mask that the tray holds, ascending. -/
def State.maskChips (s : State) (mask : Nat) : List Nat := (List.range s.chips.length).filter fun c => bitOf mask c

/-- The chips whose main rails are on: a chip whose rails are off counts as Dormant (R42). -/
def State.live (s : State) : List Nat := (List.range s.chips.length).filter fun c => (s.chip c).pwr.rails

/-! ## Events of the TMC (R73) -/

/-- A frame of the management protocol: the header, the payload, and the CRC-32C over both (R14, R60). -/
def mgmtFrame (typ flags status seq : Nat) (bytes : List Nat) : List Nat :=
  let b := [0x53, 0x54, 0x4D, 0x50, 1, typ % 256, flags % 256, status % 256] ++ leBytes 4 seq ++ leBytes 4 bytes.length ++ bytes
  b ++ leBytes 4 (crc32c b)

/-- Send an unsolicited frame to a session; its sequence is a free value. -/
def State.sendTo (s : State) (n typ : Nat) (bytes : List Nat) : State :=
  let (d, a) := s.draw
  a.emit (.mgmt n (mgmtFrame typ 2 0 ((Config.freeValue d).toNat % 2 ^ 32) bytes))

/-- The sessions that are open. -/
def State.openSessions (s : State) : List Nat := (List.range 4).filter fun n => (s.tmc.sessions.getD n {}).isOpen

/-- The sessions that have authenticated. -/
def State.authSessions (s : State) : List Nat := (List.range 4).filter fun n => (s.tmc.sessions.getD n {}).role != 0

/-- An EVENT frame to sessions: class, chip index or 0xFF, entry (R71). -/
def State.relay (s : State) (dest : List Nat) (chip : Nat) (e : Entry) : State :=
  s.forEach dest fun n a => a.sendTo n 0x70 ([e.cls, chip, 0, 0] ++ e.bytes)

/-- The entry of a condition of the TMC's own (R73). -/
def State.trayEntry (s : State) (id cls arg1 arg0 : Nat) : Entry :=
  { time := s.tmc.uptime, id := id, cls := cls, arg1 := arg1 % 0x10000, arg0 := arg0 }

/-- Raise a tray event: an EVENT to each authenticated session (R73). -/
def State.trayEvent (s : State) (id cls arg1 : Nat) : State := s.relay s.authSessions 0xFF (s.trayEntry id cls arg1 0)

/-! ## The tray configuration (R37 to R39) -/

/-- A field of the configuration copy in force. -/
def State.cfg (s : State) (off n : Nat) : Nat := leAt s.tmc.config off n

/-- The byte offsets that R37 reserves. -/
def cfgReserved : List Nat :=
  [6, 7, 12, 13, 14, 15, 45, 46, 47] ++ (List.range 12).map (· + 52) ++ (List.range 15).map (· + 81) ++
  (List.range 8).flatMap (fun k => [1, 2, 3, 101, 102, 103].map fun i => 112 + 104 * k + i) ++ (List.range 2764).map (· + 1328)

/-- A configuration copy is valid on this tray (R38). -/
def State.cfgValid (s : State) (b : List Nat) : Bool :=
  let f := fun (off n : Nat) => leAt b off n
  let chips := s.chips.length
  b.length == 4096 && b.take 4 == [0x53, 0x54, 0x43, 0x46] && f 4 2 == 1 && crc32c (b.take 4092) == f 4092 4 &&
  (f 22 1 == 4 || f 22 1 == 2) && (f 23 1 == 0x20 || f 23 1 == 0x16 || f 23 1 == 0x08) &&
  f 24 1 < 2 ^ chips && f 25 1 < 2 ^ chips && f 26 1 < chips && f 27 1 < 16 &&
  (List.range 4).all (fun n => f (28 + n) 1 < 12 || f (28 + n) 1 == 0xFF) && f 36 2 ≤ 12000 && f 44 1 ≤ 32 && f 80 1 ≤ 128 &&
  (List.range 8).all (fun k => f (112 + 104 * k) 1 ≤ 2) && cfgReserved.all fun i => b.getD i 0 == 0

/-- The copy that the flash holds at place `i`. -/
def Tmc.copy (t : Tmc) (i : Nat) : List Nat := t.flashBytes (copyBase i) 4096

/-- Sequence `a` is higher than `b` (R38). -/
def seqHigher (a b : Nat) : Bool :=
  let d := (a + 2 ^ 32 - b) % 2 ^ 32
  1 ≤ d && d < 2 ^ 31

/-- Byte `i` of a factory copy, before its CRC: what identifies the tray, 0 where R37 reserves the byte, chip 0 for TICK_OUT (R54), and
elsewhere a default that the spec does not give, brought within the bounds of R37 (R38). -/
def State.factoryAt (s : State) (i : Nat) : Nat :=
  let raw := fun (k : Nat) => (Config.factoryByte k).toNat
  let chips := s.chips.length
  if cfgReserved.contains i then 0
  else match i with
    | 0 => 0x53 | 1 => 0x54 | 2 => 0x43 | 3 => 0x46
    | 4 => 1 | 5 => 0
    | 22 => s.trayType.value
    | 23 => (s.chip 0).variant.cfgCode
    | 24 | 25 => raw i % 2 ^ chips
    | 26 => 0
    | 27 => raw i % 16
    | 28 | 29 | 30 | 31 => if raw i < 12 then raw i else 0xFF
    | 36 => (raw 36 + 256 * raw 37) % 12001 % 256
    | 37 => (raw 36 + 256 * raw 37) % 12001 / 256
    | 44 => raw i % 33
    | 80 => raw i % 129
    | _ => if 112 ≤ i && i < 944 && (i - 112) % 104 == 0 then raw i % 3 else raw i

/-- The factory copy: a valid copy (R38). -/
def State.factory (s : State) : List Nat :=
  let b := (List.range 4092).map s.factoryAt
  b ++ leBytes 4 (crc32c b)

/-- The TMC puts the valid copy with the higher sequence in force, else the factory copy (R38). -/
def State.selectConfig (s : State) : State :=
  let a := s.tmc.copy 0
  let b := s.tmc.copy 1
  let take := fun (i : Nat) (x : List Nat) => s.modTmc fun t => { t with config := x, copyNo := i }
  match s.cfgValid a, s.cfgValid b with
  | true, true => if seqHigher (leAt b 8 4) (leAt a 8 4) then take 1 b else take 0 a
  | true, false => take 0 a
  | false, true => take 1 b
  | false, false => (take 2 s.factory).trayEvent 0x0E08 err 0

/-- wake_set, power_on_set, tick_out_chip (R37). -/
def State.wakeSet (s : State) : Nat := s.cfg 24 1
/-- The chips powered when the TMC starts. -/
def State.powerOnSet (s : State) : Nat := s.cfg 25 1
/-- The chip whose TICK_OUT the tray connector repeats (R54); chip 0 before the TMC has read a configuration. -/
def State.tickOutChip (s : State) : Nat := s.cfg 26 1

/-- The chip is neither Dormant nor held in reset: its TAP stands in the DEBUG chain (R59). -/
def Chip.tapIn (ch : Chip) : Bool := ch.alive && ch.boot.stage != .reset

/-- TICK_OUT as the chip's logic drives it: high for 1 µs from each tick start of the partition that drives it (R133). -/
def Chip.tickOut (ch : Chip) : Bool := ch.tapIn && ch.time < ch.tickOutUntil

/-- The level of a chip's TICK_OUT pin; none in high impedance. EXTEST drives it from its boundary cell, HIGHZ leaves it undriven (R389). -/
def Chip.tickOutPin (ch : Chip) : Option Bool :=
  if !ch.tapIn then some false
  else if ch.tap.ir == 0x00 then some (bitOf ch.tap.cells 4)
  else if ch.tap.ir == 0x03 then none
  else some ch.tickOut

/-- The level of the tray's TICK_OUT connector: the selected chip's pin, low while that chip is Dormant or in reset (R54). -/
def State.trayTickOut (s : State) : Option Bool := (s.chip s.tickOutChip).tickOutPin

/-- The management cap of the copy in force: 0 stands for the tray maximum (R37). -/
def State.cfgCap (s : State) : Nat := if s.cfg 38 2 == 0 then s.trayType.maxCap else s.cfg 38 2

/-! ## Side-band writes of the TMC -/

/-- A register write by the TMC through chip `c`'s side-band: its code, none where the chip does not answer. -/
def State.sbPut (s : State) (c off size v : Nat) : State × Option Nat :=
  let ch := s.chip c
  if !ch.alive then (s, none)
  else
    let (a, code) := ch.regWrite agSB off size v
    let b := a.reportWrite agSB off size code
    (s.modChip c fun _ => { b with sb := { b.sb with addr := off + size } }, some code)

/-- The TMC has read a chip's registers through its side-band (R717). -/
def State.sbSeen (s : State) (c : Nat) : State := s.modChip c fun ch => { ch with sb := { ch.sb with served := ch.time } }

/-! ## The tray cap and its shares (R45 to R52, R884, R887) -/

/-- The tray floor with `n` chips that are not Dormant (R45). -/
def State.floorFor (s : State) (n : Nat) : Nat := s.trayType.allowance + 60 * n

/-- The fan-fault limit (R41). -/
def State.fanLimit (s : State) (n : Nat) : Nat :=
  if 2 ≤ ((List.range 8).filter fun f => bitOf s.tmc.fanFault f).length then s.floorFor n else s.trayType.maxCap

/-- The smallest of the four source caps, with `n` chips not Dormant (R45). -/
def State.effective (s : State) (host mgmt n : Nat) : Nat := min (min host mgmt) (min s.tmc.thermal (s.fanLimit n))

/-- The share of chip `c` of a cap divided among `n` chips (R48, R867). -/
def State.shareOf (s : State) (cap n c : Nat) : Nat := min (max ((cap - s.trayType.allowance) / n / 5 * 5) 60) (s.chip c).variant.maxShare

/-- The chip answers offers: it is past HBM_TRAIN and has not failed (R52). -/
def Chip.offerable (ch : Chip) : Bool := ch.alive && ch.boot.pendingReset.isNone && 4 ≤ ch.stageNow && ch.stageNow != 0x0F

/-- The new shares of the running chips, but for those that go to Dormant. -/
def State.targets (s : State) (cap n : Nat) : List (Nat × Nat) :=
  (s.live.filter fun c => (s.chip c).offerable && !bitOf s.tmc.dormant c).map fun c => (c, s.shareOf cap n c)

/-- A chip's draw still counts as its former share (R887). -/
def State.counted (s : State) : Bool :=
  s.tmc.commits.any fun x =>
    let ch := s.chip x.1
    ch.pwr.rails && ch.pwr.fc != ch.pwr.target && s.tmc.uptime < x.2 + 2000000000

/-- A share of the list is raised while a chip is counted so (R887). -/
def State.raiseWaits (s : State) (l : List (Nat × Nat)) : Bool := s.counted && l.any fun x => (s.chip x.1).pwr.share < x.2

/-- The chip has answered the offer of its share with OK, and holds it (R882, R884). -/
def Chip.tookOffer (ch : Chip) : Bool := ch.pwr.offerDone && ch.pwr.offerCode == cOK && ch.pwr.held.isSome

/-- Offer each its share; commit when all have answered OK, else abandon: the lowest chip that refused (R49, R884). An offer that a
chip does not answer counts as refused. -/
def State.offerAll (s : State) (l : List (Nat × Nat)) : State × Option Nat :=
  let off := 0x6000C
  let a := l.foldl (fun b x => (b.sbPut x.1 off 4 (0x40000000 + x.2)).1) s
  match l.find? fun x => !(a.chip x.1).tookOffer with
  | some x => (l.foldl (fun b y => (b.sbPut y.1 off 4 0xC0000000).1) a, some x.1)
  | none =>
    let b := l.foldl (fun b y => (b.sbPut y.1 off 4 0x80000000).1) a
    (b.modTmc fun t => { t with commits := (t.commits.filter fun y => !l.any fun x => x.1 == y.1) ++ l.map fun x => (x.1, t.uptime) }, none)

/-- The chips that boot: their shares are kept for them until they can be offered (R52). -/
def State.booting (s : State) : List Nat := s.live.filter fun c => !(s.chip c).offerable && !bitOf s.tmc.dormant c

/-- The shares of a cap divided among `n` chips are kept for the chips that boot and for `more` (R48, R52). -/
def State.keepShares (s : State) (cap n : Nat) (more : List Nat) : State :=
  let l := s.booting.filter (fun c => !more.contains c) ++ more
  s.modTmc fun t => { t with wakeShare := (t.wakeShare.filter fun y => !l.contains y.1) ++ l.map fun c => (c, s.shareOf cap n c) }

/-- Divide a cap among `n` chips: the shares of the running ones are offered where any changes; those of the chips that boot are kept
for them (R48, R49, R52, R884). -/
def State.divide (s : State) (cap n : Nat) : State × Option Nat :=
  let l := s.targets cap n
  if l.all fun x => (s.chip x.1).pwr.share == x.2 then (s.keepShares cap n [], none)
  else match s.offerAll l with
    | (a, some c) => (a, some c)
    | (a, none) => (a.keepShares cap n [], none)

/-- A limit of the TMC has changed: the cap is divided again in its turn (R41, R888, R1011). -/
def State.redivide (s : State) : State :=
  if s.tmc.caps.any fun r => r.source == 2 then s else s.modTmc fun t => { t with caps := t.caps ++ [{ source := 2 }] }

/-! ## Waking (R42, R43, R52, R56, R57, R75, R999) -/

/-- The rails of a chip have not yet fallen, or it enters Dormant (R57). -/
def State.leaving (s : State) (c : Nat) : Bool :=
  let ch := s.chip c
  (ch.pwr.rails && (bitOf s.tmc.dormant c || ch.pwr.state == .dormantEntry || ch.pwr.state == .dormantReady)) ||
  (!ch.pwr.rails && ch.pwr.powerGood)

/-- A request for Active waits for chip `c`. -/
def MgmtWait.active (w : MgmtWait) (c : Nat) : Bool := w.typ == 0x30 && w.chip == c && w.payload.getD 1 0 == 1

/-- Answer a management request (R70); a session that has closed gets none. -/
def State.reply (s : State) (n typ status seq : Nat) (bytes : List Nat) : State :=
  if n < 4 then s.emit (.mgmt n (mgmtFrame typ 1 status seq bytes)) else s

/-- The wake of chip `c` is refused: the requests for it are answered with FIT and the chip's index, else WAKE_REFUSED is raised
(R52). -/
def State.wakeRefused (s : State) (c : Nat) : State :=
  let l := s.tmc.waits.filter fun w => w.active c
  if l.isEmpty then s.trayEvent 0x0E07 warn c
  else (l.foldl (fun a w => a.reply w.session w.typ cFIT w.seq [c]) s).modTmc fun t => { t with waits := t.waits.filter fun w => !w.active c }

/-- Whether chip `c`'s rails are to be enabled: the floor and the lowered shares of the running chips; the chips that boot are kept their
lowered shares too (R52). -/
def State.makeRoom (s : State) (c : Nat) : State × Bool :=
  let n := s.live.length + 1
  let cap := s.effective s.tmc.hostCap s.tmc.mgmtCap n
  if cap < s.floorFor n then (s, false)
  else
    let low := (s.targets cap n).filter fun x => x.2 < (s.chip x.1).pwr.share
    let (a, bad) := if low.isEmpty then (s, none) else s.offerAll low
    if bad.isSome then (a, false)
    else ((a.keepShares cap n [c]).modTmc fun t => { t with cap := cap }, true)

/-- The PMBus address of chip `c`'s power stage (R22). -/
def powerStageAddr (c : Nat) : Nat := 0x50 + c

/-- The rails of chip `c` are enabled (R42, R56); the tray leaves its sleep, and the requests for Active count from now (R71). -/
def State.enableRails (s : State) (c : Nat) : State :=
  ((s.modChip c fun ch => { ch with pwr := { ch.pwr with rails := true } }).modTmc fun t => { t with
    sleeping := false
    railsAt := t.railsAt.set c t.uptime
    waits := t.waits.map fun w => if w.active c then { w with enabledAt := some t.uptime } else w }).emit (.pmbus (powerStageAddr c) true)

/-- Wake chips in ascending index; those whose rails are enabled together form a start set (R52, R56, R57, R952). -/
def State.wakeNow (s : State) (mask : Nat) : State :=
  let (a, set) := (s.maskChips mask).foldl (fun (x : State × List Nat) c =>
    let b := x.1
    if b.leaving c then (b.modTmc fun t => { t with afterOff := t.afterOff ||| 2 ^ c }, x.2)
    else if (b.chip c).pwr.rails || (b.tmc.watch.getD c {}).failed then x
    else match b.makeRoom c with
      | (d, true) => (d.enableRails c, x.2 ++ [c])
      | (d, false) => (d.wakeRefused c, x.2)) (s, [])
  if set.isEmpty then a else a.modTmc fun t => { t with sets := t.sets ++ [set] }

/-- A wake, held while PWR_FAIL_N is low (R999). -/
def State.wake (s : State) (mask : Nat) : State :=
  if (s.maskChips mask).isEmpty then s
  else if s.tmc.pwrFail then s.modTmc fun t => { t with held := t.held ++ [{ mask := mask, since := t.uptime }] }
  else s.wakeNow mask

/-- DORMANT is written to chip `c` (R876, R877): its code, none where the chip does not answer. -/
def State.toDormant (s : State) (c : Nat) : State × Option Nat :=
  let (a, code) := s.sbPut c 0x60014 4 3
  (if code == some cOK then a.modTmc fun t => { t with dormant := t.dormant ||| 2 ^ c } else a, code)

/-- The chip watch of chip `c` is changed. -/
def State.modWatch (s : State) (c : Nat) (f : ChipWatch → ChipWatch) : State := s.modTmc fun t => { t with watch := t.watch.modify c f }

/-! ## Thresholds of the inlet (R1011, R1013) -/

/-- Degrees by which the altitude lowers the inlet temperatures (R1013). -/
def State.altitudeShift (s : State) : Int := ((s.cfg 36 2 - 3000) / 300 : Nat)

/-- The derated maximum (R1011); the inlet is in 1/16 degree. -/
def State.derated (s : State) : Nat :=
  let ovr := (s.tmc.inlet - (40 - s.altitudeShift) * 16) / 16
  s.trayType.maxCap - s.trayType.derate * ovr.toNat

/-- The thermal limit is set, never below the floor (R888, R1011). -/
def State.setThermal (s : State) (w : Nat) : State :=
  let new := max (s.floorFor s.live.length) (min w (min s.derated s.trayType.maxCap))
  if new == s.tmc.thermal then s else (s.modTmc fun t => { t with thermal := new }).redivide

end Sys2Proof.Machine
end

