-- ==== Sys2Proof/Machine/Mgmt.lean ====
section
/-! DEFINITION. The management protocol: sessions, the checks of a request, its action and its answer, and the TMC's pending work
(R33, R36, R39, R46 to R50, R52, R60 to R72, R747, R749, R750, R836, R839, R887). -/
namespace Sys2Proof.Machine

/-! ## Sessions (R60, R63, R66, R68) -/

/-- Session `n`. -/
def State.session (s : State) (n : Nat) : Mgmt := s.tmc.sessions.getD n {}

/-- Change session `n`. -/
def State.modSession (s : State) (n : Nat) (f : Mgmt → Mgmt) : State := s.modTmc fun t => { t with sessions := t.sessions.modify n f }

/-- A session number that names none. -/
abbrev noSession : Nat := 0xFF

/-- Session `n` is closed: its lease is released, and what it has asked for goes on without an answer (R66, R68). -/
def State.closeSession (s : State) (n : Nat) : State :=
  ((s.modSession n fun _ => {}).modTmc fun t => { t with
    lease := if t.lease == some n then none else t.lease
    waits := t.waits.map fun w => if w.session == n then { w with session := noSession } else w
    caps := t.caps.map fun r => if r.source == 1 && r.dest == n then { r with dest := noSession } else r }).emit (.mgmtClose n)

/-- A free value as a status (DESIGN CHOICE, log entry 40). -/
def State.replyFree (s : State) (n typ seq : Nat) : State :=
  let (d, a) := s.draw
  a.reply n typ ((Config.freeValue d).toNat % 256) seq []

/-- The longest payload of a frame (R60, R61). -/
abbrev maxPayload : Nat := 65536

/-- A request that needs a role, on session `n`, with a payload of `len` bytes: a frame that is too long closes the session (R61); then the
checks of R64, R65, R66 and R71 in this order, then its action. Serving it does not end tray sleep (R74; DESIGN CHOICE, log entry 68). -/
def State.request (s : State) (n seq typ len : Nat) (operator ok : Bool) (act : State → State) : State :=
  let e := s.session n
  let a := s.modSession n fun x => { x with last := s.tmc.uptime }
  if !s.tmc.up || !e.isOpen then s
  else if maxPayload < len then s.closeSession n
  else if e.role == 0 || (operator && e.role != 2) then a.reply n typ cPERM seq []
  else if operator && s.tmc.lease.isSome && s.tmc.lease != some n then a.reply n typ cBUSY seq []
  else
    let b := if operator then a.modTmc fun t => { t with lease := some n } else a
    if ok then act b else b.reply n typ cBOUNDS seq []

/-! ## The tray cap (R46 to R50) -/

/-- The payload of GET_TRAY_CAP, of the protocol and of the mailbox (R71). -/
def State.capBytes (s : State) : List Nat :=
  let t := s.tmc
  [t.hostCap, t.mgmtCap, t.thermal, s.fanLimit s.live.length, t.cap, 0].flatMap (leBytes 2) ++
  (List.range 4).flatMap fun c => leBytes 2 (if (s.chip c).pwr.rails then (s.chip c).pwr.share else 0)

/-- The answer of a TMC service is written to chip `c`: words 1 to 7, then word 0 (R984). -/
def State.answerChip (s : State) (c service seq code : Nat) (payload : List Nat) : State :=
  let a := s.forEach ((List.range 7).map (· + 1)) fun i b => (b.sbPut c (0x10800 + 8 * i) 8 (leAt payload (8 * (i - 1)) 8)).1
  (a.sbPut c 0x10800 8 (service + seq * 2 ^ 16 + code * 2 ^ 32)).1

/-- Answer a cap request: the effective cap in force, and the chip that refused or 0xFF (R49, R71). -/
def State.capAnswer (s : State) (r : CapReq) (code chip : Nat) : State :=
  let p := leBytes 2 s.tmc.cap ++ [chip]
  if r.source == 0 then s.answerChip r.dest svHOSTCAP r.seq code p
  else if r.source == 1 then s.reply r.dest 0x20 code r.seq p
  else s

/-- Carry out the oldest cap request; none while R887 makes it wait. -/
def State.capTry (s : State) (r : CapReq) : Option State :=
  let n := s.live.length
  let host := if r.source == 0 then r.cap else s.tmc.hostCap
  let mgmt := if r.source == 1 then r.cap else s.tmc.mgmtCap
  let cap := s.effective host mgmt n
  if r.source != 2 && (r.cap % 5 != 0 || s.trayType.maxCap < r.cap) then some (s.capAnswer r cBOUNDS 0xFF)
  else if r.source != 2 && r.cap < s.floorFor n then some (s.capAnswer r cFIT 0xFF)
  else if s.raiseWaits (s.targets cap n) then none
  else match s.divide cap n with
    | (a, some c) => some (a.capAnswer r cFIT c)
    | (a, none) => some ((a.modTmc fun t => { t with hostCap := host, mgmtCap := mgmt, cap := cap }).capAnswer r cOK 0xFF)

/-- Cap requests one at a time, in order of arrival (R50). -/
def State.capWork : Nat → State → State
  | 0, s => s
  | n + 1, s =>
    match s.tmc.caps with
    | [] => s
    | r :: rest =>
      match (s.modTmc fun t => { t with caps := rest }).capTry r with
      | none => s
      | some a => State.capWork n a

/-- A woken chip past HBM_TRAIN is offered the share that was kept for it (R52). -/
def State.shareWork (s : State) : State :=
  s.tmc.wakeShare.foldl (fun a x =>
    let ch := a.chip x.1
    let drop := fun (b : State) => b.modTmc fun t => { t with wakeShare := t.wakeShare.filter fun y => y.1 != x.1 }
    if !ch.pwr.rails then drop a
    else if !ch.offerable || ch.wdg.steward != .running || a.raiseWaits [x] then a
    else drop (a.offerAll [x]).1) s

/-! ## Flash writes and the configuration (R33, R36, R39, R69) -/

/-- Write bytes into the tray flash. -/
def State.flashPut (s : State) (a : Nat) (bytes : List Nat) : State := s.modTmc fun t => { t with flash := Memory.write t.flash a bytes }

/-- A copy with the next sequence goes into the other copy's place and into force (R39); while the factory copy is in force, which stands in
neither place, the model takes the place of copy 0 (DESIGN CHOICE, log entry 47). -/
def State.putConfig (s : State) (b : List Nat) : State :=
  let c := b.take 8 ++ leBytes 4 ((s.cfg 8 4 + 1) % 2 ^ 32) ++ (b.drop 12).take 4080
  let full := c ++ leBytes 4 (crc32c c)
  let i := if s.tmc.copyNo == 0 then 1 else 0
  let a := (s.flashPut (copyBase i) full).modTmc fun t => { t with config := full, copyNo := i }
  (a.modTmc fun t => { t with mgmtCap := a.cfgCap }).redivide

/-- The key entry `k` of a copy holds a point of the curve, or is empty (R39). -/
def keyPointOk (b : List Nat) (k : Nat) : Bool :=
  let key := sliceB b (116 + 104 * k) 97
  leAt b (112 + 104 * k) 1 == 0 || (key.getD 0 0 == 4 && onCurve (beNat ((key.drop 1).take 48)) (beNat ((key.drop 49).take 48)))

/-- CONFIG_WRITE (R39): the code, and the tray. -/
def State.configWrite (s : State) (b : List Nat) : State × Nat :=
  if sliceB b 16 8 != sliceB s.tmc.config 16 8 then (s, cPERM)
  else if !s.cfgValid b || !(List.range 8).any (fun k => leAt b (112 + 104 * k) 1 == 2) || !(List.range 8).all (keyPointOk b) then (s, cBOUNDS)
  else (s.putConfig b, cOK)

/-- PLATE_SELECT: the copy in force with the chip's byte of base_plate and its check changed (R71). -/
def State.plateSelect (s : State) (c slot : Nat) : State × Nat :=
  let b := (s.tmc.config.set (28 + c) slot).take 4092
  s.configWrite (b ++ leBytes 4 (crc32c b))

/-- The plate in a slot of the plate store verifies (R33, R158 to R160). -/
def State.plateOk (s : State) (slot : Nat) : Bool :=
  let base := flashBase 3 slot
  let so := leNat (s.tmc.flashBytes (base + 48) 4)
  let sig := s.tmc.flashBytes (base + so) 200
  let key := sliceB sig 4 97
  let dg := beNat (sha384 key)
  so + 200 ≤ 0x800000 && (dg == Config.holtadKeyDigest 1 || ((List.range 8).any fun i => beNat (sliceB s.tmc.config (944 + 48 * i) 48) == dg)) &&
  ecdsaOk key (sha384 (s.tmc.flashBytes base so)) (sliceB sig 104 96)

/-- The image in a slot of a region verifies (R33): a TMC image's layout is not given, and its outcome is a free value. -/
def State.imageOk (s : State) (region slot : Nat) : State × Bool :=
  if region == 1 then
    let (d, a) := s.draw
    (a, (Config.freeValue d).toNat % 2 == 1)
  else if region == 2 then (s, s.tmc.fwOk slot)
  else (s, s.plateOk slot)

/-- A slot is marked active (R33). -/
def Tmc.isActive (t : Tmc) (region slot : Nat) : Bool :=
  if region == 1 then t.tmcSlot == slot else if region == 2 then t.fwSlot == slot else bitOf t.plates slot

/-- Mark a slot active. -/
def Tmc.markActive (t : Tmc) (region slot : Nat) : Tmc :=
  if region == 1 then { t with tmcSlot := slot } else if region == 2 then { t with fwSlot := slot } else { t with plates := t.plates ||| 2 ^ slot }

/-- Carry out a request that programs the flash: its status, and the tray (R33, R36, R39, R69). -/
def State.flashAct (s : State) (typ : Nat) (p : List Nat) : State × Nat :=
  let region := p.getD 0 0
  let slot := p.getD 1 0
  match typ with
  | 0x50 =>
    if region == 0 || s.tmc.isActive region slot then (s, cPERM)
    else (s.flashPut (flashBase region slot + leAt p 4 4) (p.drop 8), cOK)
  | 0x51 =>
    if region == 0 then (s, cPERM)
    else match s.imageOk region slot with
      | (a, true) => (a.modTmc fun t => t.markActive region slot, cOK)
      | (a, false) => (a, cPLATEBAD)
  | 0x52 => s.plateSelect region slot
  | _ => s.configWrite p

/-! ## Requests whose action goes on (R36, R70, R71) -/

/-- The request programs the flash. -/
def MgmtWait.isFlash (w : MgmtWait) : Bool := 0x50 ≤ w.typ && w.typ ≤ 0x54

/-- The status with which a request can be answered now: none while its action goes on; `some none` where the chip has lost its rails
under it, for which no status is stated. -/
def State.waitDone (s : State) (w : MgmtWait) : Option (Option Nat) :=
  let ch := s.chip w.chip
  let gone := if ch.pwr.rails then none else some none
  match w.typ with
  | 0x30 =>
    match w.payload.getD 1 0 with
    | 1 =>
      let late := w.enabledAt.any fun t => decide (t + 2000000000 ≤ s.tmc.uptime)
      if ch.pwr.rails && !bitOf s.tmc.dormant w.chip && ch.stageNow == 0x0F then some (some cTIMEOUT)
      else if ch.pwr.rails && !bitOf s.tmc.dormant w.chip && ch.alive && 7 ≤ ch.stageNow then
        (if ch.pwr.state == .standby || ch.pwr.state == .exiting then none else some (some cOK))
      else if late then some (some cTIMEOUT)
      else none
    | 2 => if ch.pwr.state == .standby then some (some cOK) else gone
    | _ => if ch.pwr.rails then none else some (some cOK)
  | 0x31 => if ch.pwr.rails then (if ch.boot.pendingReset.isNone && ch.boot.stage != .reset then some (some cOK) else none) else gone
  | _ =>
    let busy := if w.payload.getD 1 0 == 1 then ch.twin.detaching.isSome else ch.twin.pair == .pairing
    if ch.pwr.rails && !busy then some (some cOK) else gone

/-- Answer the requests whose actions have ended, in order; flash requests are carried out while no chip holds the switch. -/
def State.waitWork (s : State) : State :=
  s.tmc.waits.foldl (fun a w =>
    if w.isFlash then
      if a.tmc.holder.isNone then
        let (b, code) := a.flashAct w.typ w.payload
        b.reply w.session w.typ code w.seq []
      else a.modTmc fun t => { t with waits := t.waits ++ [w] }
    else match a.waitDone w with
      | none => a.modTmc fun t => { t with waits := t.waits ++ [w] }
      | some (some code) => a.reply w.session w.typ code w.seq []
      | some none => a.replyFree w.session w.typ w.seq) (s.modTmc fun t => { t with waits := [] })

/-- What the TMC does when it can: shares of woken chips, cap requests, answers. -/
def State.trayWork (s : State) : State :=
  if !s.tmc.up then s
  else
    let a := s.shareWork
    (State.capWork (a.tmc.caps.length + 1) a).waitWork

/-- A command of the tray: its effect, and the work that it makes possible. -/
def trayRow (f : State → State) (s : State) : Host.Outcome State Fault Refusal := .next (f s).trayWork

/-- A command that only a TMC that has started performs. -/
def tmcRow (f : State → State) (s : State) : Host.Outcome State Fault Refusal := trayRow (fun x => if x.tmc.up then f x else x) s

/-- A command that names a chip of the tray. -/
def trayRowOf (c : Nat) (f : State → State) (s : State) : Host.Outcome State Fault Refusal :=
  if s.chips.length ≤ c then .fault (.noSuchChip c) else trayRow f s

/-- A command on a chip, which a TMC that has started performs. -/
def tmcRowOf (c : Nat) (f : State → State) (s : State) : Host.Outcome State Fault Refusal :=
  if s.chips.length ≤ c then .fault (.noSuchChip c) else tmcRow f s

/-- A request of the protocol, with a payload of `len` bytes, as a command. -/
def mgmtRow (n seq typ len : Nat) (operator : Bool) (ok : State → Bool) (act : State → State) (s : State) : Host.Outcome State Fault Refusal :=
  trayRow (fun x => x.request n seq typ len operator (ok x) act) s

/-- Have a request wait for the end of its action; `enabled` is the uptime at which the rails of its chip were enabled (R71). -/
def State.awaitFrom (s : State) (n seq typ chip : Nat) (payload : List Nat) (enabled : Option Nat) : State :=
  s.modTmc fun t => { t with waits := t.waits ++
    [{ session := n, seq := seq, typ := typ, chip := chip, since := t.uptime, payload := payload, enabledAt := enabled }] }

/-- Have a request wait for the end of its action. -/
def State.await (s : State) (n seq typ chip : Nat) (payload : List Nat) : State := s.awaitFrom n seq typ chip payload none

/-! ## Connections and frames (R60 to R62, R67, R68) -/

/-- A connection to the port opens a session; a fifth is closed (R60). -/
def execMgmtConnect (s : State) : Host.Outcome State Fault Refusal :=
  tmcRow (fun x =>
    match (List.range 4).find? fun n => !(x.session n).isOpen with
    | some n => x.modSession n fun _ => { isOpen := true, last := x.tmc.uptime }
    | none => x.emit (.mgmtClose 4)) s

/-- A frame is bad: its magic, version or CRC is wrong, or its length exceeds 65,536 (R60, R61). -/
def frameBad (b : List Nat) : Bool :=
  let len := leAt b 12 4
  b.take 4 != [0x53, 0x54, 0x4D, 0x50] || b.getD 4 0 != 1 || maxPayload < len || b.length != 20 + len ||
  crc32c (b.take (16 + len)) != leAt b (16 + len) 4

/-- A bad frame closes its session (R61). -/
def execMgmtBadFrame (n : Nat) (frame : List Nat) (s : State) : Host.Outcome State Fault Refusal :=
  tmcRow (fun x => if (x.session n).isOpen && frameBad frame then x.closeSession n else x) s

/-- The request types that R68's table lists. -/
def mgmtTypes : List Nat :=
  [0x01, 0x02, 0x10, 0x11, 0x20, 0x21, 0x30, 0x31, 0x40, 0x41, 0x50, 0x51, 0x52, 0x53, 0x54, 0x60]

/-- A request of a type that is not listed (R62, R64). -/
def execMgmtUnknownType (n seq typ len : Nat) (s : State) : Host.Outcome State Fault Refusal :=
  if mgmtTypes.contains typ then .next s else mgmtRow n seq typ len false (fun _ => false) id s

/-- Every 5 s a HEARTBEAT to each authenticated session: TIME of chip 0, 0 while it does not run, and the uptime in ms (R67, R71). -/
def execMgmtHeartbeat (s : State) : Host.Outcome State Fault Refusal :=
  tmcRow (fun x =>
    if x.tmc.beatAt + 5000000000 ≤ x.tmc.uptime then
      let ch := x.chip 0
      let p := leBytes 8 (if ch.alive then ch.time else 0) ++ leBytes 8 (x.tmc.uptime / 1000000)
      (x.forEach x.authSessions fun n a => a.sendTo n 0x7F p).modTmc fun t => { t with beatAt := t.uptime }
    else x) s

/-- A session from which no frame has come for 30 s is closed (R68). -/
def execMgmtSessionTimeout (n : Nat) (s : State) : Host.Outcome State Fault Refusal :=
  tmcRow (fun x => if (x.session n).isOpen && (x.session n).last + 30000000000 ≤ x.tmc.uptime then x.closeSession n else x) s

/-! ## HELLO and AUTH (R63) -/

/-- The 48 bytes of a challenge. -/
def challengeBytes (i : Nat) : List Nat := leBytes 48 (Config.challenge i)

/-- HELLO: a new challenge; on an authenticated session BUSY (R63). -/
def execHello (n seq : Nat) (payload : List Nat) (s : State) : Host.Outcome State Fault Refusal :=
  tmcRow (fun x =>
    let e := x.session n
    if !e.isOpen then x
    else if maxPayload < payload.length then x.closeSession n
    else
      let a := x.modSession n fun y => { y with last := x.tmc.uptime }
      if e.role != 0 then a.reply n 0x01 cBUSY seq []
      else if !payload.isEmpty then a.reply n 0x01 cBOUNDS seq []
      else
        let i := a.tmc.challenges
        ((a.modSession n fun y => { y with challenge := some i }).modTmc fun t => { t with challenges := i + 1 }).reply n 0x01 cOK seq (challengeBytes i)) s

/-- What an AUTH on a session that holds challenge `i` comes to: its code, and the role where it verifies (R63). -/
def State.authCode (s : State) (i : Option Nat) (p : List Nat) : Nat × Nat :=
  let k := p.getD 0 0
  let base := 112 + 104 * k
  let role := s.cfg base 1
  match i with
  | none => (cPERM, 0)
  | some j =>
    if p.length != 97 || 8 ≤ k then (cBOUNDS, 0)
    else if role == 0 || !ecdsaOk (sliceB s.tmc.config (base + 4) 97) (sha384 (challengeBytes j)) (p.drop 1) then (cPERM, 0)
    else (cOK, role)

/-- AUTH (R63, R66). -/
def execAuth (n seq : Nat) (payload : List Nat) (s : State) : Host.Outcome State Fault Refusal :=
  tmcRow (fun x =>
    let e := x.session n
    if !e.isOpen then x
    else if maxPayload < payload.length then x.closeSession n
    else
      let a := x.modSession n fun y => { y with last := x.tmc.uptime }
      if e.role != 0 then a.reply n 0x02 cBUSY seq []
      else
        let (code, role) := a.authCode e.challenge payload
        let b := (a.modSession n fun y => { y with
          challenge := none, role := role, fails := if code == cOK then y.fails else y.fails + 1 }).reply n 0x02 code seq []
        if code == cOK then (if role == 2 && b.tmc.lease.isNone then b.modTmc fun t => { t with lease := some n } else b)
        else if 3 ≤ e.fails + 1 then b.closeSession n else b) s

/-! ## Status and caps (R71, R72) -/

/-- The chip and link of a LINK OUT port; none where the tray has no such port (R23 to R25). -/
def State.portLink (s : State) (k : Nat) : Option (Nat × Nat) :=
  match s.trayType with
  | .st4 => if k < 4 then some (k, 3) else if k < 8 then some (k - 4, 4) else none
  | .st2 => if k < 4 && 1 + k / 2 < (s.chip 0).links.length then some (k % 2, 1 + k / 2) else none

/-- The state of LINK OUT port `k` (R72). -/
def State.portState (s : State) (k : Nat) : Nat :=
  match s.portLink k with
  | none => 0
  | some (c, n) =>
    match s.tmc.ports.getD k 0 with
    | 0 => 1
    | 1 => (match ((s.chip c).link n).state with
      | .up => 3
      | .held => 4
      | _ => 2)
    | _ => 5

/-- The 8 bytes of chip `c` in GET_STATUS; the temperature of a chip without rails is a free value (R72). Byte 2 is the slot that the chip's
release carried, as long as its rails are on (DESIGN CHOICE, log entry 48). -/
def State.statusChip (s : State) (c free : Nat) : List Nat :=
  if s.chips.length ≤ c then List.replicate 8 0
  else
    let ch := s.chip c
    let on := ch.pwr.rails
    let st := if on then ch.stateByte else if (s.tmc.watch.getD c {}).failed then 9 else 0
    let temp := if on then ch.pwr.dieTemp % 2 ^ 16 else (Config.freeValue free).toNat % 2 ^ 16
    [st, if on then ch.stageNow else 0xFF, if on && ch.boot.bootSlot < 12 then ch.boot.bootSlot else 0xFF,
     (if on then b2n (!ch.ler.fatals.isEmpty) + 2 * b2n ch.pwr.throttled else 0)] ++ leBytes 2 (if on then ch.pwr.share else 0) ++ leBytes 2 temp

/-- The 72 bytes of GET_STATUS (R72); the input power and the speeds of the fans are free values from index `f`. -/
def State.statusBytes (s : State) (f : Nat) : List Nat :=
  let t := s.tmc
  let free := fun (i n : Nat) => leBytes n (Config.freeValue (f + 8 * i)).toNat
  [s.trayType.value, s.chips.length, s.trayType.fans,
   b2n t.pwrFail + 2 * b2n t.sleeping + 4 * b2n t.filter + 8 * b2n (t.copyNo == 2)] ++
  leBytes 4 t.inputMv ++ free 0 4 ++ leBytes 2 (wrapInt 16 t.inlet) ++ [0, 0] ++
  (List.range 4).flatMap (fun c => s.statusChip c (f + 8 * (5 + c))) ++ (List.range 8).map s.portState ++
  (List.range 4).flatMap (fun i => if s.trayType.fans ≤ i || bitOf t.fanFault i then [0, 0] else free (1 + i) 2) ++
  [t.fanFault % 256, 0, 0, 0] ++ leBytes 4 (t.uptime / 1000000000)

/-- GET_STATUS (R72). -/
def execGetStatus (n seq : Nat) (payload : List Nat) (s : State) : Host.Outcome State Fault Refusal :=
  mgmtRow n seq 0x10 payload.length false (fun _ => payload.isEmpty) (fun x =>
    let f := x.draw.1
    (x.modTmc fun t => { t with free := t.free + 9 }).reply n 0x10 cOK seq (x.statusBytes f)) s

/-- GET_TELEMETRY (R71, R861). -/
def execGetTelemetry (n seq : Nat) (payload : List Nat) (s : State) : Host.Outcome State Fault Refusal :=
  mgmtRow n seq 0x11 payload.length false (fun x => payload.length == 2 && payload.getD 0 0 < x.chips.length && payload.getD 1 0 < 8) (fun x =>
    let c := payload.getD 0 0
    let b := (x.chip c).bg.telemetry.getD (payload.getD 1 0) []
    if !(x.chip c).alive || b.isEmpty then x.reply n 0x11 cBOUNDS seq [] else (x.sbSeen c).reply n 0x11 cOK seq b) s

/-- SET_TRAY_CAP (R46 to R50). -/
def execSetTrayCap (n seq : Nat) (payload : List Nat) (s : State) : Host.Outcome State Fault Refusal :=
  mgmtRow n seq 0x20 payload.length true (fun _ => payload.length == 2) (fun x => x.modTmc fun t => { t with
    caps := t.caps ++ [{ source := 1, cap := leAt payload 0 2, dest := n, seq := seq }] }) s

/-- GET_TRAY_CAP (R71). -/
def execGetTrayCap (n seq : Nat) (payload : List Nat) (s : State) : Host.Outcome State Fault Refusal :=
  mgmtRow n seq 0x21 payload.length false (fun _ => payload.isEmpty) (fun x => x.reply n 0x21 cOK seq x.capBytes) s

/-! ## Chips (R52, R71, R75, R111, R750, R836, R839) -/

/-- CHIP_POWER (R52, R71, R75, R750). -/
def execChipPower (n seq : Nat) (payload : List Nat) (s : State) : Host.Outcome State Fault Refusal :=
  mgmtRow n seq 0x30 payload.length true
    (fun x => payload.length == 2 && payload.getD 0 0 < x.chips.length && 1 ≤ payload.getD 1 0 && payload.getD 1 0 ≤ 3) (fun x =>
    let c := payload.getD 0 0
    let on := (x.chip c).pwr.rails
    let begin_ := fun (r : State × Option Nat) => match r with
      | (a, some 0) => a.await n seq 0x30 c payload
      | (a, some code) => a.reply n 0x30 code seq []
      | (a, none) => a.replyFree n 0x30 seq
    match payload.getD 1 0 with
    | 1 =>
      let stays := on && !x.leaving c
      let a := (x.awaitFrom n seq 0x30 c payload (if stays then some (x.tmc.railsAt.getD c 0) else none)).modWatch c fun w => { w with failed := false }
      if stays then (a.sbPut c 0x60014 4 1).1 else a.wake (2 ^ c)
    | 2 => if (x.chip c).bound then x.reply n 0x30 cBUSY seq [] else begin_ (x.sbPut c 0x60014 4 2)
    | _ =>
      if !on then x.reply n 0x30 cOK seq []
      else if (x.chip c).bound then x.reply n 0x30 cBUSY seq []
      else begin_ (x.toDormant c)) s

/-- The TMC resets chip `c` through the side-band; it forms a start set (R111, R952). -/
def State.resetChip (s : State) (c kind : Nat) : State :=
  (s.modChip c fun ch => (ch.sbServe fun y => y.sbReset kind 0xA5)).modTmc fun t => { t with sets := t.sets ++ [[c]] }

/-- CHIP_RESET (R71, R111). -/
def execChipReset (n seq : Nat) (payload : List Nat) (s : State) : Host.Outcome State Fault Refusal :=
  mgmtRow n seq 0x31 payload.length true
    (fun x => payload.length == 2 && payload.getD 0 0 < x.chips.length && 1 ≤ payload.getD 1 0 && payload.getD 1 0 ≤ 3) (fun x =>
    let c := payload.getD 0 0
    if (x.chip c).alive then (x.resetChip c (payload.getD 1 0)).await n seq 0x31 c payload else x.replyFree n 0x31 seq) s

/-- `k` frames of a chip from a slot on, until one cannot be read: frames, their bytes, the code, the chip (R838, R839). -/
def Chip.lerFrames : Nat → Nat → Chip → Nat × List Nat × Nat × Chip
  | 0, _, ch => (0, [], cOK, ch)
  | k + 1, slot, ch =>
    if ch.slotBusy slot then (0, [], cBUSY, ch)
    else
      let (a, code, b) := ch.slotBytes slot
      if code != cOK then (0, [], code, a)
      else
        let (m, l, e, d) := Chip.lerFrames k ((slot + 1) % 4096) a
        (m + 1, b ++ l, e, d)

/-- READ_LER (R71, R839). -/
def execReadLer (n seq : Nat) (payload : List Nat) (s : State) : Host.Outcome State Fault Refusal :=
  mgmtRow n seq 0x40 payload.length false
    (fun x => payload.length == 4 && payload.getD 0 0 < x.chips.length && 1 ≤ payload.getD 1 0 && payload.getD 1 0 ≤ 15 && leAt payload 2 2 < 4096)
    (fun x =>
      let c := payload.getD 0 0
      let first := leAt payload 2 2
      if !(x.chip c).alive then x.replyFree n 0x40 seq
      else
        let (m, bytes, code, ch) := Chip.lerFrames (payload.getD 1 0) first (x.chip c)
        ((x.modChip c fun _ => { ch with sb := { ch.sb with frame := (first + m) % 4096, pos := 0 } }).sbSeen c).reply n 0x40 code seq
          ([m, 0, 0, 0] ++ bytes)) s

/-- RELEASE_LER (R71, R836). -/
def execReleaseLer (n seq : Nat) (payload : List Nat) (s : State) : Host.Outcome State Fault Refusal :=
  mgmtRow n seq 0x41 payload.length true (fun x => payload.length == 1 && payload.getD 0 0 < x.chips.length) (fun x =>
    let c := payload.getD 0 0
    if (x.chip c).alive then
      ((x.modChip c fun ch => ch.lerRelease agSB).sbSeen c).reply n 0x41 cOK seq (leBytes 8 (x.chip c).ler.newestSeq)
    else x.replyFree n 0x41 seq) s

/-! ## Flash and configuration (R33, R36, R39, R69, R71) -/

/-- The slots of a region (R71). -/
def slotsOf (region : Nat) : Nat := if region == 1 || region == 2 then 2 else if region == 3 then 12 else 0

/-- A request that programs the flash waits for its turn (R36). -/
def flashRow (n seq typ : Nat) (payload : List Nat) (ok : State → Bool) (s : State) : Host.Outcome State Fault Refusal :=
  mgmtRow n seq typ payload.length true ok (fun x => x.await n seq typ 0 payload) s

/-- The request names region 0: it is answered with PERM (R69, R71). -/
def toRecovery (payload : List Nat) : Bool := !payload.isEmpty && payload.getD 0 0 == 0

/-- FLASH_WRITE (R33, R36, R69). -/
def execFlashWrite (n seq : Nat) (payload : List Nat) (s : State) : Host.Outcome State Fault Refusal :=
  flashRow n seq 0x50 payload (fun _ => toRecovery payload || (9 ≤ payload.length && payload.length ≤ 65536 &&
    payload.getD 1 0 < slotsOf (payload.getD 0 0) && leAt payload 4 4 + (payload.length - 8) ≤ flashSize (payload.getD 0 0))) s

/-- FLASH_COMMIT (R33). -/
def execFlashCommit (n seq : Nat) (payload : List Nat) (s : State) : Host.Outcome State Fault Refusal :=
  flashRow n seq 0x51 payload (fun _ => toRecovery payload || (payload.length == 2 && payload.getD 1 0 < slotsOf (payload.getD 0 0))) s

/-- PLATE_SELECT (R71). -/
def execPlateSelect (n seq : Nat) (payload : List Nat) (s : State) : Host.Outcome State Fault Refusal :=
  flashRow n seq 0x52 payload
    (fun x => payload.length == 2 && payload.getD 0 0 < x.chips.length && (payload.getD 1 0 < 12 || payload.getD 1 0 == 0xFF)) s

/-- CONFIG_READ (R71). -/
def execConfigRead (n seq : Nat) (payload : List Nat) (s : State) : Host.Outcome State Fault Refusal :=
  mgmtRow n seq 0x53 payload.length false (fun _ => payload.isEmpty) (fun x => x.reply n 0x53 cOK seq (sliceB x.tmc.config 0 4096)) s

/-- CONFIG_WRITE (R39). -/
def execConfigWrite (n seq : Nat) (payload : List Nat) (s : State) : Host.Outcome State Fault Refusal :=
  flashRow n seq 0x54 payload (fun _ => payload.length == 4096) s

/-! ## Twins (R747, R749) -/

/-- TWIN_CONTROL: TWIN.CTRL of the pair's first chip that runs is written (R747, R749). -/
def execTwinControl (n seq : Nat) (payload : List Nat) (s : State) : Host.Outcome State Fault Refusal :=
  mgmtRow n seq 0x60 payload.length true
    (fun x => payload.length == 2 && 2 * payload.getD 0 0 < x.chips.length && (payload.getD 1 0 == 1 || payload.getD 1 0 == 2)) (fun x =>
    let a := 2 * payload.getD 0 0
    let c := if (x.chip a).alive then a else a + 1
    match x.sbPut c 0x70004 4 (payload.getD 1 0) with
    | (b, some 0) => b.await n seq 0x60 c payload
    | (b, some code) => b.reply n 0x60 code seq []
    | (b, none) => b.replyFree n 0x60 seq) s

end Sys2Proof.Machine
end

