-- ==== Sys2Proof/Machine/TrayRows.lean ====
section
/-! DEFINITION. The TMC's own operations: start, waking, rails, polls, recovery of a chip, power-fail, fans, temperatures, the flash
switch, events of a chip (R35 to R44, R55 to R58, R74, R794, R795, R840, R877, R888, R934, R952, R995 to R999, R1007, R1011 to
R1015). -/
namespace Sys2Proof.Machine

/-! ## Start (R38, R43, R1000) -/

/-- The input is within the range in which PWR_FAIL_N may rise, and the pin is released (R998). -/
def Tmc.inputGood (t : Tmc) : Bool := 40000 ≤ t.inputMv && t.inputMv ≤ 60000 && !t.pinFail

/-- The TMC as it starts: the flash, the marks of its slots, the input, the sensors and the cages are as they were. -/
def Tmc.started (t : Tmc) (ty : TrayType) : Tmc :=
  { up := true, flash := t.flash, tmcSlot := t.tmcSlot, fwSlot := t.fwSlot, plates := t.plates
    hostCap := ty.maxCap, mgmtCap := ty.maxCap, thermal := ty.maxCap, cap := ty.maxCap
    fanFault := t.fanFault, inlet := t.inlet, inputMv := t.inputMv, pinFail := t.pinFail, pwrFail := t.pwrFail
    goodSince := if t.inputGood then some 0 else none
    ports := t.ports, challenges := t.challenges, fanDuty := if t.fanFault == 0 then t.fanDuty else 100, free := t.free, out := t.out }

/-- The inlet's temperature is read: since when it has been above the shutdown limit, or at or below the return limit (R1012, R1013). -/
def State.seeInlet (s : State) (x : Int) : State :=
  let up := s.tmc.uptime
  let shift := s.altitudeShift
  s.modTmc fun t => { t with
    inlet := x
    hotSince := if (60 - shift) * 16 < x then some (t.hotSince.getD up) else none
    coolSince := if x ≤ (50 - shift) * 16 then some (t.coolSince.getD up) else none }

/-- The network settings of the copy in force take effect (R39). -/
def State.bindNetwork (s : State) : State := s.modTmc fun t => { t with net := sliceB t.config 27 1 ++ sliceB t.config 40 72 }

/-- The TMC starts: every chip is off, the configuration is chosen, and power_on_set is powered (R38, R43). -/
def execTmcStart (s : State) : Host.Outcome State Fault Refusal :=
  trayRow (fun x =>
    let a : State := { x with
      tmc := x.tmc.started x.trayType
      chips := x.chips.map fun ch => if ch.pwr.rails || ch.pwr.powerGood then ch.powerOff else ch }
    let b := a.selectConfig.bindNetwork
    let d := (b.modTmc fun t => { t with mgmtCap := b.cfgCap }).seeInlet x.tmc.inlet
    let e := d.modTmc fun t => { t with cap := d.effective t.hostCap t.mgmtCap 0 }
    e.wake e.powerOnSet) s

/-! ## Waking and rails (R37, R42, R55 to R57, R74, R877) -/

/-- WAKE is asserted (R55). -/
def execWakeAssert (s : State) : Host.Outcome State Fault Refusal := tmcRow (fun x => x.wake x.wakeSet) s

/-- The wake timer of a tray sleep runs out (R37). -/
def execWakeTimer (s : State) : Host.Outcome State Fault Refusal :=
  tmcRow (fun x =>
    let secs := x.cfg 32 4
    if x.tmc.sleeping && !x.tmc.timerDone && secs != 0 && x.tmc.sleepAt + secs * 1000000000 ≤ x.tmc.uptime then
      (x.modTmc fun t => { t with timerDone := true }).wake x.wakeSet
    else x) s

/-- Every chip is Dormant: the TMC enters low power (R74). -/
def execTraySleepEnter (s : State) : Host.Outcome State Fault Refusal :=
  tmcRow (fun x =>
    if x.live.isEmpty && x.chips.all (fun ch => !ch.pwr.powerGood) && !x.tmc.sleeping then
      x.modTmc fun t => { t with sleeping := true, sleepAt := t.uptime, timerDone := false }
    else x) s

/-- The power stage of chip `c` reports power good: WAKE_N is low for 20 µs (R56, R879). -/
def execRailsPowerGood (c : Nat) (s : State) : Host.Outcome State Fault Refusal :=
  tmcRowOf c (fun x =>
    let ch := x.chip c
    if ch.pwr.rails && !ch.pwr.powerGood then
      (x.modChip c fun y => ({ y with pwr := { y.pwr with powerGood := true } } : Chip).wakePulse 20000).emit (.pin (pinWake + 16 * c) false)
    else x) s

/-- The TMC turns a chip's main rails off (R42). -/
def State.disableRails (s : State) (c : Nat) : State :=
  (s.modChip c fun ch => { ch with pwr := { ch.pwr with rails := false } }).emit (.pmbus (powerStageAddr c) false)

/-- The main rails of chip `c` have fallen: a wake that waited for this proceeds, and the cap is divided anew (R48, R57, R124, R878). -/
def execRailsOff (c : Nat) (s : State) : Host.Outcome State Fault Refusal :=
  trayRowOf c (fun x =>
    if !((x.chip c).pwr.rails || (x.chip c).pwr.powerGood) then x
    else
      let again := bitOf x.tmc.afterOff c
      let clear := fun (m : Nat) => if bitOf m c then m - 2 ^ c else m
      let a := ((x.modChip c fun ch => ch.powerOff).dropSwitch c).modTmc fun t => { t with
        dormant := clear t.dormant
        afterOff := clear t.afterOff
        commits := t.commits.filter fun y => y.1 != c
        wakeShare := t.wakeShare.filter fun y => y.1 != c
        watch := t.watch.modify c fun w => { w with beat := none, step := 0 }
        sets := (t.sets.map fun l => l.filter fun i => i != c).filter fun l => !l.isEmpty }
      if !a.tmc.up then a else if again then (a.wake (2 ^ c)).redivide else a.redivide) s

/-- The TMC reads PWR.STATE of a chip on its way to Dormant, and switches its rails off at DORMANT_READY (R877). -/
def execTmcDormantPoll (c : Nat) (s : State) : Host.Outcome State Fault Refusal :=
  tmcRowOf c (fun x =>
    if bitOf x.tmc.dormant c && (x.chip c).alive then
      let a := x.sbSeen c
      if (x.chip c).pwr.state == .dormantReady then a.disableRails c else a
    else x) s

/-! ## The flash switch (R35, R36) -/

/-- Chips of a mask ask for the flash switch together (R35). -/
def execFlashSwitchRequest (mask : Nat) (s : State) : Host.Outcome State Fault Refusal := tmcRow (fun x => x.askSwitch mask) s

/-- The grant of chip `c` ends: suspended programming resumes, or the next chip is granted (R35, R36). -/
def execFlashSwitchEnd (c : Nat) (s : State) : Host.Outcome State Fault Refusal :=
  tmcRowOf c (fun x => if x.tmc.holder == some c then x.dropSwitch c else x) s

/-! ## Polls of a booting chip and of its mailbox (R934, R935, R952) -/

/-- A chip of a start set is ready for the release: it waits for it, or has failed. -/
def Chip.atGate (ch : Chip) : Bool := ch.alive && ch.boot.pendingReset.isNone && (ch.stageNow == 3 || ch.stageNow == 0x0F)

/-- The release of chip `c` with its base-plate slot (R952). -/
def State.releaseChip (s : State) (c : Nat) : State :=
  let slot := s.cfg (28 + c) 1
  if (s.chip c).stageNow == 3 then (s.sbPut c 0x108 4 ((if slot < 12 then slot else 0xF) * 16 + 1)).1 else s

/-- The TMC reads BOOT_STAGE of the booting chips; each start set that waits as a whole is released in ascending index. A chip that
waits in no set is a set of its own (R952). -/
def execTmcBootPoll (s : State) : Host.Outcome State Fault Refusal :=
  tmcRow (fun x =>
    let booting := x.live.filter fun c => (x.chip c).alive && (x.chip c).stageNow < 7
    let a := x.forEach booting fun c b => b.sbSeen c
    let alone := booting.filter fun c => (x.chip c).stageNow == 3 && !(x.chip c).boot.released && !x.tmc.sets.any fun l => l.contains c
    let sets := ((x.tmc.sets ++ alone.map fun c => [c]).map fun l => l.filter fun c => (x.chip c).pwr.rails).filter fun l => !l.isEmpty
    let ready := fun (l : List Nat) => l.all fun c => (x.chip c).atGate
    let d := (sets.filter ready).foldl (fun b l => b.forEach (l.mergeSort fun i j => i ≤ j) fun c e => e.releaseChip c) a
    d.modTmc fun t => { t with sets := sets.filter fun l => !ready l }) s

/-- The TMC reads STEWARD.TMC_REQ of chip `c` and serves the request (R934, R935, R984). -/
def execTmcReqPoll (c : Nat) (s : State) : Host.Outcome State Fault Refusal :=
  tmcRowOf c (fun x =>
    let m := (x.chip c).mbox
    let a := x.sbSeen c
    if !(x.chip c).alive then x
    else if !m.tmcValid then a
    else if m.tmcService == svHOSTCAP then
      (if a.tmc.caps.any fun r => r.source == 0 && r.dest == c && r.seq == m.tmcSeq then a
       else a.modTmc fun t => { t with caps := t.caps ++ [{ source := 0, cap := m.tmcArg, dest := c, seq := m.tmcSeq }] })
    else if m.tmcService == svTRAYCAP then a.answerChip c m.tmcService m.tmcSeq cOK a.capBytes
    else match a.toDormant c with
      | (b, some code) => b.answerChip c m.tmcService m.tmcSeq code []
      | (b, none) => b) s

/-! ## The TMC level of the timeout ladder (R44, R795, R958) -/

/-- The TMC reads the heartbeat of chip `c`: one that advances ends a recovery; one that has stalled for 5 s, or a chip halted on
FATAL, begins one (R44, R795). -/
def State.readBeat (s : State) (c : Nat) : State :=
  let ch := s.chip c
  let w := s.tmc.watch.getD c {}
  let up := s.tmc.uptime
  if !ch.alive || ch.stageNow < 4 then s.modWatch c fun y => { y with beat := none }
  else
    let halted := ch.stageNow == 0x0F
    let a := s.sbSeen c
    match w.beat with
    | none => a.modWatch c fun y => { y with beat := some (ch.wdg.heartbeat, up), step := if halted then max y.step 1 else y.step }
    | some (v, t) =>
      if v != ch.wdg.heartbeat then
        a.modWatch c fun y => { y with
          beat := some (ch.wdg.heartbeat, up), step := if halted then max y.step 1 else if y.stepAt < up then 0 else y.step }
      else if halted || t + 5000000000 ≤ up then a.modWatch c fun y => { y with step := max y.step 1 }
      else a

/-- The TMC reads the heartbeat of chip `c` (R44). -/
def execTmcHeartbeatCheck (c : Nat) (s : State) : Host.Outcome State Fault Refusal :=
  tmcRowOf c (fun x => if bitOf x.tmc.dormant c then x else x.readBeat c) s

/-- The chip is turned off as failed (R795 step 4). -/
def State.chipFailed (s : State) (c n : Nat) : State :=
  (((s.disableRails c).modWatch c fun w => { w with failed := true, step := 0 })).relay s.openSessions 0xFF (s.trayEntry 0x0E03 fatal c n)

/-- The next step of the recovery of chip `c`, 5 s after the one before: not while its watchdogs are frozen; a side-band reset, cold
resets, and after three of these within an hour its rails go off (R795, R958). -/
def execTmcRecoveryStep (c : Nat) (s : State) : Host.Outcome State Fault Refusal :=
  tmcRowOf c (fun x0 =>
    if bitOf x0.tmc.dormant c then x0
    else
      let x := x0.readBeat c
      let w := x.tmc.watch.getD c {}
      let up := x.tmc.uptime
      let ch := x.chip c
      let at' := fun (k : Nat) (y : ChipWatch) => { y with step := k, stepAt := up, beat := none }
      if w.step == 0 || !ch.pwr.rails then x
      else if w.step == 1 then
        if up < w.stepAt + 5000000000 && w.stepAt != 0 then x
        else if ch.wdg.frozen then x.modWatch c fun y => { y with stepAt := up }
        else (x.resetChip c 3).modWatch c (at' 2)
      else if up < w.stepAt + 5000000000 then x
      else
        let recent := w.cold.filter fun t => up < t + 3600000000000
        if 3 ≤ recent.length then x.chipFailed c recent.length
        else (x.resetChip c 2).modWatch c fun y => { at' 3 y with cold := up :: recent }) s

/-- SMB_ALERT_N of chip `c` is low: the TMC reads EVT.FATAL_ENTRY, relays it to its sessions and acknowledges it (R73, R794, R840). -/
def execSmbAlertN (c : Nat) (s : State) : Host.Outcome State Fault Refusal :=
  tmcRowOf c (fun x =>
    match (x.chip c).alive, (x.chip c).ler.fatals with
    | true, e :: _ => ((x.relay x.authSessions c e).sbPut c 0x50034 4 1).1
    | _, _ => x) s

/-! ## PWR_FAIL (R58, R995, R997 to R999) -/

/-- What the input monitor and the PWR_FAIL pin see: PWR_FAIL_N falls at every chip (R58, R119, R995). -/
def execPwrFailAssert (pin : Bool) (mv : Nat) (s : State) : Host.Outcome State Fault Refusal :=
  trayRow (fun x =>
    let a := x.modTmc fun t => { t with pinFail := pin, inputMv := mv }
    let b := a.modTmc fun t => { t with goodSince := if t.inputGood then some (t.goodSince.getD t.uptime) else none }
    if (pin || mv < 38000 || 64000 < mv) && !x.tmc.pwrFail then
      { b.modTmc fun t => { t with pwrFail := true } with chips := b.chips.map Chip.pwrFall }
    else b) s

/-- The pin is released and the input reads `mv`: after 100 ms of this PWR_FAIL_N rises, and the wakes held are served in order
(R955, R998, R999). -/
def execPwrFailRelease (mv : Nat) (s : State) : Host.Outcome State Fault Refusal :=
  trayRow (fun x =>
    let a := x.modTmc fun t => { t with pinFail := false, inputMv := mv }
    let b := a.modTmc fun t => { t with goodSince := if t.inputGood then some (t.goodSince.getD t.uptime) else none }
    match b.tmc.pwrFail, b.tmc.goodSince with
    | true, some g =>
      if g + 100000000 ≤ b.tmc.uptime then
        let d : State := { b.modTmc fun t => { t with pwrFail := false, held := [] } with chips := b.chips.map Chip.pwrRise }
        b.tmc.held.foldl (fun e h => e.wake h.mask) d
      else b
    | _, _ => b) s

/-- A wake held for 60 s is discarded (R999); no status is stated for a request that asked for it. -/
def execWakeHoldDiscard (s : State) : Host.Outcome State Fault Refusal :=
  tmcRow (fun x =>
    let old := x.tmc.held.filter fun h => h.since + 60000000000 ≤ x.tmc.uptime
    let a := x.modTmc fun t => { t with held := t.held.filter fun h => t.uptime < h.since + 60000000000 }
    let b := old.foldl (fun y h => y.trayEvent 0x0E04 warn h.mask) a
    let dead := fun (w : MgmtWait) => old.any fun h => h.mask == 2 ^ w.chip && w.active w.chip && w.since ≤ h.since
    ((b.tmc.waits.filter dead).foldl (fun y w => y.replyFree w.session w.typ w.seq) b).modTmc fun t => { t with
      waits := t.waits.filter fun w => !dead w }) s

/-! ## Fans, temperatures, the filter, the cages (R40, R41, R888, R1007, R1011, R1012, R1015) -/

/-- Fan `f` fails: the others are driven at full speed (R40, R41). -/
def execFanFail (f : Nat) (s : State) : Host.Outcome State Fault Refusal :=
  tmcRow (fun x =>
    if x.trayType.fans ≤ f || bitOf x.tmc.fanFault f then x
    else
      let m := x.tmc.fanFault ||| 2 ^ f
      let a := x.modTmc fun t => { t with fanFault := m, fanDuty := 100 }
      if x.tmc.fanFault == 0 then a.trayEvent 0x0E01 warn f else (a.trayEvent 0x0E02 err m).redivide) s

/-- A step of the thermal limit: down by 10 W a second while a die is hot, up by 5 W each 10 s while every die is cool (R888). -/
def execThermalLimitStep (s : State) : Host.Outcome State Fault Refusal :=
  tmcRow (fun x =>
    let dies := (x.live.filter fun c => (x.chip c).alive).map fun c => sgn 16 (x.chip c).pwr.dieTemp
    let t := x.tmc
    if dies.any (fun d => 95 * 16 ≤ d) then
      (if t.thermalAt + 1000000000 ≤ t.uptime then (x.modTmc fun y => { y with thermalAt := t.uptime }).setThermal (t.thermal - 10) else x)
    else if dies.all (fun d => d ≤ 85 * 16) then
      (if t.thermalAt + 10000000000 ≤ t.uptime then (x.modTmc fun y => { y with thermalAt := t.uptime }).setThermal (t.thermal + 5) else x)
    else x) s

/-- The inlet reads `x` in 1/16 degree: a limit above the derated maximum is lowered to it (R1011). -/
def execInletDerate (x : Int) (s : State) : Host.Outcome State Fault Refusal :=
  tmcRow (fun y => let a := y.seeInlet x; a.setThermal (min a.tmc.thermal a.derated)) s

/-- After 10 s above the limit every chip is taken to Dormant, with an event for the first; after 5 minutes at or below the return
limit they are woken (R1012). -/
def execInletShutdown (s : State) : Host.Outcome State Fault Refusal :=
  tmcRow (fun x =>
    let t := x.tmc
    let past := fun (o : Option Nat) (ns : Nat) => o.any fun g => decide (g + ns ≤ t.uptime)
    if past t.hotSince 10000000000 then
      let due := x.live.filter fun c => !bitOf t.dormant c
      let fresh := due.filter fun c => !bitOf t.inletDown c
      let a := if fresh.isEmpty then x else x.trayEvent 0x0E05 err (wrapInt 16 t.inlet)
      a.forEach due fun c b => ((b.modTmc fun y => { y with inletDown := y.inletDown ||| 2 ^ c }).toDormant c).1
    else if past t.coolSince 300000000000 && t.inletDown != 0 then (x.modTmc fun y => { y with inletDown := 0 }).wake t.inletDown
    else x) s

/-- The duty at which the TMC drives the fans: what it sets by the chips' temperatures, or full speed once one has failed (R40). -/
def Tmc.duty (t : Tmc) (asked : Nat) : Nat := if t.fanFault == 0 then asked else 100

/-- The TMC has set the fans' duty in percent, and the tray's draw in W is read (R1015). -/
def execFilterWarning (asked draw : Nat) (s : State) : Host.Outcome State Fault Refusal :=
  tmcRow (fun x0 =>
    let duty := x0.tmc.duty asked
    let x := x0.modTmc fun y => { y with fanDuty := duty }
    let t := x.tmc
    if 80 < duty && t.inlet ≤ 25 * 16 && 2 * draw ≤ x.trayType.maxCap then
      let g := t.filterSince.getD t.uptime
      let a := x.modTmc fun y => { y with filterSince := some g }
      if g + 600000000000 ≤ t.uptime && !t.filter then (a.modTmc fun y => { y with filter := true }).trayEvent 0x0E06 warn 0 else a
    else x.modTmc fun y => { y with filterSince := none, filter := false }) s

/-- What stands in the cage of LINK OUT `k`: nothing, a passive cable, or a module that declares `mw` milliwatts (R1007). -/
def execLinkOutModuleInsert (k : Nat) (present passive : Bool) (mw : Nat) (s : State) : Host.Outcome State Fault Refusal :=
  tmcRow (fun x => x.modTmc fun t => { t with
    ports := t.ports.set k (if !present then 0 else if passive || mw ≤ 3500 then 1 else 2) }) s

end Sys2Proof.Machine
end

