-- ==== Sys2Proof/Machine/Clock.lean ====
section
/-! DEFINITION. The passing of one nanosecond, which the tray spends on an empty queue: clocks, counters and the watchdogs' counts
(R9, R10, R353, R378, R487, R782, R786, R791, R792, R804, R845, R869, R981), and the work that the TMC has waiting (DESIGN CHOICE, log entry 5). -/
namespace Sys2Proof.Machine

/-- Fabric cycles that begin in the next nanosecond, and the phase after it (R9). -/
def Chip.cycles (ch : Chip) : Nat × Nat :=
  if ch.fcRuns then ((ch.phase + ch.pwr.fc) / 1000, (ch.phase + ch.pwr.fc) % 1000) else (0, ch.phase)

/-- `n` fabric cycles at a core: its cycle count, and its watchdog unless a slot holds it (R353, R378, R845). -/
def Core.cycle (n : Nat) (held : Bool) (x : Core) : Core :=
  { x with
    tcycles := x.tcycles + n
    wdgLeft := if x.active && !held then x.wdgLeft - n else x.wdgLeft }

/-- `n` fabric cycles at a pod: the count of those in which its MAC engine executes (R487). -/
def Pod.cycle (n : Nat) (held : Bool) (d : Pod) : Pod :=
  if !held && d.arrq.any (fun q => q.2 && q.1.onMac) then { d with busyCycles := (d.busyCycles + n) % 2 ^ 64 } else d

/-- A nanosecond of WOSC, or of its replacement, at 32,000 Hz: the chip watchdog's count, and the measured frequency (R786, R792,
R798, R804). -/
def Watchdogs.nano (w : Watchdogs) (time : Nat) : Watchdogs :=
  let hz := if !w.backup && time % 16000000 == 0 then 32000 else w.woscHz
  if w.frozen then { w with woscHz := hz }
  else if w.phase + 32000 < 1000000000 then { w with phase := w.phase + 32000, woscHz := hz }
  else { w with phase := w.phase + 32000 - 1000000000, left := w.left - 1, woscHz := hz }

/-- A nanosecond at a chip. -/
def Chip.nano (ch : Chip) : Chip :=
  if !ch.alive then ch
  else
    let (n, ph) := ch.cycles
    let t := ch.time + 1
    let held := fun (p : Option Nat) => p.any fun q => (ch.part q).inSlot
    let w := ch.wdg.nano t
    let a : Chip := { ch with
      time := t
      phase := ph
      cores := if n == 0 then ch.cores else ch.cores.mapIdx fun k x => x.cycle n (held (ch.partOfCore k))
      pods := if n == 0 then ch.pods else ch.pods.mapIdx fun d x => x.cycle n (held (ch.partOfPod d))
      wdg := { w with stwLeft := if w.steward == .running then w.stwLeft - 1 else w.stwLeft }
      pwr := { ch.pwr with idleSince := if ch.pwr.state == .active && ch.idleOk then some (ch.pwr.idleSince.getD t) else none } }
    let b := a.unloadDone
    if 4 ≤ b.boot.stage.value && b.boot.stage != .failed then b.checkOverdue else b

/-- A nanosecond of the tray. -/
def State.nano (s : State) : State :=
  ({ s with
    chips := s.chips.map Chip.nano
    tmc := if s.tmc.up then { s.tmc with uptime := s.tmc.uptime + 1 } else s.tmc } : State).trayWork

end Sys2Proof.Machine
end

