-- ==== Sys2Proof/Machine/CoreScalar.lean ====
section
/-! DEFINITION. The scalar instructions and the branches of a core (R314 to R316). -/
namespace Sys2Proof.Machine

/-- sD = f sA sB (format R). -/
def scalar3 (c k : Nat) (w : W64) (f : W64 → W64 → W64) (s : State) : Host.Outcome State Fault Refusal :=
  regOp c k w (mD ||| mA ||| mB) (fun x => x.setS (fD w) (f (x.getS (fA w)) (x.getS (fB w)))) s

/-- sD = f sA (format R). -/
def scalar2 (c k : Nat) (w : W64) (f : W64 → W64) (s : State) : Host.Outcome State Fault Refusal :=
  regOp c k w (mD ||| mA) (fun x => x.setS (fD w) (f (x.getS (fA w)))) s

/-- sD = f sA imm, imm being IMM32 sign-extended (format I). -/
def scalarI (c k : Nat) (w : W64) (f : W64 → W64 → W64) (s : State) : Host.Outcome State Fault Refusal :=
  regOp c k w (mD ||| mA ||| mIMM) (fun x => x.setS (fD w) (f (x.getS (fA w)) (simm w))) s

/-- sD = f sA count, count being IMM32 bits 5:0; its bits 31:6 must be 0. -/
def scalarSh (c k : Nat) (w : W64) (f : W64 → Nat → W64) (s : State) : Host.Outcome State Fault Refusal :=
  regOp c k w (mD ||| mA ||| 0x3F) (fun x => x.setS (fD w) (f (x.getS (fA w)) (bitsOf w.toNat 0 6))) s

/-- A truth value as a 64-bit word. -/
def truth (b : Bool) : W64 := if b then 1 else 0

/-- The high 64 bits of the signed product. -/
def mulhS (a b : W64) : W64 := BitVec.ofInt 64 ((a.toInt * b.toInt) / 2 ^ 64)

/-- The high 64 bits of the unsigned product. -/
def mulhU (a b : W64) : W64 := BitVec.ofNat 64 (a.toNat * b.toNat / 2 ^ 64)

/-- The signed quotient, truncated toward zero; R315 for 0 and overflow. -/
def divS (a b : W64) : W64 := if b = 0 then BitVec.allOnes 64 else BitVec.ofInt 64 (a.toInt.tdiv b.toInt)

/-- The unsigned quotient. -/
def divU (a b : W64) : W64 := if b = 0 then BitVec.allOnes 64 else BitVec.ofNat 64 (a.toNat / b.toNat)

/-- The signed remainder. -/
def remS (a b : W64) : W64 := if b = 0 then a else BitVec.ofInt 64 (a.toInt.tmod b.toInt)

/-- The unsigned remainder. -/
def remU (a b : W64) : W64 := if b = 0 then a else BitVec.ofNat 64 (a.toNat % b.toNat)

/-- A shift count: the low 6 bits of the operand. -/
def shiftCount (b : W64) : Nat := b.toNat % 64

/-- Leading zeros; 64 for 0. -/
def clz64 (a : W64) : Nat := if a = 0 then 64 else 63 - Nat.log2 a.toNat

/-- Trailing zeros; 64 for 0. -/
def ctz64 (a : W64) : Nat := ((List.range 64).find? fun i => a.getLsbD i).getD 64

/-- Set bits among the first `n`. -/
def popcN (n : Nat) (a : W64) : Nat := ((List.range n).filter fun i => a.getLsbD i).length

/-- add: sD = sA + sB. -/
def execAdd (c k : Nat) (w : W64) (s : State) := scalar3 c k w (· + ·) s
/-- sub: sD = sA - sB. -/
def execSub (c k : Nat) (w : W64) (s : State) := scalar3 c k w (· - ·) s
/-- mul: the low 64 bits of the product. -/
def execMul (c k : Nat) (w : W64) (s : State) := scalar3 c k w (· * ·) s
/-- mulh: the high 64 bits of the signed product. -/
def execMulh (c k : Nat) (w : W64) (s : State) := scalar3 c k w mulhS s
/-- mulhu: the high 64 bits of the unsigned product. -/
def execMulhu (c k : Nat) (w : W64) (s : State) := scalar3 c k w mulhU s
/-- div (R315). -/
def execDiv (c k : Nat) (w : W64) (s : State) := scalar3 c k w divS s
/-- divu (R315). -/
def execDivu (c k : Nat) (w : W64) (s : State) := scalar3 c k w divU s
/-- rem (R315). -/
def execRem (c k : Nat) (w : W64) (s : State) := scalar3 c k w remS s
/-- remu (R315). -/
def execRemu (c k : Nat) (w : W64) (s : State) := scalar3 c k w remU s
/-- and. -/
def execAnd (c k : Nat) (w : W64) (s : State) := scalar3 c k w (· &&& ·) s
/-- or. -/
def execOr (c k : Nat) (w : W64) (s : State) := scalar3 c k w (· ||| ·) s
/-- xor. -/
def execXor (c k : Nat) (w : W64) (s : State) := scalar3 c k w (· ^^^ ·) s
/-- andn: sA and not sB. -/
def execAndn (c k : Nat) (w : W64) (s : State) := scalar3 c k w (fun a b => a &&& ~~~b) s
/-- shl. -/
def execShl (c k : Nat) (w : W64) (s : State) := scalar3 c k w (fun a b => a <<< shiftCount b) s
/-- shr. -/
def execShr (c k : Nat) (w : W64) (s : State) := scalar3 c k w (fun a b => a >>> shiftCount b) s
/-- sar. -/
def execSar (c k : Nat) (w : W64) (s : State) := scalar3 c k w (fun a b => a.sshiftRight (shiftCount b)) s
/-- rol. -/
def execRol (c k : Nat) (w : W64) (s : State) := scalar3 c k w (fun a b => a.rotateLeft (shiftCount b)) s
/-- min, signed. -/
def execMin (c k : Nat) (w : W64) (s : State) := scalar3 c k w (fun a b => if a.slt b then a else b) s
/-- max, signed. -/
def execMax (c k : Nat) (w : W64) (s : State) := scalar3 c k w (fun a b => if a.slt b then b else a) s
/-- minu. -/
def execMinu (c k : Nat) (w : W64) (s : State) := scalar3 c k w (fun a b => if a.ult b then a else b) s
/-- maxu. -/
def execMaxu (c k : Nat) (w : W64) (s : State) := scalar3 c k w (fun a b => if a.ult b then b else a) s
/-- slt. -/
def execSlt (c k : Nat) (w : W64) (s : State) := scalar3 c k w (fun a b => truth (a.slt b)) s
/-- sltu. -/
def execSltu (c k : Nat) (w : W64) (s : State) := scalar3 c k w (fun a b => truth (a.ult b)) s
/-- seq. -/
def execSeq (c k : Nat) (w : W64) (s : State) := scalar3 c k w (fun a b => truth (a == b)) s
/-- sel: sA when sC is not 0, otherwise sB. -/
def execSel (c k : Nat) (w : W64) (s : State) :=
  regOp c k w (mD ||| mA ||| mB ||| mC)
    (fun x => x.setS (fD w) (if x.getS (fC w) != 0 then x.getS (fA w) else x.getS (fB w))) s
/-- clz. -/
def execClz (c k : Nat) (w : W64) (s : State) := scalar2 c k w (fun a => BitVec.ofNat 64 (clz64 a)) s
/-- ctz. -/
def execCtz (c k : Nat) (w : W64) (s : State) := scalar2 c k w (fun a => BitVec.ofNat 64 (ctz64 a)) s
/-- popc. -/
def execPopc (c k : Nat) (w : W64) (s : State) := scalar2 c k w (fun a => BitVec.ofNat 64 (popcN 64 a)) s

/-- addi. -/
def execAddi (c k : Nat) (w : W64) (s : State) := scalarI c k w (· + ·) s
/-- andi. -/
def execAndi (c k : Nat) (w : W64) (s : State) := scalarI c k w (· &&& ·) s
/-- ori. -/
def execOri (c k : Nat) (w : W64) (s : State) := scalarI c k w (· ||| ·) s
/-- xori. -/
def execXori (c k : Nat) (w : W64) (s : State) := scalarI c k w (· ^^^ ·) s
/-- shli. -/
def execShli (c k : Nat) (w : W64) (s : State) := scalarSh c k w (fun a n => a <<< n) s
/-- shri. -/
def execShri (c k : Nat) (w : W64) (s : State) := scalarSh c k w (fun a n => a >>> n) s
/-- sari. -/
def execSari (c k : Nat) (w : W64) (s : State) := scalarSh c k w (fun a n => a.sshiftRight n) s
/-- slti. -/
def execSlti (c k : Nat) (w : W64) (s : State) := scalarI c k w (fun a b => truth (a.slt b)) s
/-- sltui. -/
def execSltui (c k : Nat) (w : W64) (s : State) := scalarI c k w (fun a b => truth (a.ult b)) s
/-- muli. -/
def execMuli (c k : Nat) (w : W64) (s : State) := scalarI c k w (· * ·) s
/-- li: IMM48 sign-extended. -/
def execLi (c k : Nat) (w : W64) (s : State) :=
  regOp c k w (mD ||| mIMM48) (fun x => x.setS (fD w) ((BitVec.ofNat 48 (fIMM48 w)).signExtend 64)) s
/-- lih: bits 63:48 from IMM48 bits 15:0; its bits 47:16 must be 0. -/
def execLih (c k : Nat) (w : W64) (s : State) :=
  regOp c k w (mD ||| 0xFFFF)
    (fun x => x.setS (fD w) (BitVec.ofNat 64 (bitsOf w.toNat 0 16 * 2 ^ 48 + (x.getS (fD w)).toNat % 2 ^ 48))) s

/-! ## Branches -/

/-- The target PC + 8 x OFF modulo 2^18 (R316). -/
def branchTarget (pc : Nat) (w : W64) : Nat := wrapInt 18 ((pc : Int) + 8 * (simm w).toInt)

/-- Branch when `f sA sB` holds. -/
def branch (c k : Nat) (w : W64) (f : W64 → W64 → Bool) (s : State) : Host.Outcome State Fault Refusal :=
  issueOn c k w (mA ||| mB ||| mIMM)
    (fun ch x => if f (x.getS (fA w)) (x.getS (fB w)) then .jump ch (branchTarget x.pc w) else .next ch) s

/-- Branch when `f pA` holds; a field that names a predicate register holds 0 to 7 (R311). -/
def branchP (c k : Nat) (w : W64) (f : W64 → Bool) (s : State) : Host.Outcome State Fault Refusal :=
  issueOn c k w (mA ||| mIMM)
    (fun ch x => if fA w ≥ 8 then .fault fcILLEGAL cBOUNDS 0
      else if f (x.getP (fA w)) then .jump ch (branchTarget x.pc w) else .next ch) s

/-- beq. -/
def execBeq (c k : Nat) (w : W64) (s : State) := branch c k w (· == ·) s
/-- bne. -/
def execBne (c k : Nat) (w : W64) (s : State) := branch c k w (· != ·) s
/-- blt. -/
def execBlt (c k : Nat) (w : W64) (s : State) := branch c k w (fun a b => a.slt b) s
/-- bge. -/
def execBge (c k : Nat) (w : W64) (s : State) := branch c k w (fun a b => !a.slt b) s
/-- bltu. -/
def execBltu (c k : Nat) (w : W64) (s : State) := branch c k w (fun a b => a.ult b) s
/-- bgeu. -/
def execBgeu (c k : Nat) (w : W64) (s : State) := branch c k w (fun a b => !a.ult b) s
/-- jal: sD = PC + 8, then jump. -/
def execJal (c k : Nat) (w : W64) (s : State) :=
  issueOn c k w (mD ||| mIMM)
    (fun ch x => .jump (ch.modCore k fun y => y.setS (fD w) (BitVec.ofNat 64 (x.pc + 8))) (branchTarget x.pc w)) s
/-- jalr: sD = PC + 8, then jump to sA + OFF, OFF in bytes. -/
def execJalr (c k : Nat) (w : W64) (s : State) :=
  issueOn c k w (mD ||| mA ||| mIMM)
    (fun ch x => .jump (ch.modCore k fun y => y.setS (fD w) (BitVec.ofNat 64 (x.pc + 8)))
      ((x.getS (fA w) + simm w).toNat % 2 ^ 18)) s
/-- bpany. -/
def execBpany (c k : Nat) (w : W64) (s : State) := branchP c k w (fun p => p != 0) s
/-- bpnone. -/
def execBpnone (c k : Nat) (w : W64) (s : State) := branchP c k w (fun p => p == 0) s

end Sys2Proof.Machine
end

