-- ==== Sys2Proof/Machine/CoreVector.lean ====
section
/-! DEFINITION. The vector integer instructions, the predicate instructions and the lane moves of a core (R327, R328, R333). -/
namespace Sys2Proof.Machine

/-- A register-only instruction whose fields hold a listed value when `ok` holds; otherwise ILLEGAL_INSTR (R310, R311). -/
def regOpIf (c k : Nat) (w : W64) (used : Nat) (ok : Bool) (f : Core → Core) (s : State) : Host.Outcome State Fault Refusal :=
  issueOn c k w used (fun ch _ => if ok then .next (ch.modCore k f) else .fault fcILLEGAL cBOUNDS 0) s

/-- The lane width of the EW field in bits. -/
def wEW (w : W64) : Nat := ewBits (fEW w)

/-- D = f A B in every active lane of width EW. -/
def vec3 (c k : Nat) (w : W64) (f : Nat → Nat → Nat → Nat) (s : State) : Host.Outcome State Fault Refusal :=
  regOp c k w (mD ||| mA ||| mB ||| mP ||| mEW)
    (fun x =>
      let n := wEW w
      let a := x.getV (fA w)
      let b := x.getV (fB w)
      x.setV (fD w) (mapLanes n (x.getP (fP w)) (x.getV (fD w)) fun i => f n (lane a n i) (lane b n i))) s

/-- A lane as a signed or unsigned number. -/
def laneInt (n : Nat) (signed : Bool) (v : Nat) : Int := if signed then sgn n v else (v : Int)

/-- The shift count of a lane: the low log2(w) bits of B. -/
def laneCount (n b : Nat) : Nat := b % n

/-- vadd. -/
def execVadd (c k : Nat) (w : W64) (s : State) := vec3 c k w (fun _ a b => a + b) s
/-- vsub. -/
def execVsub (c k : Nat) (w : W64) (s : State) := vec3 c k w (fun n a b => a + (2 ^ n - b)) s
/-- vmul. -/
def execVmul (c k : Nat) (w : W64) (s : State) := vec3 c k w (fun _ a b => a * b) s
/-- vmulh: the high bits of the signed product. -/
def execVmulh (c k : Nat) (w : W64) (s : State) := vec3 c k w (fun n a b => wrapInt n (sgn n a * sgn n b / (2 ^ n : Nat))) s
/-- vmulhu: the high bits of the unsigned product. -/
def execVmulhu (c k : Nat) (w : W64) (s : State) := vec3 c k w (fun n a b => a * b / 2 ^ n) s
/-- vand. -/
def execVand (c k : Nat) (w : W64) (s : State) := vec3 c k w (fun _ a b => a &&& b) s
/-- vor. -/
def execVor (c k : Nat) (w : W64) (s : State) := vec3 c k w (fun _ a b => a ||| b) s
/-- vxor. -/
def execVxor (c k : Nat) (w : W64) (s : State) := vec3 c k w (fun _ a b => a ^^^ b) s
/-- vshl. -/
def execVshl (c k : Nat) (w : W64) (s : State) := vec3 c k w (fun n a b => a <<< laneCount n b) s
/-- vshr. -/
def execVshr (c k : Nat) (w : W64) (s : State) := vec3 c k w (fun n a b => a >>> laneCount n b) s
/-- vsar. -/
def execVsar (c k : Nat) (w : W64) (s : State) := vec3 c k w (fun n a b => wrapInt n (sgn n a / (2 ^ laneCount n b : Nat))) s
/-- vmin, signed. -/
def execVmin (c k : Nat) (w : W64) (s : State) := vec3 c k w (fun n a b => if sgn n a < sgn n b then a else b) s
/-- vmax, signed. -/
def execVmax (c k : Nat) (w : W64) (s : State) := vec3 c k w (fun n a b => if sgn n a < sgn n b then b else a) s
/-- vminu. -/
def execVminu (c k : Nat) (w : W64) (s : State) := vec3 c k w (fun _ a b => min a b) s
/-- vmaxu. -/
def execVmaxu (c k : Nat) (w : W64) (s : State) := vec3 c k w (fun _ a b => max a b) s

/-- The condition of vicmp, FN bits 3:1. -/
def icmp (cond : Nat) (a b : Int) : Bool :=
  match cond with
  | 0 => decide (a = b) | 1 => decide (a ≠ b) | 2 => decide (a < b) | 3 => decide (a ≤ b) | 4 => decide (b < a) | _ => decide (b ≤ a)

/-- vicmp: predicate bit i of pD; inactive lanes and bits at or above the lane count are cleared (R328). -/
def execVicmp (c k : Nat) (w : W64) (s : State) :=
  regOpIf c k w (mD ||| mA ||| mB ||| mP ||| mEW ||| (0xF <<< 16)) (fD w < 8 && bitsOf (fFN w) 1 3 ≤ 5)
    (fun x =>
      let n := wEW w
      let g := bitOf (fFN w) 0
      x.setP (fD w) (predOf (512 / n) fun i => (x.getP (fP w)).getLsbD i &&
        icmp (bitsOf (fFN w) 1 3) (laneInt n g (lane (x.getV (fA w)) n i)) (laneInt n g (lane (x.getV (fB w)) n i)))) s

/-- vsel: A where bit i of pC is 1, else B; every lane is written. -/
def execVsel (c k : Nat) (w : W64) (s : State) :=
  regOpIf c k w (mD ||| mA ||| mB ||| mC ||| mEW) (fC w < 8)
    (fun x => x.setV (fD w) (mapLanes (wEW w) (x.getP (fC w)) (x.getV (fB w)) fun i => lane (x.getV (fA w)) (wEW w) i)) s

/-- vsum: sD = the sum of the active lanes of A modulo 2^64. -/
def execVsum (c k : Nat) (w : W64) (s : State) :=
  regOp c k w (mD ||| mA ||| mP ||| mEW ||| (1 <<< 16))
    (fun x =>
      let n := wEW w
      x.setS (fD w) (BitVec.ofInt 64 ((List.range (512 / n)).foldl (fun t i =>
        if (x.getP (fP w)).getLsbD i then t + laneInt n (bitOf (fFN w) 0) (lane (x.getV (fA w)) n i) else t) 0))) s

/-- One 32-bit lane of vdot4. -/
def dot4 (fn d a b : Nat) : Nat :=
  wrapInt 32 ((List.range 4).foldl (fun t j =>
    t + laneInt 8 (bitOf fn 0) (bitsOf a (8 * j) 8) * laneInt 8 (bitOf fn 1) (bitsOf b (8 * j) 8)) (d : Int))

/-- vdot4: EW must be 32 bits. -/
def execVdot4 (c k : Nat) (w : W64) (s : State) :=
  regOpIf c k w (mD ||| mA ||| mB ||| mP ||| mEW ||| (3 <<< 16)) (fEW w == 2)
    (fun x => x.setV (fD w) (mapLanes 32 (x.getP (fP w)) (x.getV (fD w)) fun i =>
      dot4 (fFN w) (lane (x.getV (fD w)) 32 i) (lane (x.getV (fA w)) 32 i) (lane (x.getV (fB w)) 32 i))) s

/-- Bits of the element position `i` of packed elements of `n` bits in half `hi` of a register (R333). -/
def packedAt (n : Nat) (hi : Bool) (i : Nat) : Nat := (if hi then 256 else 0) + i * n

/-- Conversion with the packing of R333: elements of `ws` bits of A to elements of `wd` bits of D, lane i governed by
predicate bit i; the result's flags are those of the active lanes. Bits that no result fills are unchanged. -/
def convLanes (ws wd : Nat) (hi : Bool) (pred : W64) (a old : V512) (f : Nat → Nat × Nat) : V512 × Nat :=
  let n := 512 / max ws wd
  let r := (List.range n).foldl (fun (acc : Nat × Nat) i =>
    if pred.getLsbD i then
      let v := f (bitsOf a.toNat (if ws < wd then packedAt ws hi i else i * ws) ws)
      (setBits acc.1 (if wd < ws then packedAt wd hi i else i * wd) wd v.1, acc.2 ||| v.2)
    else acc) (old.toNat, 0)
  (BitVec.ofNat 512 r.1, r.2)

/-- vnarrow: saturation to w/2 bits. -/
def narrowLane (n : Nat) (signed : Bool) (v : Nat) : Nat :=
  let h := n / 2
  if signed then wrapInt h (max (-(2 ^ (h - 1) : Nat) : Int) (min ((2 ^ (h - 1) : Nat) - 1) (sgn n v)))
  else min (2 ^ h - 1) v

/-- vnarrow. -/
def execVnarrow (c k : Nat) (w : W64) (s : State) :=
  regOp c k w (mD ||| mA ||| mP ||| mEW ||| (0x11 <<< 16))
    (fun x => x.setV (fD w) (convLanes (wEW w) (wEW w / 2) (bitOf (fFN w) 4) (x.getP (fP w)) (x.getV (fA w)) (x.getV (fD w))
      fun v => (narrowLane (wEW w) (bitOf (fFN w) 0) v, 0)).1) s

/-- vwiden. -/
def execVwiden (c k : Nat) (w : W64) (s : State) :=
  regOp c k w (mD ||| mA ||| mP ||| mEW ||| (0x11 <<< 16))
    (fun x => x.setV (fD w) (convLanes (wEW w / 2) (wEW w) (bitOf (fFN w) 4) (x.getP (fP w)) (x.getV (fA w)) (x.getV (fD w))
      fun v => (wrapInt (wEW w) (laneInt (wEW w / 2) (bitOf (fFN w) 0) v), 0)).1) s

/-! ## Predicates -/

/-- pD = f pA pB. -/
def pred3 (c k : Nat) (w : W64) (f : W64 → W64 → W64) (s : State) : Host.Outcome State Fault Refusal :=
  regOpIf c k w (mD ||| mA ||| mB) (fD w < 8 && fA w < 8 && fB w < 8)
    (fun x => x.setP (fD w) (f (x.getP (fA w)) (x.getP (fB w)))) s

/-- pand. -/
def execPand (c k : Nat) (w : W64) (s : State) := pred3 c k w (· &&& ·) s
/-- por. -/
def execPor (c k : Nat) (w : W64) (s : State) := pred3 c k w (· ||| ·) s
/-- pxor. -/
def execPxor (c k : Nat) (w : W64) (s : State) := pred3 c k w (· ^^^ ·) s
/-- pandn. -/
def execPandn (c k : Nat) (w : W64) (s : State) := pred3 c k w (fun a b => a &&& ~~~b) s
/-- pnot. -/
def execPnot (c k : Nat) (w : W64) (s : State) :=
  regOpIf c k w (mD ||| mA) (fD w < 8 && fA w < 8) (fun x => x.setP (fD w) (~~~(x.getP (fA w)))) s
/-- pset: the first min(sA, lane count) bits. -/
def execPset (c k : Nat) (w : W64) (s : State) :=
  regOpIf c k w (mD ||| mA ||| mEW) (fD w < 8)
    (fun x => x.setP (fD w) (BitVec.ofNat 64 (2 ^ min (x.getS (fA w)).toNat (512 / wEW w) - 1))) s
/-- pcnt. -/
def execPcnt (c k : Nat) (w : W64) (s : State) :=
  regOpIf c k w (mD ||| mA ||| mEW) (fA w < 8)
    (fun x => x.setS (fD w) (BitVec.ofNat 64 (popcN (512 / wEW w) (x.getP (fA w))))) s
/-- pfrom. -/
def execPfrom (c k : Nat) (w : W64) (s : State) :=
  regOpIf c k w (mD ||| mA) (fD w < 8) (fun x => x.setP (fD w) (x.getS (fA w))) s
/-- pto. -/
def execPto (c k : Nat) (w : W64) (s : State) :=
  regOpIf c k w (mD ||| mA) (fA w < 8) (fun x => x.setS (fD w) (x.getP (fA w))) s

/-! ## Lane moves -/

/-- vmov: the active lanes of EW. -/
def execVmov (c k : Nat) (w : W64) (s : State) :=
  regOp c k w (mD ||| mA ||| mP ||| mEW)
    (fun x => x.setV (fD w) (mapLanes (wEW w) (x.getP (fP w)) (x.getV (fD w)) fun i => lane (x.getV (fA w)) (wEW w) i)) s
/-- vbcast. -/
def execVbcast (c k : Nat) (w : W64) (s : State) :=
  regOp c k w (mD ||| mA ||| mP ||| mEW)
    (fun x => x.setV (fD w) (mapLanes (wEW w) (x.getP (fP w)) (x.getV (fD w)) fun _ => (x.getS (fA w)).toNat)) s
/-- vext: lane (sB mod lane count), zero-extended. -/
def execVext (c k : Nat) (w : W64) (s : State) :=
  regOp c k w (mD ||| mA ||| mB ||| mEW)
    (fun x => x.setS (fD w) (BitVec.ofNat 64 (lane (x.getV (fA w)) (wEW w) ((x.getS (fB w)).toNat % (512 / wEW w))))) s
/-- vins: one lane, whatever a predicate holds. -/
def execVins (c k : Nat) (w : W64) (s : State) :=
  regOp c k w (mD ||| mA ||| mB ||| mEW)
    (fun x => x.setV (fD w) (BitVec.ofNat 512 (setBits (x.getV (fD w)).toNat
      ((x.getS (fB w)).toNat % (512 / wEW w) * wEW w) (wEW w) (x.getS (fA w)).toNat))) s
/-- vperm. -/
def execVperm (c k : Nat) (w : W64) (s : State) :=
  regOp c k w (mD ||| mA ||| mB ||| mEW)
    (fun x => x.setV (fD w) (fromLanes (wEW w) ((List.range (512 / wEW w)).map fun i =>
      lane (x.getV (fA w)) (wEW w) (lane (x.getV (fB w)) (wEW w) i % (512 / wEW w))))) s
/-- vslide: lane i + sB, sB signed, 0 outside. -/
def execVslide (c k : Nat) (w : W64) (s : State) :=
  regOp c k w (mD ||| mA ||| mB ||| mEW)
    (fun x => x.setV (fD w) (fromLanes (wEW w) ((List.range (512 / wEW w)).map fun (i : Nat) =>
      let j := (i : Int) + (x.getS (fB w)).toInt
      if 0 ≤ j && j < (512 / wEW w : Nat) then lane (x.getV (fA w)) (wEW w) j.toNat else 0))) s

end Sys2Proof.Machine
end

