-- ==== Sys2Proof/Machine/CoreFloat.lean ====
section
/-! DEFINITION. The vector floating-point instructions of a core (R329 to R335, R1017). -/
namespace Sys2Proof.Machine

/-- What stops a vector floating-point instruction before it acts: reserved fields (R310), a format it does not allow
(R329), FP64 on a chip without it (R330). -/
def fpStop (ch : Chip) (w : W64) (ok : Bool) : Option Res :=
  if fmtReserved (fFMT w) || fRM w == 7 || !ok then some (.fault fcILLEGAL cBOUNDS 0)
  else if fFMT w != fFP32 && fFMT w != fFP64 then some (.fault fcOPERAND cBOUNDS 0)
  else if fFMT w == fFP64 && !ch.variant.fp64 then some (.fault fcABSENT cABSENT 0)
  else none

/-- The rounding mode in force: RM, or ACW.RMODE under DYN (R264). -/
def fpMode (x : Core) (w : W64) : Nat := (roundMode x.acw (fRM w)).getD rmRNE

/-- Issue a vector floating-point instruction: `f` gives the core after it and the IEEE flags of its active lanes (R331). -/
def fpOp (c k : Nat) (w : W64) (used : Nat) (ok : Bool) (f : Core → Core × Nat) (s : State) : Host.Outcome State Fault Refusal :=
  issueOn c k w (used ||| mFMT)
    (fun ch x => match fpStop ch w ok with
      | some r => r
      | none => let (y, fl) := f x; .next (ch.modCore k fun _ => y.raiseFlags fl)) s

/-- Lane width of FMT. -/
def wFMT (w : W64) : Nat := fmtWidth (fFMT w)

/-- D = g in every active lane; g takes the lanes of A, B and C and gives bits and flags. -/
def fpLanes (w : W64) (g : Nat → Nat → Nat → Nat → Nat × Nat) (x : Core) : Core × Nat :=
  let n := wFMT w
  let m := fpMode x w
  let r := fun i => g m (lane (x.getV (fA w)) n i) (lane (x.getV (fB w)) n i) (lane (x.getV (fC w)) n i)
  (x.setV (fD w) (mapLanes n (x.getP (fP w)) (x.getV (fD w)) fun i => (r i).1), laneFlags n (x.getP (fP w)) r)

/-- An operation of two operands, rounded once. -/
def fp3 (c k : Nat) (w : W64) (g : Nat → Nat → Nat → Nat → Nat × Nat) (s : State) : Host.Outcome State Fault Refusal :=
  fpOp c k w (mD ||| mA ||| mB ||| mP ||| mRM) true (fpLanes w fun m a b _ => g (fFMT w) m a b) s

/-- An operation of three operands. -/
def fp4 (c k : Nat) (w : W64) (g : Nat → Nat → Nat → Nat → Nat → Nat × Nat) (s : State) : Host.Outcome State Fault Refusal :=
  fpOp c k w (mD ||| mA ||| mB ||| mC ||| mP ||| mRM) true (fpLanes w (g (fFMT w))) s

/-- An operation of one operand. -/
def fp2 (c k : Nat) (w : W64) (g : Nat → Nat → Nat → Nat × Nat) (s : State) : Host.Outcome State Fault Refusal :=
  fpOp c k w (mD ||| mA ||| mP ||| mRM) true (fpLanes w fun m a _ _ => g (fFMT w) m a) s

/-- A minimum or maximum; the row rounds nothing, so RM is unused. -/
def fpMinMax (c k : Nat) (w : W64) (isMax number : Bool) (s : State) : Host.Outcome State Fault Refusal :=
  fpOp c k w (mD ||| mA ||| mB ||| mP) true (fpLanes w fun _ a b _ => minMax (fFMT w) isMax number a b) s

/-- a x b + c of bits, with the product or the addend negated. -/
def fpFmaBits (negP negC : Bool) (f m a b c : Nat) : Nat × Nat :=
  let x := decodeFl f a
  let z := decodeFl f c
  finish f m (fmaFl m (if negP then x.neg else x) (decodeFl f b) (if negC then z.neg else z))

/-- vfadd. -/
def execVfadd (c k : Nat) (w : W64) (s : State) := fp3 c k w fpAddBits s
/-- vfsub. -/
def execVfsub (c k : Nat) (w : W64) (s : State) :=
  fp3 c k w (fun f m a b => finish f m (addFl m (decodeFl f a) (decodeFl f b).neg)) s
/-- vfmul. -/
def execVfmul (c k : Nat) (w : W64) (s : State) := fp3 c k w (fun f m a b => finish f m (mulFl (decodeFl f a) (decodeFl f b))) s
/-- vfdiv. -/
def execVfdiv (c k : Nat) (w : W64) (s : State) := fp3 c k w (fun f m a b => finish f m (divFl (decodeFl f a) (decodeFl f b))) s
/-- vfsqrt. -/
def execVfsqrt (c k : Nat) (w : W64) (s : State) := fp2 c k w (fun f m a => finish f m (sqrtFl (decodeFl f a))) s
/-- vfma: A x B + C (R261 for zero times infinity). -/
def execVfma (c k : Nat) (w : W64) (s : State) := fp4 c k w (fpFmaBits false false) s
/-- vfms: A x B - C. -/
def execVfms (c k : Nat) (w : W64) (s : State) := fp4 c k w (fpFmaBits false true) s
/-- vfnma: -(A x B) + C. -/
def execVfnma (c k : Nat) (w : W64) (s : State) := fp4 c k w (fpFmaBits true false) s
/-- vfmin: minimum. -/
def execVfmin (c k : Nat) (w : W64) (s : State) := fpMinMax c k w false false s
/-- vfmax: maximum. -/
def execVfmax (c k : Nat) (w : W64) (s : State) := fpMinMax c k w true false s
/-- vfminn: minimumNumber. -/
def execVfminn (c k : Nat) (w : W64) (s : State) := fpMinMax c k w false true s
/-- vfmaxn: maximumNumber. -/
def execVfmaxn (c k : Nat) (w : W64) (s : State) := fpMinMax c k w true true s

/-- A predicate result: the bits of active lanes are the results, the other bits of pD unchanged (R312). -/
def predLanes (n : Nat) (pred old : W64) (f : Nat → Bool) : W64 :=
  BitVec.ofNat 64 ((List.range 64).reverse.foldl (fun a i =>
    a * 2 + b2n (if i < n && pred.getLsbD i then f i else old.getLsbD i)) 0)

/-- vfcmp by condition FN bits 2:0, signalling under bit 3 (R332). -/
def execVfcmp (c k : Nat) (w : W64) (s : State) :=
  fpOp c k w (mD ||| mA ||| mB ||| mP ||| (0xF <<< 16)) (fD w < 8)
    (fun x =>
      let n := wFMT w
      let r := fun i => fcmp (fFMT w) (fFN w) (lane (x.getV (fA w)) n i) (lane (x.getV (fB w)) n i)
      (x.setP (fD w) (predLanes (512 / n) (x.getP (fP w)) (x.getP (fD w)) fun i => (r i).1),
       laneFlags n (x.getP (fP w)) fun i => (0, (r i).2))) s
/-- vfclass: an integer lane with the class code (R332). -/
def execVfclass (c k : Nat) (w : W64) (s : State) :=
  fpOp c k w (mD ||| mA ||| mP) true (fpLanes w fun _ a _ _ => (fclass (fFMT w) a, 0)) s

/-- vfsum: lane 0 of D is the horizontal sum, the other lanes +0.0. -/
def execVfsum (c k : Nat) (w : W64) (s : State) :=
  fpOp c k w (mD ||| mA ||| mP ||| mRM) true
    (fun x =>
      let n := wFMT w
      let r := hsum (fFMT w) (fpMode x w) ((List.range (512 / n)).map fun i =>
        if (x.getP (fP w)).getLsbD i then some (lane (x.getV (fA w)) n i) else none)
      (x.setV (fD w) (BitVec.ofNat 512 r.1), r.2)) s
/-- vfrnd: roundToIntegral in mode RM. -/
def execVfrnd (c k : Nat) (w : W64) (s : State) := fp2 c k w frnd s
/-- vfscb: scaleB(A, integer lane of B) (R1017). -/
def execVfscb (c k : Nat) (w : W64) (s : State) := fp3 c k w (fun f m a b => fscaleB f m a (sgn (fmtWidth f) b)) s
/-- vflgb: logB(A) as an integer lane (R1017). -/
def execVflgb (c k : Nat) (w : W64) (s : State) :=
  fpOp c k w (mD ||| mA ||| mP) true (fpLanes w fun _ a _ _ => flogB (fFMT w) a) s

/-- vfsgn on the bits of `n`-bit lanes: copy, negate, abs, copySign (R261). -/
def fsign (n fn a b : Nat) : Nat :=
  let mag := a % 2 ^ (n - 1)
  let top := 2 ^ (n - 1)
  match fn with
  | 0 => a
  | 1 => if bitOf a (n - 1) then mag else mag + top
  | 2 => mag
  | _ => if bitOf b (n - 1) then mag + top else mag

/-- vfsgn: FN 0 copy, 1 negate, 2 abs, 3 copySign. -/
def execVfsgn (c k : Nat) (w : W64) (s : State) :=
  fpOp c k w (mD ||| mA ||| mB ||| mP ||| (3 <<< 16)) true
    (fpLanes w fun _ a b _ => (fsign (wFMT w) (fFN w) a b, 0)) s
/-- vftot: totalOrder(A, B). -/
def execVftot (c k : Nat) (w : W64) (s : State) :=
  fpOp c k w (mD ||| mA ||| mB ||| mP) (fD w < 8)
    (fun x =>
      let n := wFMT w
      (x.setP (fD w) (predLanes (512 / n) (x.getP (fP w)) (x.getP (fD w)) fun i =>
        totalOrder (fFMT w) (lane (x.getV (fA w)) n i) (lane (x.getV (fB w)) n i)), 0)) s

/-! ## Conversions (R267 to R273, R333 to R335) -/

/-- One element from format `src` to format `dst`: bits, flags, and whether the spec states the result. An integer into
an integer format that does not hold it is the case it does not state. -/
def convElem (src dst mode : Nat) (sat : Bool) (v : Nat) : Nat × Nat × Bool :=
  let x := decodeFl src v
  if dst == fE8M0 then let r := toE8M0 x; (r.1, r.2, true)
  else if fmtIsInt dst then
    let r := toIntW (fmtWidth dst) (fmtSigned dst) mode x
    (r.1, r.2, !(fmtIsInt src && r.2 != 0))
  else let r := toFmt dst mode sat x; (r.1, r.2, true)

/-- The saturation vfcvt takes from FN bits 6:5 (R334). -/
def cvtSat (acw : W32) (fn : Nat) : Bool := if bitsOf fn 5 2 == 0 then acwSat acw else bitsOf fn 5 2 == 1

/-- vfcvt: from the format FN bits 3:0 to FMT. Where an integer does not fit the integer destination the element is a
free value (DESIGN CHOICE, log entry 21). -/
def execVfcvt (c k : Nat) (w : W64) (s : State) :=
  issueOn c k w (mD ||| mA ||| mP ||| mRM ||| mFMT ||| (0x7F <<< 16))
    (fun ch x =>
      let src := bitsOf (fFN w) 0 4
      let dst := fFMT w
      if fmtReserved dst || fmtReserved src || fRM w == 7 || bitsOf (fFN w) 5 2 == 3 then .fault fcILLEGAL cBOUNDS 0
      else if (dst == fFP64 || src == fFP64) && !ch.variant.fp64 then .fault fcABSENT cABSENT 0
      else
        let m := fpMode x w
        let sat := cvtSat x.acw (fFN w)
        let r := convLanes (fmtWidth src) (fmtWidth dst) (bitOf (fFN w) 4) (x.getP (fP w)) (x.getV (fA w)) (x.getV (fD w))
          fun v => let (b, fl, known) := convElem src dst m sat v
            if known then (b, fl) else ((Config.convInt src dst m sat v).toNat % 2 ^ fmtWidth dst, 0)
        .next (ch.modCore k fun y => (y.setV (fD w) r.1).raiseFlags r.2)) s

/-- vfcvti: to integer lanes of width EW, signed by FN bit 0, in mode RM (R273). -/
def execVfcvti (c k : Nat) (w : W64) (s : State) :=
  fpOp c k w (mD ||| mA ||| mP ||| mRM ||| mEW ||| (0x11 <<< 16)) true
    (fun x =>
      let r := convLanes (wFMT w) (wEW w) (bitOf (fFN w) 4) (x.getP (fP w)) (x.getV (fA w)) (x.getV (fD w))
        fun v => toIntW (wEW w) (bitOf (fFN w) 0) (fpMode x w) (decodeFl (fFMT w) v)
      (x.setV (fD w) r.1, r.2)) s
/-- vicvtf: from integer lanes of width EW, signed by FN bit 0, to FMT in mode RM. -/
def execVicvtf (c k : Nat) (w : W64) (s : State) :=
  fpOp c k w (mD ||| mA ||| mP ||| mRM ||| mEW ||| (0x11 <<< 16)) true
    (fun x =>
      let r := convLanes (wEW w) (wFMT w) (bitOf (fFN w) 4) (x.getP (fP w)) (x.getV (fA w)) (x.getV (fD w))
        fun v => toFmt (fFMT w) (fpMode x w) false (flInt (laneInt (wEW w) (bitOf (fFN w) 0) v))
      (x.setV (fD w) r.1, r.2)) s

end Sys2Proof.Machine
end

