-- ==== Sys2Proof/Machine/CoreMem.lean ====
section
/-! DEFINITION. The instructions of a core that reach memory, registers, units and the system: loads, stores, atomics, gathers and
scatters, unit commands and their completions, and the system instructions; the faults of a fetch, the core watchdog, late answers
(R308, R310, R317 to R326, R338 to R347, R350 to R353, R355 to R366, R368 to R380, R387, R388, R434 to R438, R444 to R446, R691). -/
namespace Sys2Proof.Machine

/-! ## Loads (R318, R319, R355, R358, R363, R370) -/

/-- The link number that the answer of a store refused on this chip carries. -/
abbrev ownChip : Nat := 0xFE

/-- The link carries as many requests as it holds (R691). -/
def Chip.linkFull (ch : Chip) (n : Nat) : Bool := 256 ≤ (ch.remotes.filter fun r => r.link == n).length

/-- A request leaves and waits for its answer. -/
def Chip.request (ch : Chip) (r : Remote) : Chip :=
  { ch with nextReq := ch.nextReq + 1, remotes := ch.remotes ++ [{ r with id := ch.nextReq, since := ch.time }] }

/-- A load of the bytes from `a` to `a + n - 1` by core `k`, in the `ranges` that it touches: `take` writes what it brings from this chip into
the core, `kind` is the request that brings it from beyond; `whole` and `wholeLen` are the range that the access covers. -/
def loadFrom (k a n whole wholeLen : Nat) (ranges : List (Nat × Nat)) (take : Chip → Core → Core) (kind : ReqKind) (ch : Chip) (x : Core) :
    Res :=
  let p := ch.partNo k
  match ch.reach p a n with
  | .error e => .access e a vRead
  | .ok pl =>
    if ch.starved p pl false a n then .block
    else
      let c := (ch.pay p pl false a n)
      let req : Remote := { kind := kind, agent := k, part := p, addr := whole, len := wholeLen }
      match pl with
      | .regs off =>
        if !x.posted.isEmpty then .block
        else
          let (d, code, v) := c.regRead k off wholeLen
          if code != cOK then .access code a vRegRead
          else match kind with
            | .load _ rd size signed =>
              .touch (d.modCore k fun y => y.setS rd (if signed then BitVec.ofInt 64 (sgn (8 * size) v) else BitVec.ofNat 64 v)) ranges false
            | _ => .access cALIGN a vRegRead
      | .window wn o =>
        (match ch.pathOf p wn o with
        | none => .access cLINKDOWN a vRead
        | some l =>
          if !ch.linkUp l then .access cLINKDOWN a vRead
          else if ch.linkFull l then .block
          else .wait ((c.request { req with link := l }).linkSend l 0 [p, o, n] [] |>.queuedOn l) (.remote ch.nextReq ch.time))
      | .host b =>
        let fn := ch.ownerFn p
        if !ch.busMaster fn then .done ((ch.hostMemError fn b cPERM).accessFault k cPERM a vRead)
        else .wait ((c.request { req with link := noLink }).emit (.hostFetch fn b n)) (.remote ch.nextReq ch.time)
      | _ => if ch.bad a n then .access cECC a vRead else .touch ((c.countSoft a n).modCore k (take c)) ranges false

/-- The order that a format M access asks for holds: SEQ, and ACQ_REL on a store or an atomic, wait for every earlier store
(R358, R359). -/
def ordered (u : MemUse) (w : W64) (x : Core) : Bool := x.posted.isEmpty || (u != .atomic && (fORD w == 0 || (u == .load && fORD w == 1)))

/-- A scalar load of `size` bytes (R318, R319, R324). -/
def loadOp (size : Nat) (signed : Bool) (k : Nat) (w : W64) (ch : Chip) (x : Core) : Res :=
  let a := effAddr x w
  if !memFormOk .load w then .fault fcILLEGAL cBOUNDS 0
  else if !ordered .load w x then .block
  else if a % size != 0 then .access cALIGN a vRead
  else loadFrom k a size a size [(a, size)]
    (fun c y =>
      let v := leNat (c.see (some k) a size)
      y.setS (fD w) (if signed then BitVec.ofInt 64 (sgn (8 * size) v) else BitVec.ofNat 64 v))
    (.load k (fD w) size signed) ch x

/-- The fields of a scalar access. -/
abbrev mScalar : Nat := mD ||| mA ||| mB ||| mMemS
/-- The fields of a vector access. -/
abbrev mVector : Nat := mD ||| mA ||| mB ||| mMem

/-- ld8. -/
def execLd8 (c k : Nat) (w : W64) (s : State) := issueOn c k w mScalar (loadOp 1 true k w) s
/-- ld8u. -/
def execLd8u (c k : Nat) (w : W64) (s : State) := issueOn c k w mScalar (loadOp 1 false k w) s
/-- ld16. -/
def execLd16 (c k : Nat) (w : W64) (s : State) := issueOn c k w mScalar (loadOp 2 true k w) s
/-- ld16u. -/
def execLd16u (c k : Nat) (w : W64) (s : State) := issueOn c k w mScalar (loadOp 2 false k w) s
/-- ld32. -/
def execLd32 (c k : Nat) (w : W64) (s : State) := issueOn c k w mScalar (loadOp 4 true k w) s
/-- ld32u. -/
def execLd32u (c k : Nat) (w : W64) (s : State) := issueOn c k w mScalar (loadOp 4 false k w) s
/-- ld64. -/
def execLd64 (c k : Nat) (w : W64) (s : State) := issueOn c k w mScalar (loadOp 8 false k w) s

/-! ## Stores (R325, R326, R370 to R372, R434 to R438, R444 to R446) -/

/-- The bytes that a store writes: runs of consecutive bytes, by rising address. -/
abbrev Runs := List (Nat × List Nat)

/-- The ranges of its bytes. -/
def Runs.ranges (l : Runs) : List (Nat × Nat) := l.map fun r => (r.1, r.2.length)

/-- The first byte of a store, and its bytes up to its last. -/
def Runs.span (l : Runs) : Nat × Nat :=
  match l.head?, l.getLast? with
  | some a, some b => (a.1, b.1 + b.2.length - a.1)
  | _, _ => (0, 0)

/-- A posted store is refused: the core goes on, and the error response comes later (R370, R371). -/
def Chip.postRefused (ch : Chip) (k a n code : Nat) : Chip :=
  let x := ch.core k
  (ch.request { kind := .store k, agent := k, part := ch.partNo k, addr := a, len := n, write := true, link := ownChip, code := code }).modCore k
    fun y => { y with posted := y.posted ++ [{ id := ch.nextReq, pc := x.pc, addr := a }] }

/-- A posted store leaves the chip: its answer is outstanding. -/
def Chip.postFar (ch : Chip) (k a n link : Nat) : Chip :=
  let x := ch.core k
  (ch.request { kind := .store k, agent := k, part := ch.partNo k, addr := a, len := n, write := true, link := link }).modCore k
    fun y => { y with posted := y.posted ++ [{ id := ch.nextReq, pc := x.pc, addr := a }] }

/-- The first code that refuses one of the runs at memory of this chip (R81, R444). -/
def Chip.runsCode (ch : Chip) (l : Runs) : Nat := (l.map fun r => ch.writeCode r.1 r.2.length).foldl (fun a c => if a == cOK then c else a) cOK

/-- The runs are stored plainly. -/
def Chip.plainRuns (ch : Chip) (l : Runs) : Chip := l.foldl (fun a r => a.plainStore r.1 r.2) ch

/-- A posted store of core `k` (R319, R363, R370 to R372); `whole` is the length of the range that the access covers, which register
space takes for its size (R91, R321). -/
def postedStore (k whole : Nat) (l : Runs) (ch : Chip) (x : Core) : Res :=
  let (a, n) := l.span
  let touched := l.ranges
  let p := ch.partNo k
  if 16 ≤ x.posted.length then .block
  else match ch.reach p a n with
    | .error e => .touch (ch.postRefused k a n e) touched true
    | .ok pl =>
      if ch.starved p pl true a n then .block
      else
        let c := (ch.pay p pl true a n)
        match pl with
        | .regs off =>
          if !x.posted.isEmpty then .block
          else
            let (d, code) := c.regWrite k off whole (leNat ((l.head?.map Prod.snd).getD []))
            .touch (if code == cOK then d else c.postRefused k a n code) touched true
        | .window wn o =>
          (match ch.pathOf p wn o with
          | none => .touch (ch.postRefused k a n cLINKDOWN) touched true
          | some ln =>
            if !ch.linkUp ln then .touch (ch.postRefused k a n cLINKDOWN) touched true
            else if ch.linkFull ln then .block
            else .touch ((l.foldl (fun d r => d.linkSend ln 1 [p, o + (r.1 - a)] r.2) (c.postFar k a n ln)).queuedOn ln) touched true)
        | .host b =>
          let fn := ch.ownerFn p
          if !ch.busMaster fn then .touch ((ch.hostMemError fn b cPERM).postRefused k a n cPERM) touched true
          else .touch (l.foldl (fun d r => d.emit (.hostWrite fn (b + (r.1 - a)) r.2)) (c.postFar k a n noLink)) touched true
        | _ => match ch.runsCode l with
          | 0 => .touch (c.plainRuns l) touched true
          | e => .touch (c.postRefused k a n e) touched true

/-- The place lies in core `k`'s own store. -/
def inOwn (k a n : Nat) : Bool := coreBase k ≤ a && a + n ≤ coreBase (k + 1)

/-- A plain store of core `k`: precise to its own store, posted elsewhere (R370). -/
def plainOp (k whole : Nat) (l : Runs) (ch : Chip) (x : Core) : Res :=
  let (a, n) := l.span
  if inOwn k a n then
    match ch.runsCode l with
    | 0 => .touch (ch.plainRuns l) l.ranges true
    | e => .access e a vWrite
  else postedStore k whole l ch x

/-- The lines that the runs touch, each once. -/
def Runs.lines (l : Runs) : List Nat := (l.flatMap fun r => linesOf r.1 r.2.length).eraseDups

/-- A speculative store in epoch `e` to the core's own store: the lines it writes first are saved (R435 to R437). -/
def specOwn (k e : Nat) (l : Runs) (ch : Chip) (x : Core) : Res :=
  let a := l.span.1
  let saved := (x.epoch e).lines
  let new := l.lines.filter fun i => !saved.any fun y => y.1 == i
  if new.any ch.badLines.contains then .access cECC a vWrite
  else if ch.runsCode l != cOK then .access (ch.runsCode l) a vWrite
  else if 4096 < x.shadowUsed + new.length then .next (ch.doom k e)
  else
    let b := ch.modCore k fun y => y.modEpoch e fun z => { z with lines := new.map (fun i => (i, ch.readBytes i 64)) ++ z.lines }
    .touch (l.foldl (fun c r => c.store r.1 r.2) b) l.ranges true

/-- A speculative store in epoch `e` to append region `r`: a plain store that raises the epoch's mark (R436, R446). -/
def specAppend (k whole e r : Nat) (l : Runs) (ch : Chip) (x : Core) : Res :=
  let (a, n) := l.span
  let stop := ceilDiv (a + n - (ch.region r).base) 64
  let old := (((x.epoch e).marks.lookup r).getD 0)
  match ch.runsCode l with
  | 0 => match x.setMark e r (max old stop) with
    | some y => postedStore k whole l (ch.modCore k fun _ => y) y
    | none => .next (ch.doom k e)
  | _ => postedStore k whole l ch x

/-- A speculative store (R325, R326, R434). -/
def specOp (k whole e : Nat) (l : Runs) (ch : Chip) (x : Core) : Res :=
  let (a, n) := l.span
  let p := ch.partNo k
  match ch.reach p a n with
  | .error c => .access c a vWrite
  | .ok _ =>
    let own := inOwn k a n
    let reg := ch.regionAt p a n
    if !own && reg.isNone then .access cBOUNDS a vWrite
    else match (x.epoch e).state with
      | .doomed => .next ch
      | st =>
        if st == .closed || x.youngest != some e then .access cBOUNDS a vWrite
        else if own then specOwn k e l ch x
        else match reg with
          | some r => specAppend k whole e r l ch x
          | none => .next ch

/-- A store of runs by core `k`, of an access that covers `whole` bytes: one without a byte does nothing. -/
def storeRuns (k whole : Nat) (w : W64) (l : Runs) (ch : Chip) (x : Core) : Res :=
  if l.isEmpty then .next ch
  else if fSP w then specOp k whole (fEP w) l ch x
  else plainOp k whole l ch x

/-- A store with ORD = SEQ that is posted: the core issues nothing more until it is performed (R358). -/
def Res.seqStore (k : Nat) (w : W64) : Res → Res
  | .touch ch l st =>
    .touch (if fORD w == 2 then ch.modCore k fun y => { y with posted := y.posted.map fun q => { q with seq := true } } else ch) l st
  | r => r

/-- A scalar store of `size` bytes (R318). -/
def storeOp (size k : Nat) (w : W64) (ch : Chip) (x : Core) : Res :=
  let a := effAddr x w
  if !memFormOk .store w then .fault fcILLEGAL cBOUNDS 0
  else if !ordered .store w x then .block
  else if a % size != 0 then .access cALIGN a vWrite
  else (storeRuns k size w [(a, leBytes size (x.getS (fD w)).toNat)] ch x).seqStore k w

/-- st8. -/
def execSt8 (c k : Nat) (w : W64) (s : State) := issueOn c k w mScalar (storeOp 1 k w) s
/-- st16. -/
def execSt16 (c k : Nat) (w : W64) (s : State) := issueOn c k w mScalar (storeOp 2 k w) s
/-- st32. -/
def execSt32 (c k : Nat) (w : W64) (s : State) := issueOn c k w mScalar (storeOp 4 k w) s
/-- st64. -/
def execSt64 (c k : Nat) (w : W64) (s : State) := issueOn c k w mScalar (storeOp 8 k w) s

/-! ## Atomics (R320, R359) -/

/-- An atomic: `f` gives what memory is to hold, from what it held; nothing where it stays. -/
def atomicOp (k : Nat) (w : W64) (f : Core → W64 → Option W64) (ch : Chip) (x : Core) : Res :=
  let a := effAddr x w
  let p := ch.partNo k
  if !memFormOk .atomic w then .fault fcILLEGAL cBOUNDS 0
  else if !ordered .atomic w x then .block
  else if a % 8 != 0 then .access cALIGN a vAtomic
  else match ch.reach p a 8 with
    | .error e => .access e a vAtomic
    | .ok pl =>
      if !pl.isLocal then .access cBOUNDS a vAtomic
      else if ch.bad a 8 then .access cECC a vAtomic
      else if ch.committedHit a 8 then .access cPERM a vAtomic
      else if ch.starved p pl false a 8 || ch.starved p pl true a 8 then .block
      else
        let b := ((ch.pay p pl false a 8).pay p pl true a 8).countSoft a 8
        let c := match b.clash a 8 with
          | some (j, e) => b.doom j e
          | none => b
        let old := BitVec.ofNat 64 (c.read a 8)
        let d := match f x old with
          | some v => c.store a (leBytes 8 v.toNat)
          | none => c
        .touch (d.modCore k fun y => y.setS (fD w) old) [(a, 8)] (!(x.watchAt a 8 false).isSome)

/-- amoadd. -/
def execAmoadd (c k : Nat) (w : W64) (s : State) := issueOn c k w mScalar (atomicOp k w fun x old => some (old + x.getS (fB w))) s
/-- amoswap. -/
def execAmoswap (c k : Nat) (w : W64) (s : State) := issueOn c k w mScalar (atomicOp k w fun x _ => some (x.getS (fB w))) s
/-- amocas. -/
def execAmocas (c k : Nat) (w : W64) (s : State) :=
  issueOn c k w mScalar (atomicOp k w fun x old => if old == x.getS (fD w) then some (x.getS (fB w)) else none) s
/-- amomax: the signed maximum. -/
def execAmomax (c k : Nat) (w : W64) (s : State) :=
  issueOn c k w mScalar (atomicOp k w fun x old => some (if old.slt (x.getS (fB w)) then x.getS (fB w) else old)) s

/-! ## Vector loads and stores, gathers and scatters (R312, R321 to R323) -/

/-- The bytes from the first active lane to the last: offset and length. -/
def laneSpan (wd : Nat) (l : List Nat) : Nat × Nat :=
  match l.head?, l.getLast? with
  | some i, some j => (i * (wd / 8), (j + 1 - i) * (wd / 8))
  | _, _ => (0, 0)

/-- The 64 bytes at `a` as a vector of which the `n` bytes from offset `o` are read, as core `k` sees them. -/
def Chip.seeSpan (ch : Chip) (k a o n : Nat) : V512 := BitVec.ofNat 512 (leNat (ch.see (some k) (a + o) n) * 2 ^ (8 * o))

/-- A vector load of element width `wd` (R321, R324). -/
def vloadOp (wd k : Nat) (w : W64) (ch : Chip) (x : Core) : Res :=
  let a := effAddr x w
  let pg := x.getP (fMP w)
  let act := activeLanes wd pg
  let (o, n) := laneSpan wd act
  if !memFormOk .load w then .fault fcILLEGAL cBOUNDS 0
  else if !ordered .load w x then .block
  else if a % (wd / 8) != 0 then .access cALIGN a vRead
  else if act.isEmpty then .next ch
  else loadFrom k (a + o) n a 64 (laneRanges a wd pg)
      (fun c y => y.setV (fD w) (vMerge wd pg.toNat (y.getV (fD w)) (c.seeSpan k a o n)))
      (.vload k (fD w) wd pg.toNat) ch x

/-- vldb. -/
def execVldb (c k : Nat) (w : W64) (s : State) := issueOn c k w mVector (vloadOp 8 k w) s
/-- vldh. -/
def execVldh (c k : Nat) (w : W64) (s : State) := issueOn c k w mVector (vloadOp 16 k w) s
/-- vldw. -/
def execVldw (c k : Nat) (w : W64) (s : State) := issueOn c k w mVector (vloadOp 32 k w) s
/-- vldd. -/
def execVldd (c k : Nat) (w : W64) (s : State) := issueOn c k w mVector (vloadOp 64 k w) s

/-- Runs of consecutive bytes joined. -/
def joinRuns : Runs → Runs
  | [] => []
  | r :: rest =>
    match joinRuns rest with
    | [] => [r]
    | q :: more => if r.1 + r.2.length == q.1 then (r.1, r.2 ++ q.2) :: more else r :: q :: more

/-- A vector store of element width `wd` (R321). -/
def vstoreOp (wd k : Nat) (w : W64) (ch : Chip) (x : Core) : Res :=
  let a := effAddr x w
  let v := x.getV (fD w)
  let runs := joinRuns ((activeLanes wd (x.getP (fMP w))).map fun i => (a + i * (wd / 8), leBytes (wd / 8) (lane v wd i)))
  if !memFormOk .store w then .fault fcILLEGAL cBOUNDS 0
  else if !ordered .store w x then .block
  else if a % (wd / 8) != 0 then .access cALIGN a vWrite
  else (storeRuns k 64 w runs ch x).seqStore k w

/-- vstb. -/
def execVstb (c k : Nat) (w : W64) (s : State) := issueOn c k w mVector (vstoreOp 8 k w) s
/-- vsth. -/
def execVsth (c k : Nat) (w : W64) (s : State) := issueOn c k w mVector (vstoreOp 16 k w) s
/-- vstw. -/
def execVstw (c k : Nat) (w : W64) (s : State) := issueOn c k w mVector (vstoreOp 32 k w) s
/-- vstd. -/
def execVstd (c k : Nat) (w : W64) (s : State) := issueOn c k w mVector (vstoreOp 64 k w) s

/-- X, OFF and ORD of vgthw and vsctw (R322, R358). -/
def gatherFormOk (w : W64) (store : Bool) : Bool := !fX w && fIMM w == 0 && fORD w != 3 && (store || (!fSP w && fEP w == 0))

/-- The active lanes of a gather or scatter with their addresses, lane 0 first. -/
def laneAddrs (w : W64) (x : Core) : List (Nat × Nat) :=
  (activeLanes 32 (x.getP (fMP w))).map fun i => (i, ((x.getS (fA w)).toNat + lane (x.getV (fB w)) 32 i) % 2 ^ 64)

/-- The first lane address that is refused, with its code (R321, R322). -/
def laneRefusal (k : Nat) (l : List (Nat × Nat)) : Option (Nat × Nat) :=
  (l.find? fun e => e.2 % 4 != 0 || !inOwn k e.2 4).map fun e => (e.2, if e.2 % 4 != 0 then cALIGN else cBOUNDS)

/-- The ranges that the lanes touch. -/
def wordRanges (l : List (Nat × Nat)) : List (Nat × Nat) := l.map fun e => (e.2, 4)

/-- vgthw. -/
def execVgthw (c k : Nat) (w : W64) (s : State) :=
  issueOn c k w mVector (fun ch x =>
    let l := laneAddrs w x
    if !gatherFormOk w false then .fault fcILLEGAL cBOUNDS 0
    else if !ordered .load w x then .block
    else match laneRefusal k l with
      | some (a, e) => .access e a vRead
      | none => match l.find? fun e => ch.bad e.2 4 with
        | some e => .access cECC e.2 vRead
        | none =>
          if l.isEmpty then .next ch
          else .touch (ch.modCore k fun y => y.setV (fD w) (mapLanes 32 (y.getP (fMP w)) (y.getV (fD w)) fun i =>
            leNat (ch.see (some k) ((l.lookup i).getD 0) 4))) (wordRanges l) false) s

/-- vsctw: a higher lane's value remains where two name one address (R323). -/
def execVsctw (c k : Nat) (w : W64) (s : State) :=
  issueOn c k w mVector (fun ch x =>
    let l := laneAddrs w x
    let runs : Runs := l.map fun e => (e.2, leBytes 4 (lane (x.getV (fD w)) 32 e.1))
    let at' := ((l.head?).map Prod.snd).getD 0
    if !gatherFormOk w true then .fault fcILLEGAL cBOUNDS 0
    else if !ordered .store w x then .block
    else match laneRefusal k l with
      | some (a, e) => .access e a vWrite
      | none =>
        if l.isEmpty then .next ch
        else if fSP w then
          match (x.epoch (fEP w)).state with
          | .doomed => .next ch
          | st => if st == .closed || x.youngest != some (fEP w) then .access cBOUNDS at' vWrite
            else specOwn k (fEP w) runs ch x
        else match l.find? fun e => ch.writeCode e.2 4 != cOK with
          | some e => .access (ch.writeCode e.2 4) e.2 vWrite
          | none => .touch (ch.plainRuns runs) (wordRanges l) true) s

/-! ## Unit commands and completions (R338 to R347) -/

/-- The UNIT values (R338). -/
def unitListed (u : Nat) : Bool := u ≤ 2 || (0x10 ≤ u && u ≤ 0x13) || u == 0x18 || u == 0x19 || (0x20 ≤ u && u ≤ 0x25)

/-- The operations of a unit (R462, R511, R533, R592, R646, R703). -/
def opListed (u op : Nat) : Bool :=
  if u == 0 then 1 ≤ op && op ≤ 3
  else if u == 1 then (1 ≤ op && op ≤ 8) || op == 0x10 || (0x20 ≤ op && op ≤ 0x22)
  else if u == 2 then 1 ≤ op && op ≤ 3
  else if u < 0x18 then (1 ≤ op && op ≤ 0x0A) || op == 0x10 || op == 0x11
  else if u < 0x20 then 1 ≤ op && op ≤ 5
  else op == 1 || op == 2

/-- The unit is absent on this chip (R97, R341). -/
def Chip.unitAbsent (ch : Chip) (u : Nat) : Bool :=
  if u ≤ 2 then false
  else if u < 0x18 then ch.variant.cus ≤ u - 0x10
  else if u < 0x20 then ch.variant.tes ≤ u - 0x18
  else ch.variant.links ≤ u - 0x20

/-- The partition holds the unit (R341). -/
def Chip.unitHeld (ch : Chip) (p u : Nat) : Bool :=
  let x := (ch.part p).plate
  if u ≤ 2 then true
  else if u < 0x18 then bitOf x.cuMask (u - 0x10)
  else if u < 0x20 then bitOf x.teMask (u - 0x18)
  else bitOf x.linkMask (u - 0x20)

/-- A command takes its place among those that have arrived: after every earlier one and, of those of its cycle, after those of cores
with no higher number (R347). -/
def UnitCmd.arrive (u : UnitCmd) (l : List UnitCmd) : List UnitCmd :=
  let before := fun (v : UnitCmd) => v.time != u.time || v.core ≤ u.core
  let n := (l.reverse.takeWhile fun v => !before v).length
  l.take (l.length - n) ++ u :: l.drop (l.length - n)

/-- A command has reached coder unit `un`: its speculation stops, and what it speculated is kept (R616). -/
def Chip.stopRunahead (ch : Chip) (un : Nat) : Chip :=
  if 0x10 ≤ un && un < 0x18 then ch.modCu (un - 0x10) fun y => { y with speculating := none } else ch

/-- cmd: the command leaves for its unit, which accepts it in its turn; one that no acceptance could take completes here
(R97, R338 to R343, R774). -/
def execCmd (c k : Nat) (w : W64) (s : State) :=
  issueOn c k w (mA ||| mB ||| mUNIT) (fun ch x =>
    let un := fUNIT w
    let tag := (x.getS (fB w)).toNat % 0x10000
    let raw := leBytes 64 (x.getV (fA w)).toNat
    let u : UnitCmd := {
      id := ch.nextReq, unit := un, core := k, tag := tag, quiet := bitOf (raw.getD 1 0) 0
      bytes := (raw.set 2 (tag % 256)).set 3 (tag / 256), acw := x.acw.toNat, after := x.posted.map Posted.id, time := ch.time }
    if !unitListed un then .fault fcILLEGAL cBOUNDS 0
    else if 32 ≤ x.outst.length then .block
    else
      let a : Chip := { ch.modCore k fun y => { y with outst := y.outst ++ [(un, tag)] } with nextReq := ch.nextReq + 1 }
      .next (
        if ch.unitAbsent un then a.refuse u cABSENT
        else if !ch.unitHeld (ch.partNo k) un then a.refuse u cPERM
        else
          let b := a.stopRunahead un
          if opListed un u.op then { b with arriving := u.arrive b.arriving }
          else if ch.unitFenced u then b.complete u cFENCED 0
          else b.refuse u cBOUNDS)) s

/-- The word of a pop that brings no completion: UNIT 0xFF, a code and a tag (R345, R346). -/
def noCompletion (code tag : Nat) : W64 := BitVec.ofNat 64 (0xFF * 2 ^ 24 + code * 2 ^ 16 + tag)

/-- A completion is popped into sD. -/
def popRes (k rd : Nat) (ch : Chip) (c : Completion) (y : Core) : Res := .next (ch.modCore k fun _ => y.setS rd c.word)

/-- cwait (R343 to R345). -/
def execCwait (c k : Nat) (w : W64) (s : State) :=
  issueOn c k w mD (fun ch x => match x.pop fun _ => true with
    | some (q, y) => popRes k (fD w) ch q y
    | none =>
      if x.outst.isEmpty then .next (ch.modCore k fun y => y.setS (fD w) (noCompletion cOK 0))
      else .wait ch (.anyCompletion (fD w) ch.time)) s

/-- cwtag (R343 to R345). -/
def execCwtag (c k : Nat) (w : W64) (s : State) :=
  issueOn c k w (mD ||| mA) (fun ch x =>
    let tag := (x.getS (fA w)).toNat % 0x10000
    match x.pop fun q => q.tag == tag with
    | some (q, y) => popRes k (fD w) ch q y
    | none =>
      if !x.outst.any fun o => o.2 == tag then .next (ch.modCore k fun y => y.setS (fD w) (noCompletion cOK 0))
      else .wait ch (.tagged (fD w) tag ch.time)) s

/-- cpoll (R344, R345). -/
def execCpoll (c k : Nat) (w : W64) (s : State) :=
  issueOn c k w mD (fun ch x => match x.pop fun _ => true with
    | some (q, y) => popRes k (fD w) ch q y
    | none => .next (ch.modCore k fun y => y.setS (fD w) (noCompletion cOK 0))) s

/-- A cwait or cwtag has waited stream_desc_us (R346, R845). -/
def execCwaitTimeout (c k : Nat) (s : State) : Host.Outcome State Fault Refusal :=
  onChip c (fun ch =>
    let p := ch.partNo k
    let due := fun (since : Nat) => since + ch.streamNs p ≤ ch.time && ch.alive && !(ch.part p).inSlot
    match (ch.core k).state, (ch.core k).wait with
    | .waiting, some (.anyCompletion rd since) => if due since then ch.answer k rd (noCompletion cTIMEOUT 0) else ch
    | .waiting, some (.tagged rd tag since) => if due since then ch.answer k rd (noCompletion cTIMEOUT tag) else ch
    | _, _ => ch) s

/-! ## System instructions (R350 to R353, R376) -/

/-- tend: the core's OPEN epochs are aborted with an event each, and the core parks (R350, R1020). -/
def execTend (c k : Nat) (w : W64) (s : State) :=
  issueOn c k w 0 (fun ch x =>
    if !x.posted.isEmpty then .block
    else
      let opened := x.epochOrder.filter fun n => (x.epoch n).state == .openE
      let a := (ch.forEach opened.reverse fun n b => b.ev 0x0203 warn k (ch.partNo k) cOK 0 n).closeEpochs k
      let b := a.modCore k fun y => { y with
        state := .parked, wait := none, ended := true, pc := (y.pc + 8) % 0x40000, retired := (y.retired + 1) % 2 ^ 64
        tretired := y.tretired + 1, dbg := { y.dbg with skip := false } }
      .done (if x.dbg.stepping then b.haltCore k 3 0 else b)) s

/-- fence (R352). -/
def execFence (c k : Nat) (w : W64) (s : State) :=
  issueOn c k w mIMM (fun ch x =>
    if 8 ≤ fIMM w then .fault fcILLEGAL cBOUNDS 0
    else if (bitOf (fIMM w) 0 && !x.posted.isEmpty) || (bitOf (fIMM w) 2 && x.cq.length < x.outst.length) then .block
    else .next ch) s

/-- The value of a control register of core `k`; none where none is listed (R353). -/
def Chip.control (ch : Chip) (k n : Nat) : Option Nat :=
  let x := ch.core k
  let p := ch.partNo k
  match n with
  | 0x000 => some x.acw.toNat
  | 0x001 => some (p % 8 * 2 ^ 16 + podOf k * 2 ^ 8 + k)
  | 0x002 => some (ch.part p).tickIndex
  | 0x003 => some (ch.time % 2 ^ 64)
  | 0x004 => some x.tcycles
  | 0x005 => some x.tretired
  | 0x006 => some (ch.status p)
  | 0x007 => some (min 63 x.outst.length * 2 ^ 8 + min 63 x.cq.length)
  | 0x008 => some x.wdgLeft
  | 0x010 => some x.ldpri
  | _ => none

/-- crd (R353, R404). -/
def execCrd (c k : Nat) (w : W64) (s : State) :=
  issueOn c k w (mD ||| mIMM) (fun ch _ => match ch.control k (fIMM w) with
    | some v => .next (ch.modCore k fun y => { y.setS (fD w) (BitVec.ofNat 64 v) with late := if fIMM w == 0 then 0 else y.late })
    | none => .fault fcOPERAND cBOUNDS 0) s

/-- cwr (R289, R353, R388, R404). -/
def execCwr (c k : Nat) (w : W64) (s : State) :=
  issueOn c k w (mA ||| mIMM) (fun ch x => match fIMM w with
    | 0x000 => match x.writeAcw (x.getS (fA w)) with
      | some y => .next (ch.modCore k fun _ => y)
      | none => .fault fcOPERAND cBOUNDS 0
    | 0x010 => if ch.expertOf k then .next (ch.modCore k fun y => { y with ldpri := (x.getS (fA w)).toNat % 2 }) else .fault fcEXPERT cPERM 0
    | _ => .fault fcOPERAND cBOUNDS 0) s

/-- wdk (R379). -/
def execWdk (c k : Nat) (w : W64) (s : State) := regOp c k w 0 (fun x => { x with wdgLeft := x.wdgPeriod }) s

/-- trap: FAULT_ADDR holds the trap code (R368, R373). -/
def execTrap (c k : Nat) (w : W64) (s : State) := issueOn c k w mIMM (fun _ _ => .fault fcTRAP cOK (fIMM w % 0x10000)) s

/-- bkpt: a debug halt where CORE.DBG_CFG.EN is 1, else a BREAK fault (R376). -/
def execBkpt (c k : Nat) (w : W64) (s : State) :=
  issueOn c k w 0 (fun ch x =>
    if !x.dbg.en then .fault fcBREAK cOK 0
    else
      let a := ch.retire k
      .done (if (a.core k).state == .running then a.haltCore k 6 0 else a)) s

/-- nop. -/
def execNop (c k : Nat) (w : W64) (s : State) := issueOn c k w 0 (fun ch _ => .next ch) s

/-! ## What befalls a core (R308, R310, R371, R378 to R380, R387) -/

/-- The code that refuses the fetch at a core's PC (R308). -/
def Core.fetchCode (x : Core) : Nat :=
  if x.pc % 8 != 0 then cALIGN
  else if 8 * x.image.length ≤ x.pc then cBOUNDS
  else if x.badCode.contains (lineOf x.pc) then cECC
  else cOK

/-- A fetch at a bad or unreadable PC (R308). -/
def execFetchFault (c k : Nat) (s : State) : Host.Outcome State Fault Refusal :=
  onChip c (fun ch =>
    let x := ch.core k
    if ch.canIssue k && !x.dbg.request && x.breakAt.isNone && x.fetchCode != cOK then ch.fetchFault k x.fetchCode else ch) s

/-- A word that is no instruction: its opcode is not listed, or it is a sop whose FN is not (R310, R421). -/
def illegalWord (w : W64) : Bool :=
  let op := bitsOf w.toNat 56 8
  let fn := bitsOf w.toNat 16 8
  !opcodeListed op || (op == 0xE4 && !(fn ≤ 5 || (0x10 ≤ fn && fn ≤ 0x13) || fn == 0x18))

/-- A word that is no instruction is fetched (R310). -/
def execIllegalInstrWord (c k : Nat) (w : W64) (s : State) : Host.Outcome State Fault Refusal :=
  if illegalWord w then issueOn c k w (2 ^ 56 - 1) (fun _ _ => .fault fcILLEGAL cBOUNDS 0) s else onChip c id s

/-- The core stands at a breakpoint that is armed (R387). -/
def execBreakpointHit (c k : Nat) (s : State) : Host.Outcome State Fault Refusal :=
  onChip c (fun ch =>
    match (ch.core k).breakAt with
    | some i => if ch.canIssue k && !(ch.core k).dbg.request then ch.haltCore k 4 i else ch
    | none => ch) s

/-- The error response to a store of this chip arrives (R371, R401). -/
def execPostedStoreError (c id : Nat) (s : State) : Host.Outcome State Fault Refusal :=
  onChip c (fun ch =>
    match ch.remote id with
    | some r => if ch.alive && r.link == ownChip then ch.requestDone r r.code [] else ch
    | none => ch) s

/-- The core watchdog reaches 0 (R374, R380); the core leaves any queue it waits in. -/
def execCoreWatchdogExpiry (c k : Nat) (s : State) : Host.Outcome State Fault Refusal :=
  onChip c (fun ch =>
    let x := ch.core k
    if ch.alive && x.active && x.wdgPeriod != 0 && x.wdgLeft == 0 then ch.fault k fcWATCHDOG cTIMEOUT 0 else ch) s

end Sys2Proof.Machine
end

