-- ==== Sys2Proof/Machine/Sfu.lean ====
section
/-! DEFINITION. The SFU instructions of a core (R336, R337, R499, R500). -/
namespace Sys2Proof.Machine

/-! ## SFU instructions (R336, R337, R499, R500) -/

/-- An SFU instruction: `g f a b c` is its lane result. -/
def sfuOp (c k : Nat) (w : W64) (used : Nat) (g : (Nat → Nat) → Nat → Nat → Nat → Nat) (s : State) : Host.Outcome State Fault Refusal :=
  issueOn c k w (used ||| mD ||| mA ||| mP ||| mRM ||| mFMT ||| mFN)
    (fun ch x =>
      let fn := fFN w
      let prog := bitOf fn 7
      if fFMT w != fFP32 || fRM w != 0 || (if prog then bitOf fn 6 else bitsOf fn 4 3 != 0) then .fault fcILLEGAL cBOUNDS 0
      else match (ch.tablesOf k).function prog (if prog then fn % 64 else fn % 16) with
        | none => .fault fcOPERAND cBOUNDS 0
        | some f =>
          let v := mapLanes 32 (x.getP (fP w)) (x.getV (fD w)) fun i =>
            g f (lane (x.getV (fA w)) 32 i) (lane (x.getV (fB w)) 32 i) (lane (x.getV (fC w)) 32 i)
          .next (ch.modCore k fun y => y.setV (fD w) v)) s

/-- sfu: D = f(A). -/
def execSfu (c k : Nat) (w : W64) (s : State) := sfuOp c k w 0 (fun f a _ _ => f a) s
/-- sfuba: D = f(A + B) x C. -/
def execSfuba (c k : Nat) (w : W64) (s : State) := sfuOp c k w (mB ||| mC) (fun f a b x => mul32 (f (add32 a b)) x) s
/-- sfug: D = A x f(B). -/
def execSfug (c k : Nat) (w : W64) (s : State) := sfuOp c k w mB (fun f a b _ => mul32 a (f b)) s

end Sys2Proof.Machine
end

