-- ==== Sys2Proof/Machine/Tap.lean ====
section
/-! DEFINITION. The test access ports and the DEBUG chain that joins them: instructions, identification, boundary cells, and the register
accesses of the debugger (R59, R389 to R392, R975). -/
namespace Sys2Proof.Machine

/-- The instruction that a value of the instruction register selects: an unlisted value selects BYPASS (R389). -/
def tapSelect (v : Nat) : Nat := if [0x00, 0x01, 0x02, 0x03, 0x10, 0x11].contains (v % 256) then v % 256 else 0xFF

/-- IDCODE of a variant (R390): version 1, the variant number, the manufacturer 0x2D4, and 1. -/
def Variant.idcode (v : Variant) : Nat := 0x1 * 2 ^ 28 + v.number * 2 ^ 12 + 0x2D4 * 2 + 1

/-- The levels of the pins with boundary cells, in the order of the signal table (R392; the order: DESIGN CHOICE, log entry 51): RST_N,
WAKE_N, PWR_FAIL_N, TICK_IN, TICK_OUT, CHIP_INDEX[1:0], SMB_SCL, SMB_SDA, SMB_ALERT_N. `pins` gives those that only the board knows:
WAKE_N, TICK_IN, SMB_SCL, SMB_SDA from bit 0. RST_N is high at a chip whose TAP answers. -/
def Chip.pinLevels (ch : Chip) (pins : Nat) : Nat :=
  [true, bitOf pins 0, !ch.pwr.pwrFail, bitOf pins 1, ch.tickOut, bitOf ch.strapPins 0, bitOf ch.strapPins 1, bitOf pins 2, bitOf pins 3,
    ch.ler.fatals.isEmpty].foldr (fun b n => b2n b + 2 * n) 0

/-- Capture-DR: the bits that the selected data register shifts out (R389 to R391). The bypass bit captures 0; what DBG_ADDR captures the
spec leaves open, a free value (DESIGN CHOICE, log entry 51). -/
def Chip.tapCapture (ch : Chip) (pins : Nat) : Nat × Chip :=
  match ch.tap.ir with
  | 0x00 => (ch.pinLevels pins, ch)
  | 0x01 => (ch.pinLevels pins, ch)
  | 0x02 => (ch.variant.idcode, ch)
  | 0x10 => let (n, a) := ch.draw; ((Config.freeValue n).toNat % 2 ^ 33, a)
  | 0x11 => (ch.tap.data + ch.tap.code * 2 ^ 64, ch)
  | _ => (0, ch)

/-- Update-DR of DBG_DATA: one access of 8 bytes at the offset in DBG_ADDR, a write of `v` when the write flag is 1, else a read (R391). -/
def Chip.tapAccess (ch : Chip) (v : Nat) : Chip :=
  let off := ch.tap.dbgAddr
  if ch.tap.dbgWrite then
    let (a, code) := ch.regWrite agTAP off 8 (v % 2 ^ 64)
    let b := a.reportWrite agTAP off 8 code
    { b with tap := { b.tap with data := v % 2 ^ 64, code := code } }
  else
    let (a, code, x) := ch.regRead agTAP off 8
    let b := a.violateIf agTAP 0xFF vRegRead code off true
    { b with tap := { b.tap with data := x, code := code } }

/-- Update-DR: what the bits shifted in do under the selected instruction (R389 to R391). -/
def Chip.tapUpdate (ch : Chip) (v : Nat) : Chip :=
  match ch.tap.ir with
  | 0x00 => { ch with tap := { ch.tap with cells := v % 2 ^ 10 } }
  | 0x01 => { ch with tap := { ch.tap with cells := v % 2 ^ 10 } }
  | 0x10 => { ch with tap := { ch.tap with dbgAddr := v % 2 ^ 24, dbgWrite := bitOf v 32 } }
  | 0x11 => ch.tapAccess v
  | _ => ch

/-- One TAP in a scan of the chain: the instruction that the scan loads, if it loads any; then Capture-DR, the shift and Update-DR. -/
def Chip.tapScan (ch : Chip) (ir : Option Nat) (dr pins : Nat) : Chip :=
  let a : Chip := { ch with tap := { ch.tap with ir := (ir.map tapSelect).getD ch.tap.ir } }
  let (out, b) := a.tapCapture pins
  (b.emit (.tap out)).tapUpdate dr

/-- A scan of the chain, whose `j`-th TAP comes next: the chips in ascending index, without those that are switched out (R59). -/
def scanChain (irs drs pins : List Nat) : Nat → List Chip → List Chip
  | _, [] => []
  | j, ch :: r =>
    if ch.tapIn then ch.tapScan irs[j]? (drs.getD j 0) (pins.getD j 0) :: scanChain irs drs pins (j + 1) r
    else ch :: scanChain irs drs pins j r

/-- A scan of the DEBUG chain that ends in Update-DR: values for the instruction registers of its TAPs, none where the instructions stay,
then the values shifted into their data registers, and the board's levels at their pins (R59, R389 to R392). -/
def execTapDbgDataUpdate (irs drs pins : List Nat) (s : State) : Host.Outcome State Fault Refusal :=
  .next { s with chips := scanChain irs drs pins 0 s.chips }

/-- TRST_N resets the ports in the chain: IDCODE is selected (R389). -/
def execTapReset (s : State) : Host.Outcome State Fault Refusal :=
  .next { s with chips := s.chips.map fun ch => if ch.tapIn then { ch with tap := { ch.tap with ir := 0x02 } } else ch }

end Sys2Proof.Machine
end

