-- ==== Sys2Proof/Machine/Dispatch.lean ====
section
/-! DEFINITION. The dispatch: one arm per command of the table, each one direct call of its meaning. -/
namespace Sys2Proof.Machine

/-- The effect of a command on everything but the queue: one direct call of its meaning. -/
def exec (i : Instr) (s : State) : Host.Outcome State Fault Refusal :=
  match i with
  | .tmcStart => Sys2Proof.Machine.execTmcStart s
  | .hello n seq payload => Sys2Proof.Machine.execHello n seq payload s
  | .auth n seq payload => Sys2Proof.Machine.execAuth n seq payload s
  | .getStatus n seq payload => Sys2Proof.Machine.execGetStatus n seq payload s
  | .getTelemetry n seq payload => Sys2Proof.Machine.execGetTelemetry n seq payload s
  | .setTrayCap n seq payload => Sys2Proof.Machine.execSetTrayCap n seq payload s
  | .getTrayCap n seq payload => Sys2Proof.Machine.execGetTrayCap n seq payload s
  | .chipPower n seq payload => Sys2Proof.Machine.execChipPower n seq payload s
  | .chipReset n seq payload => Sys2Proof.Machine.execChipReset n seq payload s
  | .readLer n seq payload => Sys2Proof.Machine.execReadLer n seq payload s
  | .releaseLer n seq payload => Sys2Proof.Machine.execReleaseLer n seq payload s
  | .flashWrite n seq payload => Sys2Proof.Machine.execFlashWrite n seq payload s
  | .flashCommit n seq payload => Sys2Proof.Machine.execFlashCommit n seq payload s
  | .plateSelect n seq payload => Sys2Proof.Machine.execPlateSelect n seq payload s
  | .configRead n seq payload => Sys2Proof.Machine.execConfigRead n seq payload s
  | .configWrite n seq payload => Sys2Proof.Machine.execConfigWrite n seq payload s
  | .twinControl n seq payload => Sys2Proof.Machine.execTwinControl n seq payload s
  | .mgmtBadFrame n frame => Sys2Proof.Machine.execMgmtBadFrame n frame s
  | .mgmtUnknownType n seq typ len => Sys2Proof.Machine.execMgmtUnknownType n seq typ len s
  | .mgmtConnect => Sys2Proof.Machine.execMgmtConnect s
  | .mgmtHeartbeat => Sys2Proof.Machine.execMgmtHeartbeat s
  | .mgmtSessionTimeout n => Sys2Proof.Machine.execMgmtSessionTimeout n s
  | .tmcHeartbeatCheck c => Sys2Proof.Machine.execTmcHeartbeatCheck c s
  | .tmcRecoveryStep c => Sys2Proof.Machine.execTmcRecoveryStep c s
  | .wakeAssert => Sys2Proof.Machine.execWakeAssert s
  | .wakeTimer => Sys2Proof.Machine.execWakeTimer s
  | .railsPowerGood c => Sys2Proof.Machine.execRailsPowerGood c s
  | .railsOff c => Sys2Proof.Machine.execRailsOff c s
  | .traySleepEnter => Sys2Proof.Machine.execTraySleepEnter s
  | .fanFail f => Sys2Proof.Machine.execFanFail f s
  | .flashSwitchRequest mask => Sys2Proof.Machine.execFlashSwitchRequest mask s
  | .flashSwitchEnd c => Sys2Proof.Machine.execFlashSwitchEnd c s
  | .pwrFailAssert pin mv => Sys2Proof.Machine.execPwrFailAssert pin mv s
  | .pwrFailRelease mv => Sys2Proof.Machine.execPwrFailRelease mv s
  | .wakeHoldDiscard => Sys2Proof.Machine.execWakeHoldDiscard s
  | .thermalLimitStep => Sys2Proof.Machine.execThermalLimitStep s
  | .inletDerate x => Sys2Proof.Machine.execInletDerate x s
  | .inletShutdown => Sys2Proof.Machine.execInletShutdown s
  | .filterWarning duty draw => Sys2Proof.Machine.execFilterWarning duty draw s
  | .tmcDormantPoll c => Sys2Proof.Machine.execTmcDormantPoll c s
  | .tmcBootPoll => Sys2Proof.Machine.execTmcBootPoll s
  | .tmcReqPoll c => Sys2Proof.Machine.execTmcReqPoll c s
  | .hostPerst asserted cableA cableB => Sys2Proof.Machine.execHostPerst asserted cableA cableB s
  | .sbAddr addr off => Sys2Proof.Machine.execSbAddr addr off s
  | .sbData32Read addr => Sys2Proof.Machine.execSbData32Read addr s
  | .sbData32Write addr v => Sys2Proof.Machine.execSbData32Write addr v s
  | .sbData64Read addr => Sys2Proof.Machine.execSbData64Read addr s
  | .sbData64Write addr v => Sys2Proof.Machine.execSbData64Write addr v s
  | .lerFrame addr frame => Sys2Proof.Machine.execLerFrame addr frame s
  | .lerRead addr => Sys2Proof.Machine.execLerRead addr s
  | .lerRelease addr value => Sys2Proof.Machine.execLerRelease addr value s
  | .sbReset addr kind key => Sys2Proof.Machine.execSbReset addr kind key s
  | .sbStatus addr => Sys2Proof.Machine.execSbStatus addr s
  | .sbBadPec addr code => Sys2Proof.Machine.execSbBadPec addr code s
  | .rstNLow c => Sys2Proof.Machine.execRstNLow c s
  | .wakeNPulse c ns => Sys2Proof.Machine.execWakeNPulse c ns s
  | .powerOnReset c => Sys2Proof.Machine.execPowerOnReset c s
  | .pwrFailNFall c => Sys2Proof.Machine.execPwrFailNFall c s
  | .pwrFailNRise c => Sys2Proof.Machine.execPwrFailNRise c s
  | .tickInEdge => Sys2Proof.Machine.execTickInEdge s
  | .unitBlockAccessIdle c a off size => Sys2Proof.Machine.execUnitBlockAccessIdle c a off size s
  | .registerWrite c a off size v => Sys2Proof.Machine.execRegisterWrite c a off size v s
  | .timeLowRead c a => Sys2Proof.Machine.execTimeLowRead c a s
  | .plateLoad c a => Sys2Proof.Machine.execPlateLoad c a s
  | .plateValidate c code data => Sys2Proof.Machine.execPlateValidate c code data s
  | .plateApply c => Sys2Proof.Machine.execPlateApply c s
  | .plateUnload c a => Sys2Proof.Machine.execPlateUnload c a s
  | .plateCancel c a p => Sys2Proof.Machine.execPlateCancel c a p s
  | .overlayApply c p => Sys2Proof.Machine.execOverlayApply c p s
  | .fallbackApply c p => Sys2Proof.Machine.execFallbackApply c p s
  | .fallbackTimeout c => Sys2Proof.Machine.execFallbackTimeout c s
  | .tickStart c p => Sys2Proof.Machine.execTickStart c p s
  | .substituteTick c p => Sys2Proof.Machine.execSubstituteTick c p s
  | .tickDeadline c p => Sys2Proof.Machine.execTickDeadline c p s
  | .extendedDeadline c p => Sys2Proof.Machine.execExtendedDeadline c p s
  | .tickComplete c p => Sys2Proof.Machine.execTickComplete c p s
  | .admitJob c p => Sys2Proof.Machine.execAdmitJob c p s
  | .retireJob c p => Sys2Proof.Machine.execRetireJob c p s
  | .syncPost c p => Sys2Proof.Machine.execSyncPost c p s
  | .hostNop c p => Sys2Proof.Machine.execHostNop c p s
  | .hostFence c p => Sys2Proof.Machine.execHostFence c p s
  | .clrOverruns c a p => Sys2Proof.Machine.execClrOverruns c a p s
  | .pwrOffer c share => Sys2Proof.Machine.execPwrOffer c share s
  | .pwrCommit c => Sys2Proof.Machine.execPwrCommit c s
  | .pwrAbandon c => Sys2Proof.Machine.execPwrAbandon c s
  | .offerExpiry c => Sys2Proof.Machine.execOfferExpiry c s
  | .fcChangeDone c => Sys2Proof.Machine.execFcChangeDone c s
  | .thermalTrip c => Sys2Proof.Machine.execThermalTrip c s
  | .thermalClear c => Sys2Proof.Machine.execThermalClear c s
  | .idleEntry c => Sys2Proof.Machine.execIdleEntry c s
  | .idleExit c scrub => Sys2Proof.Machine.execIdleExit c scrub s
  | .pwrCtrlStandby c a => Sys2Proof.Machine.execPwrCtrlStandby c a s
  | .standbyEntryDone c => Sys2Proof.Machine.execStandbyEntryDone c s
  | .pwrCtrlActive c a => Sys2Proof.Machine.execPwrCtrlActive c a s
  | .pwrCtrlDormant c a => Sys2Proof.Machine.execPwrCtrlDormant c a s
  | .dormantReady c => Sys2Proof.Machine.execDormantReady c s
  | .mma c p => Sys2Proof.Machine.execMma c p s
  | .drain c p => Sys2Proof.Machine.execDrain c p s
  | .loadAcc c p => Sys2Proof.Machine.execLoadAcc c p s
  | .arrayCmdBegin c p mac => Sys2Proof.Machine.execArrayCmdBegin c p mac s
  | .arrayCmdComplete c p mac => Sys2Proof.Machine.execArrayCmdComplete c p mac s
  | .softmax c k => Sys2Proof.Machine.execSoftmax c k s
  | .rowstat c k => Sys2Proof.Machine.execRowstat c k s
  | .norm c k => Sys2Proof.Machine.execNorm c k s
  | .rowCmdComplete c k far => Sys2Proof.Machine.execRowCmdComplete c k far s
  | .seClaim c p => Sys2Proof.Machine.execSeClaim c p s
  | .seRelease c p n far => Sys2Proof.Machine.execSeRelease c p n far s
  | .seRun c p => Sys2Proof.Machine.execSeRun c p s
  | .seAttach c p => Sys2Proof.Machine.execSeAttach c p s
  | .seTail c p => Sys2Proof.Machine.execSeTail c p s
  | .seArm c p => Sys2Proof.Machine.execSeArm c p s
  | .seCtxArmWrite c k p x far => Sys2Proof.Machine.execSeCtxArmWrite c k p x far s
  | .seCancel c p n far => Sys2Proof.Machine.execSeCancel c p n far s
  | .swap c p => Sys2Proof.Machine.execSwap c p s
  | .chain c p => Sys2Proof.Machine.execChain c p s
  | .chainStageStart c p x stage far => Sys2Proof.Machine.execChainStageStart c p x stage far s
  | .carouselArm c p far => Sys2Proof.Machine.execCarouselArm c p far s
  | .rotate c p => Sys2Proof.Machine.execRotate c p s
  | .carouselTransfer c p st j => Sys2Proof.Machine.execCarouselTransfer c p st j s
  | .carouselTransferDone c p st j => Sys2Proof.Machine.execCarouselTransferDone c p st j s
  | .carouselDisarm c p => Sys2Proof.Machine.execCarouselDisarm c p s
  | .seRingFetch c p x far => Sys2Proof.Machine.execSeRingFetch c p x far s
  | .seDescriptorBegin c p x far => Sys2Proof.Machine.execSeDescriptorBegin c p x far s
  | .seDescriptorComplete c p x far => Sys2Proof.Machine.execSeDescriptorComplete c p x far s
  | .seDescriptorTimeout c p x n far => Sys2Proof.Machine.execSeDescriptorTimeout c p x n far s
  | .bucketRefill c => Sys2Proof.Machine.execBucketRefill c s
  | .cuClaim c x => Sys2Proof.Machine.execCuClaim c x s
  | .cuRelease c x => Sys2Proof.Machine.execCuRelease c x s
  | .encOpen c x => Sys2Proof.Machine.execEncOpen c x s
  | .encStatic c x => Sys2Proof.Machine.execEncStatic c x s
  | .encParam c x => Sys2Proof.Machine.execEncParam c x s
  | .encFlush c x => Sys2Proof.Machine.execEncFlush c x s
  | .decOpen c x => Sys2Proof.Machine.execDecOpen c x s
  | .decStatic c x => Sys2Proof.Machine.execDecStatic c x s
  | .decParam c x => Sys2Proof.Machine.execDecParam c x s
  | .decClose c x => Sys2Proof.Machine.execDecClose c x s
  | .seal c x => Sys2Proof.Machine.execSeal c x s
  | .check c x => Sys2Proof.Machine.execCheck c x s
  | .runaheadSpeculate c x far => Sys2Proof.Machine.execRunaheadSpeculate c x far s
  | .cuCmdComplete c x far => Sys2Proof.Machine.execCuCmdComplete c x far s
  | .teClaim c x => Sys2Proof.Machine.execTeClaim c x s
  | .teRelease c x => Sys2Proof.Machine.execTeRelease c x s
  | .teLoad c x => Sys2Proof.Machine.execTeLoad c x s
  | .score c x => Sys2Proof.Machine.execScore c x s
  | .gather c x => Sys2Proof.Machine.execGather c x s
  | .teCmdComplete c x far => Sys2Proof.Machine.execTeCmdComplete c x far s
  | .stats c n far => Sys2Proof.Machine.execStats c n far s
  | .adaptReset c n => Sys2Proof.Machine.execAdaptReset c n s
  | .flitReceive c n fec flit => Sys2Proof.Machine.execFlitReceive c n fec flit s
  | .ackTimer c n => Sys2Proof.Machine.execAckTimer c n s
  | .replayTimer c n => Sys2Proof.Machine.execReplayTimer c n s
  | .retrainDone c n ok => Sys2Proof.Machine.execRetrainDone c n ok s
  | .linkTrainingDone c n ok serial chip link flags => Sys2Proof.Machine.execLinkTrainingDone c n ok serial chip link flags s
  | .freshTraining c n => Sys2Proof.Machine.execFreshTraining c n s
  | .linkForceDown c a n => Sys2Proof.Machine.execLinkForceDown c a n s
  | .linkCtrlRetrain c a n => Sys2Proof.Machine.execLinkCtrlRetrain c a n s
  | .remoteRequestServe c n p win off len write data => Sys2Proof.Machine.execRemoteRequestServe c n p win off len write data s
  | .remoteResponse c id code data => Sys2Proof.Machine.execRemoteResponse c id code data s
  | .remoteTimeout c id => Sys2Proof.Machine.execRemoteTimeout c id s
  | .narrowBlockReceive c n p win whole desc rec blk => Sys2Proof.Machine.execNarrowBlockReceive c n p win whole desc rec blk s
  | .twinTickMsg c p index => Sys2Proof.Machine.execTwinTickMsg c p index s
  | .twinPair c baseId twinPlate mode mask contract parts index => Sys2Proof.Machine.execTwinPair c baseId twinPlate mode mask contract parts index s
  | .twinHeartbeatSend c => Sys2Proof.Machine.execTwinHeartbeatSend c s
  | .twinHeartbeatMsg c hb boot age => Sys2Proof.Machine.execTwinHeartbeatMsg c hb boot age s
  | .twinHeartbeatLoss c => Sys2Proof.Machine.execTwinHeartbeatLoss c s
  | .proofGo c a p v => Sys2Proof.Machine.execProofGo c a p v s
  | .proofDigestDone c p j => Sys2Proof.Machine.execProofDigestDone c p j s
  | .twinDigest c p index j dec key len crc intra => Sys2Proof.Machine.execTwinDigest c p index j dec key len crc intra s
  | .proofCutoff c p => Sys2Proof.Machine.execProofCutoff c p s
  | .ckptCopyDone c p => Sys2Proof.Machine.execCkptCopyDone c p s
  | .ckptDone c p index half => Sys2Proof.Machine.execCkptDone c p index half s
  | .overlayReady c p applyTick => Sys2Proof.Machine.execOverlayReady c p applyTick s
  | .overlayCommit c p applyTick commit => Sys2Proof.Machine.execOverlayCommit c p applyTick commit s
  | .fallbackAt c p t => Sys2Proof.Machine.execFallbackAt c p t s
  | .twinFail c mask cause => Sys2Proof.Machine.execTwinFail c mask cause s
  | .twinDetachMsg c => Sys2Proof.Machine.execTwinDetachMsg c s
  | .twinRejoinMsg c => Sys2Proof.Machine.execTwinRejoinMsg c s
  | .twinSwitchMsg c mask t => Sys2Proof.Machine.execTwinSwitchMsg c mask t s
  | .resetReq c count => Sys2Proof.Machine.execResetReq c count s
  | .twinResetReqSend c => Sys2Proof.Machine.execTwinResetReqSend c s
  | .twinCtrlDetach c a => Sys2Proof.Machine.execTwinCtrlDetach c a s
  | .detachDrainEnd c => Sys2Proof.Machine.execDetachDrainEnd c s
  | .twinCtrlRejoin c a => Sys2Proof.Machine.execTwinCtrlRejoin c a s
  | .twinCtrlSwitch c a mask => Sys2Proof.Machine.execTwinCtrlSwitch c a mask s
  | .confirm c a mask => Sys2Proof.Machine.execConfirm c a mask s
  | .relinquish c a mask => Sys2Proof.Machine.execRelinquish c a mask s
  | .coreFaultReclaim c k => Sys2Proof.Machine.execCoreFaultReclaim c k s
  | .coreUnfenceAfterTick c k => Sys2Proof.Machine.execCoreUnfenceAfterTick c k s
  | .partitionRecovery c p => Sys2Proof.Machine.execPartitionRecovery c p s
  | .unitInternalUncorr c kind n => Sys2Proof.Machine.execUnitInternalUncorr c kind n s
  | .unitReinstall c kind n => Sys2Proof.Machine.execUnitReinstall c kind n s
  | .reclaimSetAgent c a agent => Sys2Proof.Machine.execReclaimSetAgent c a agent s
  | .reclaimFence c a agent => Sys2Proof.Machine.execReclaimFence c a agent s
  | .reclaim c a agent => Sys2Proof.Machine.execReclaim c a agent s
  | .reclaimUnfence c a agent => Sys2Proof.Machine.execReclaimUnfence c a agent s
  | .stewardWdgExpiry c => Sys2Proof.Machine.execStewardWdgExpiry c s
  | .stwKick c a => Sys2Proof.Machine.execStwKick c a s
  | .wdgKick c a v => Sys2Proof.Machine.execWdgKick c a v s
  | .wdgPeriodWrite c a v => Sys2Proof.Machine.execWdgPeriodWrite c a v s
  | .chipWdgStage1 c => Sys2Proof.Machine.execChipWdgStage1 c s
  | .chipWdgStage2 c => Sys2Proof.Machine.execChipWdgStage2 c s
  | .clockMonitorTrip c cause hz => Sys2Proof.Machine.execClockMonitorTrip c cause hz s
  | .stwDbgHalt c a => Sys2Proof.Machine.execStwDbgHalt c a s
  | .stwDbgResume c a => Sys2Proof.Machine.execStwDbgResume c a s
  | .hbmStackFail c stack => Sys2Proof.Machine.execHbmStackFail c stack s
  | .internalUncorr c what => Sys2Proof.Machine.execInternalUncorr c what s
  | .vlogClear c a => Sys2Proof.Machine.execVlogClear c a s
  | .coreFaultClear c a k => Sys2Proof.Machine.execCoreFaultClear c a k s
  | .lerFlushAge c => Sys2Proof.Machine.execLerFlushAge c s
  | .lerFrameWriteDone c => Sys2Proof.Machine.execLerFrameWriteDone c s
  | .lerCtrlFlush c a => Sys2Proof.Machine.execLerCtrlFlush c a s
  | .lerCtrlRelease c a => Sys2Proof.Machine.execLerCtrlRelease c a s
  | .fatalAck c => Sys2Proof.Machine.execFatalAck c s
  | .eventForward c => Sys2Proof.Machine.execEventForward c s
  | .stewardHeartbeatTick c => Sys2Proof.Machine.execStewardHeartbeatTick c s
  | .slotStart c p => Sys2Proof.Machine.execSlotStart c p s
  | .slotEnd c p => Sys2Proof.Machine.execSlotEnd c p s
  | .bgStep c => Sys2Proof.Machine.execBgStep c s
  | .dramPatrolLine c errs => Sys2Proof.Machine.execDramPatrolLine c errs s
  | .sramScrubStep c kind n line errs => Sys2Proof.Machine.execSramScrubStep c kind n line errs s
  | .thermalSample c die stack power energy => Sys2Proof.Machine.execThermalSample c die stack power energy s
  | .droopCalibration c d => Sys2Proof.Machine.execDroopCalibration c d s
  | .serdesAdaptation c n low => Sys2Proof.Machine.execSerdesAdaptation c n low s
  | .hbmCalibration c stack => Sys2Proof.Machine.execHbmCalibration c stack s
  | .lerPatrol c slot bad => Sys2Proof.Machine.execLerPatrol c slot bad s
  | .cmdTail c fn p v => Sys2Proof.Machine.execCmdTail c fn p v s
  | .cplHead c fn p v => Sys2Proof.Machine.execCplHead c fn p v s
  | .evtHead c fn p v => Sys2Proof.Machine.execEvtHead c fn p v s
  | .tlmHead c fn p v => Sys2Proof.Machine.execTlmHead c fn p v s
  | .cmdFetch c p code data => Sys2Proof.Machine.execCmdFetch c p code data s
  | .msixDeferred c fn vec => Sys2Proof.Machine.execMsixDeferred c fn vec s
  | .getInfo c => Sys2Proof.Machine.execGetInfo c s
  | .mbLerRead c => Sys2Proof.Machine.execMbLerRead c s
  | .mbLerRelease c => Sys2Proof.Machine.execMbLerRelease c s
  | .setHostCap c => Sys2Proof.Machine.execSetHostCap c s
  | .mbGetTrayCap c => Sys2Proof.Machine.execMbGetTrayCap c s
  | .reqDormant c => Sys2Proof.Machine.execReqDormant c s
  | .tmcRspWrite c j v => Sys2Proof.Machine.execTmcRspWrite c j v s
  | .tmcReqTimeout c => Sys2Proof.Machine.execTmcReqTimeout c s
  | .hostLinkReset c kind => Sys2Proof.Machine.execHostLinkReset c kind s
  | .flr c fn => Sys2Proof.Machine.execFlr c fn s
  | .bar4Access c fn off len write data => Sys2Proof.Machine.execBar4Access c fn off len write data s
  | .hostRefusedAccess c fn bar off len write v => Sys2Proof.Machine.execHostRefusedAccess c fn bar off len write v s
  | .hostMemCompletion c id code data => Sys2Proof.Machine.execHostMemCompletion c id code data s
  | .chipResetPerform c => Sys2Proof.Machine.execChipResetPerform c s
  | .bootResetDone c => Sys2Proof.Machine.execBootResetDone c s
  | .fwReadDone c => Sys2Proof.Machine.execFwReadDone c s
  | .bootRelease c v => Sys2Proof.Machine.execBootRelease c v s
  | .releaseTimeout c => Sys2Proof.Machine.execReleaseTimeout c s
  | .hbmTrainDone c failed => Sys2Proof.Machine.execHbmTrainDone c failed s
  | .selfTestDone c failed => Sys2Proof.Machine.execSelfTestDone c failed s
  | .lerScan c => Sys2Proof.Machine.execLerScan c s
  | .bootPlateLoad c => Sys2Proof.Machine.execBootPlateLoad c s
  | .pcieLinkUp c => Sys2Proof.Machine.execPcieLinkUp c s
  | .dbgHalt c a k => Sys2Proof.Machine.execDbgHalt c a k s
  | .dbgResume c a k => Sys2Proof.Machine.execDbgResume c a k s
  | .dbgStep c a k => Sys2Proof.Machine.execDbgStep c a k s
  | .dbgHaltPart c a k => Sys2Proof.Machine.execDbgHaltPart c a k s
  | .dbgResumePart c a k => Sys2Proof.Machine.execDbgResumePart c a k s
  | .dbgRegdataAccess c a k write v => Sys2Proof.Machine.execDbgRegdataAccess c a k write v s
  | .dbgMdataAccess c a k write v => Sys2Proof.Machine.execDbgMdataAccess c a k write v s
  | .breakpointHit c k => Sys2Proof.Machine.execBreakpointHit c k s
  | .tapDbgDataUpdate irs drs pins => Sys2Proof.Machine.execTapDbgDataUpdate irs drs pins s
  | .tapReset => Sys2Proof.Machine.execTapReset s
  | .fetchFault c k => Sys2Proof.Machine.execFetchFault c k s
  | .illegalInstrWord c k w => Sys2Proof.Machine.execIllegalInstrWord c k w s
  | .postedStoreError c id => Sys2Proof.Machine.execPostedStoreError c id s
  | .coreWatchdogExpiry c k => Sys2Proof.Machine.execCoreWatchdogExpiry c k s
  | .cwaitTimeout c k => Sys2Proof.Machine.execCwaitTimeout c k s
  | .messageArrival c id errs => Sys2Proof.Machine.execMessageArrival c id errs s
  | .creditReturn c id => Sys2Proof.Machine.execCreditReturn c id s
  | .sendTimeout c k => Sys2Proof.Machine.execSendTimeout c k s
  | .recvTimeout c k => Sys2Proof.Machine.execRecvTimeout c k s
  | .syncWaitTimeout c k => Sys2Proof.Machine.execSyncWaitTimeout c k s
  | .add c k w => Sys2Proof.Machine.execAdd c k w s
  | .sub c k w => Sys2Proof.Machine.execSub c k w s
  | .mul c k w => Sys2Proof.Machine.execMul c k w s
  | .mulh c k w => Sys2Proof.Machine.execMulh c k w s
  | .mulhu c k w => Sys2Proof.Machine.execMulhu c k w s
  | .div c k w => Sys2Proof.Machine.execDiv c k w s
  | .divu c k w => Sys2Proof.Machine.execDivu c k w s
  | .rem c k w => Sys2Proof.Machine.execRem c k w s
  | .remu c k w => Sys2Proof.Machine.execRemu c k w s
  | .and c k w => Sys2Proof.Machine.execAnd c k w s
  | .or c k w => Sys2Proof.Machine.execOr c k w s
  | .xor c k w => Sys2Proof.Machine.execXor c k w s
  | .andn c k w => Sys2Proof.Machine.execAndn c k w s
  | .shl c k w => Sys2Proof.Machine.execShl c k w s
  | .shr c k w => Sys2Proof.Machine.execShr c k w s
  | .sar c k w => Sys2Proof.Machine.execSar c k w s
  | .rol c k w => Sys2Proof.Machine.execRol c k w s
  | .min c k w => Sys2Proof.Machine.execMin c k w s
  | .max c k w => Sys2Proof.Machine.execMax c k w s
  | .minu c k w => Sys2Proof.Machine.execMinu c k w s
  | .maxu c k w => Sys2Proof.Machine.execMaxu c k w s
  | .slt c k w => Sys2Proof.Machine.execSlt c k w s
  | .sltu c k w => Sys2Proof.Machine.execSltu c k w s
  | .seq c k w => Sys2Proof.Machine.execSeq c k w s
  | .sel c k w => Sys2Proof.Machine.execSel c k w s
  | .clz c k w => Sys2Proof.Machine.execClz c k w s
  | .ctz c k w => Sys2Proof.Machine.execCtz c k w s
  | .popc c k w => Sys2Proof.Machine.execPopc c k w s
  | .addi c k w => Sys2Proof.Machine.execAddi c k w s
  | .andi c k w => Sys2Proof.Machine.execAndi c k w s
  | .ori c k w => Sys2Proof.Machine.execOri c k w s
  | .xori c k w => Sys2Proof.Machine.execXori c k w s
  | .shli c k w => Sys2Proof.Machine.execShli c k w s
  | .shri c k w => Sys2Proof.Machine.execShri c k w s
  | .sari c k w => Sys2Proof.Machine.execSari c k w s
  | .slti c k w => Sys2Proof.Machine.execSlti c k w s
  | .sltui c k w => Sys2Proof.Machine.execSltui c k w s
  | .muli c k w => Sys2Proof.Machine.execMuli c k w s
  | .li c k w => Sys2Proof.Machine.execLi c k w s
  | .lih c k w => Sys2Proof.Machine.execLih c k w s
  | .beq c k w => Sys2Proof.Machine.execBeq c k w s
  | .bne c k w => Sys2Proof.Machine.execBne c k w s
  | .blt c k w => Sys2Proof.Machine.execBlt c k w s
  | .bge c k w => Sys2Proof.Machine.execBge c k w s
  | .bltu c k w => Sys2Proof.Machine.execBltu c k w s
  | .bgeu c k w => Sys2Proof.Machine.execBgeu c k w s
  | .jal c k w => Sys2Proof.Machine.execJal c k w s
  | .jalr c k w => Sys2Proof.Machine.execJalr c k w s
  | .bpany c k w => Sys2Proof.Machine.execBpany c k w s
  | .bpnone c k w => Sys2Proof.Machine.execBpnone c k w s
  | .ld8 c k w => Sys2Proof.Machine.execLd8 c k w s
  | .ld8u c k w => Sys2Proof.Machine.execLd8u c k w s
  | .ld16 c k w => Sys2Proof.Machine.execLd16 c k w s
  | .ld16u c k w => Sys2Proof.Machine.execLd16u c k w s
  | .ld32 c k w => Sys2Proof.Machine.execLd32 c k w s
  | .ld32u c k w => Sys2Proof.Machine.execLd32u c k w s
  | .ld64 c k w => Sys2Proof.Machine.execLd64 c k w s
  | .st8 c k w => Sys2Proof.Machine.execSt8 c k w s
  | .st16 c k w => Sys2Proof.Machine.execSt16 c k w s
  | .st32 c k w => Sys2Proof.Machine.execSt32 c k w s
  | .st64 c k w => Sys2Proof.Machine.execSt64 c k w s
  | .amoadd c k w => Sys2Proof.Machine.execAmoadd c k w s
  | .amoswap c k w => Sys2Proof.Machine.execAmoswap c k w s
  | .amocas c k w => Sys2Proof.Machine.execAmocas c k w s
  | .amomax c k w => Sys2Proof.Machine.execAmomax c k w s
  | .vldb c k w => Sys2Proof.Machine.execVldb c k w s
  | .vldh c k w => Sys2Proof.Machine.execVldh c k w s
  | .vldw c k w => Sys2Proof.Machine.execVldw c k w s
  | .vldd c k w => Sys2Proof.Machine.execVldd c k w s
  | .vstb c k w => Sys2Proof.Machine.execVstb c k w s
  | .vsth c k w => Sys2Proof.Machine.execVsth c k w s
  | .vstw c k w => Sys2Proof.Machine.execVstw c k w s
  | .vstd c k w => Sys2Proof.Machine.execVstd c k w s
  | .vgthw c k w => Sys2Proof.Machine.execVgthw c k w s
  | .vsctw c k w => Sys2Proof.Machine.execVsctw c k w s
  | .vadd c k w => Sys2Proof.Machine.execVadd c k w s
  | .vsub c k w => Sys2Proof.Machine.execVsub c k w s
  | .vmul c k w => Sys2Proof.Machine.execVmul c k w s
  | .vmulh c k w => Sys2Proof.Machine.execVmulh c k w s
  | .vmulhu c k w => Sys2Proof.Machine.execVmulhu c k w s
  | .vand c k w => Sys2Proof.Machine.execVand c k w s
  | .vor c k w => Sys2Proof.Machine.execVor c k w s
  | .vxor c k w => Sys2Proof.Machine.execVxor c k w s
  | .vshl c k w => Sys2Proof.Machine.execVshl c k w s
  | .vshr c k w => Sys2Proof.Machine.execVshr c k w s
  | .vsar c k w => Sys2Proof.Machine.execVsar c k w s
  | .vmin c k w => Sys2Proof.Machine.execVmin c k w s
  | .vmax c k w => Sys2Proof.Machine.execVmax c k w s
  | .vminu c k w => Sys2Proof.Machine.execVminu c k w s
  | .vmaxu c k w => Sys2Proof.Machine.execVmaxu c k w s
  | .vicmp c k w => Sys2Proof.Machine.execVicmp c k w s
  | .vsel c k w => Sys2Proof.Machine.execVsel c k w s
  | .vsum c k w => Sys2Proof.Machine.execVsum c k w s
  | .vdot4 c k w => Sys2Proof.Machine.execVdot4 c k w s
  | .vnarrow c k w => Sys2Proof.Machine.execVnarrow c k w s
  | .vwiden c k w => Sys2Proof.Machine.execVwiden c k w s
  | .vfadd c k w => Sys2Proof.Machine.execVfadd c k w s
  | .vfsub c k w => Sys2Proof.Machine.execVfsub c k w s
  | .vfmul c k w => Sys2Proof.Machine.execVfmul c k w s
  | .vfdiv c k w => Sys2Proof.Machine.execVfdiv c k w s
  | .vfsqrt c k w => Sys2Proof.Machine.execVfsqrt c k w s
  | .vfma c k w => Sys2Proof.Machine.execVfma c k w s
  | .vfms c k w => Sys2Proof.Machine.execVfms c k w s
  | .vfnma c k w => Sys2Proof.Machine.execVfnma c k w s
  | .vfmin c k w => Sys2Proof.Machine.execVfmin c k w s
  | .vfmax c k w => Sys2Proof.Machine.execVfmax c k w s
  | .vfminn c k w => Sys2Proof.Machine.execVfminn c k w s
  | .vfmaxn c k w => Sys2Proof.Machine.execVfmaxn c k w s
  | .vfcmp c k w => Sys2Proof.Machine.execVfcmp c k w s
  | .vfclass c k w => Sys2Proof.Machine.execVfclass c k w s
  | .vfsum c k w => Sys2Proof.Machine.execVfsum c k w s
  | .vfrnd c k w => Sys2Proof.Machine.execVfrnd c k w s
  | .vfscb c k w => Sys2Proof.Machine.execVfscb c k w s
  | .vflgb c k w => Sys2Proof.Machine.execVflgb c k w s
  | .vfsgn c k w => Sys2Proof.Machine.execVfsgn c k w s
  | .vftot c k w => Sys2Proof.Machine.execVftot c k w s
  | .vfcvt c k w => Sys2Proof.Machine.execVfcvt c k w s
  | .vfcvti c k w => Sys2Proof.Machine.execVfcvti c k w s
  | .vicvtf c k w => Sys2Proof.Machine.execVicvtf c k w s
  | .pand c k w => Sys2Proof.Machine.execPand c k w s
  | .por c k w => Sys2Proof.Machine.execPor c k w s
  | .pxor c k w => Sys2Proof.Machine.execPxor c k w s
  | .pandn c k w => Sys2Proof.Machine.execPandn c k w s
  | .pnot c k w => Sys2Proof.Machine.execPnot c k w s
  | .pset c k w => Sys2Proof.Machine.execPset c k w s
  | .pcnt c k w => Sys2Proof.Machine.execPcnt c k w s
  | .pfrom c k w => Sys2Proof.Machine.execPfrom c k w s
  | .pto c k w => Sys2Proof.Machine.execPto c k w s
  | .vmov c k w => Sys2Proof.Machine.execVmov c k w s
  | .vbcast c k w => Sys2Proof.Machine.execVbcast c k w s
  | .vext c k w => Sys2Proof.Machine.execVext c k w s
  | .vins c k w => Sys2Proof.Machine.execVins c k w s
  | .vperm c k w => Sys2Proof.Machine.execVperm c k w s
  | .vslide c k w => Sys2Proof.Machine.execVslide c k w s
  | .sfu c k w => Sys2Proof.Machine.execSfu c k w s
  | .sfuba c k w => Sys2Proof.Machine.execSfuba c k w s
  | .sfug c k w => Sys2Proof.Machine.execSfug c k w s
  | .cmd c k w => Sys2Proof.Machine.execCmd c k w s
  | .cwait c k w => Sys2Proof.Machine.execCwait c k w s
  | .cwtag c k w => Sys2Proof.Machine.execCwtag c k w s
  | .cpoll c k w => Sys2Proof.Machine.execCpoll c k w s
  | .send c k w => Sys2Proof.Machine.execSend c k w s
  | .recv c k w => Sys2Proof.Machine.execRecv c k w s
  | .tsend c k w => Sys2Proof.Machine.execTsend c k w s
  | .trecv c k w => Sys2Proof.Machine.execTrecv c k w s
  | .sopRead c k w => Sys2Proof.Machine.execSopRead c k w s
  | .sopPost c k w => Sys2Proof.Machine.execSopPost c k w s
  | .sopWait c k w => Sys2Proof.Machine.execSopWait c k w s
  | .sopTry c k w => Sys2Proof.Machine.execSopTry c k w s
  | .sopClear c k w => Sys2Proof.Machine.execSopClear c k w s
  | .sopSet c k w => Sys2Proof.Machine.execSopSet c k w s
  | .abind c k w => Sys2Proof.Machine.execAbind c k w s
  | .atail c k w => Sys2Proof.Machine.execAtail c k w s
  | .aadv c k w => Sys2Proof.Machine.execAadv c k w s
  | .atrunc c k w => Sys2Proof.Machine.execAtrunc c k w s
  | .aunbind c k w => Sys2Proof.Machine.execAunbind c k w s
  | .eopen c k w => Sys2Proof.Machine.execEopen c k w s
  | .ecommit c k w => Sys2Proof.Machine.execEcommit c k w s
  | .eabort c k w => Sys2Proof.Machine.execEabort c k w s
  | .tend c k w => Sys2Proof.Machine.execTend c k w s
  | .fence c k w => Sys2Proof.Machine.execFence c k w s
  | .crd c k w => Sys2Proof.Machine.execCrd c k w s
  | .cwr c k w => Sys2Proof.Machine.execCwr c k w s
  | .wdk c k w => Sys2Proof.Machine.execWdk c k w s
  | .trap c k w => Sys2Proof.Machine.execTrap c k w s
  | .bkpt c k w => Sys2Proof.Machine.execBkpt c k w s
  | .nop c k w => Sys2Proof.Machine.execNop c k w s
  | .stewardResume c => Sys2Proof.Machine.execStewardResume c s
  | .standbyExitDone c => Sys2Proof.Machine.execStandbyExitDone c s
  | .mbUnknownService c => Sys2Proof.Machine.execMbUnknownService c s
  | .smbAlertN c => Sys2Proof.Machine.execSmbAlertN c s
  | .pcieConfigWrite c fn field v => Sys2Proof.Machine.execPcieConfigWrite c fn field v s
  | .linkOutModuleInsert k present passive mw => Sys2Proof.Machine.execLinkOutModuleInsert k present passive mw s

end Sys2Proof.Machine
end

