-- ==== Sys2Proof/Machine/Step.lean ====
section
/-! DEFINITION. One step of the tray: the command at the front of the queue, or a nanosecond where none waits. -/
namespace Sys2Proof.Machine

/-- The command at the front of the queue acts on the tray with the rest of the queue; on an empty queue one nanosecond passes (log
entry 5). -/
def step (s : State) : Host.Outcome State Fault Refusal :=
  match s.pending with
  | [] => .next s.nano
  | c :: rest => exec c { s with pending := rest }

/-- The tray with the command that a table word spells at the front of its queue; unchanged where the word spells none. -/
def State.withFetchWord (s : State) (nbits w : Nat) : State :=
  match decodeTableWord nbits w with
  | some c => { s with pending := c :: s.pending }
  | none => s

end Sys2Proof.Machine
end

