-- ==== Sys2Proof/Safety.lean ====
section
/-! DEFINITION. What claims are stated with: the invariant of the tray, and what counts as a safe state of a chip. -/
namespace Sys2Proof.Machine

/-- Chips of a tray (R1). -/
def TrayType.chips : TrayType → Nat
  | .st4 => 4 | .st2 => 2

/-- A session with a role is open, and the write lease is held by an open session whose role is OPERATOR (R64, R66). -/
def Tmc.sessionsOk (t : Tmc) : Bool :=
  t.sessions.length == 4 && t.sessions.all (fun e => e.role == 0 || e.isOpen) &&
  t.lease.all fun n => (t.sessions.getD n {}).isOpen && (t.sessions.getD n {}).role == 2

/-- The flash switch is held, and waited for, by chips of the tray only, and none of them waits twice or waits while it holds (R35). -/
def State.switchOk (s : State) : Bool :=
  s.tmc.holder.all (fun c => decide (c < s.chips.length) && !s.tmc.asking.contains c) &&
  s.tmc.asking.all (fun c => decide (c < s.chips.length)) && decide s.tmc.asking.Nodup

/-- The invariant of the tray: its chips are those of its type, its sessions and its lease are in order, the flash switch belongs to a
chip that is there, and the tray flash is in its canonical form. -/
def State.inv (s : State) : Bool :=
  s.chips.length == s.trayType.chips && s.tmc.sessionsOk && s.switchOk && Memory.wf s.tmc.flash

/-- No core has faulted, the chip has not halted on FATAL, and no access has been refused. -/
def Chip.safe (ch : Chip) : Bool :=
  !ch.wdg.fatalHalt && ch.rcv.violTotal == 0 && ch.cores.all fun x => x.state != .faulted

/-! ## The terms that statements about commands use -/

/-- The tray with its chip `c` replaced. -/
def State.withChip (s : State) (c : Nat) (ch : Chip) : State := { s with chips := s.chips.set c ch }

/-- Core `k` executes the word `w`, an instruction of opcode `op` that uses the fields `used`: the core may issue, no halt request,
breakpoint or SEQ store holds it, its PC is good, the word stands there, and every unused field is 0 (R308 to R310, R358, R383, R387). -/
def Chip.ready (ch : Chip) (k : Nat) (w : W64) (op used : Nat) : Bool :=
  ch.canIssue k && !(ch.core k).dbg.request && (ch.core k).breakAt.isNone && (ch.core k).pc % 8 == 0 &&
  (ch.core k).pc < 8 * (ch.core k).image.length && !(ch.core k).badCode.contains (lineOf (ch.core k).pc) &&
  (ch.core k).image.getD ((ch.core k).pc / 8) 0 == w && bitsOf w.toNat 56 8 == op && fieldsOk used w &&
  !(ch.core k).posted.any Posted.seq

/-- The chip once core `k` has fetched: a corrected error of the word is counted, once (R308). -/
def Chip.fetched (ch : Chip) (k : Nat) : Chip := if (ch.core k).state == .running then ch.countFetch k else ch

/-- The chip on which core `k` acts and the core itself, when the core executes `w` (see `Chip.ready`): the instruction's answer is the
tray with that chip changed by `f`. -/
def Executes (i : Nat → Nat → W64 → Instr) (op used : Nat) (f : Nat → W64 → Chip → Core → Chip) : Prop :=
  ∀ (s : State) (c k : Nat) (w : W64) (ch : Chip), s.chips[c]? = some ch → ch.ready k w op used = true →
    exec (i c k w) s = .next (s.withChip c (f k w (ch.fetched k) (ch.core k)))

/-- The instruction replaces its core's registers by `f` of them and retires: the PC moves on by 8 and nothing else changes. -/
def Computes (i : Nat → Nat → W64 → Instr) (op used : Nat) (f : W64 → Core → Core) : Prop :=
  Executes i op used fun k w ch _ => (ch.modCore k (f w)).retire k

/-- The instruction writes vD and retires: lane `j` of vD, of the width given, is `f` modulo 2 to the width where `active` says so and
keeps its content elsewhere; a reserved value in a field (`ok` false) raises ILLEGAL_INSTR with code BOUNDS (R310, R312). -/
def ComputesLanes (i : Nat → Nat → W64 → Instr) (op used : Nat) (ok : W64 → Bool) (width : W64 → Nat)
    (active : W64 → Core → Nat → Bool) (f : W64 → Core → Nat → Nat) : Prop :=
  ∀ (s : State) (c k : Nat) (w : W64) (ch : Chip), s.chips[c]? = some ch → ch.ready k w op used = true →
    if ok w then
      ∃ v : V512, exec (i c k w) s = .next (s.withChip c (((ch.fetched k).modCore k fun x => x.setV (fD w) v).retire k)) ∧
        ∀ j, j < 512 / width w → lane v (width w) j =
          if active w (ch.core k) j then f w (ch.core k) j % 2 ^ width w else lane ((ch.core k).getV (fD w)) (width w) j
    else exec (i c k w) s = .next (s.withChip c ((ch.fetched k).fault k fcILLEGAL cBOUNDS 0))

/-- The instruction writes pD and retires: bit `j` of what it writes is `f`; a reserved value raises ILLEGAL_INSTR with code BOUNDS
(R303, R310). -/
def ComputesPred (i : Nat → Nat → W64 → Instr) (op used : Nat) (ok : W64 → Bool) (f : W64 → Core → Nat → Bool) : Prop :=
  ∀ (s : State) (c k : Nat) (w : W64) (ch : Chip), s.chips[c]? = some ch → ch.ready k w op used = true →
    if ok w then
      ∃ p : W64, exec (i c k w) s = .next (s.withChip c (((ch.fetched k).modCore k fun x => x.setP (fD w) p).retire k)) ∧
        ∀ j, j < 64 → p.getLsbD j = f w (ch.core k) j
    else exec (i c k w) s = .next (s.withChip c ((ch.fetched k).fault k fcILLEGAL cBOUNDS 0))

/-- `v` holds `f` modulo 2 to the width in the active lanes of vD, and what vD held in the others (R312). -/
def LanesAre (width : Nat) (active : Nat → Bool) (f : Nat → Nat) (old v : V512) : Prop :=
  ∀ j, j < 512 / width → lane v width j = if active j then f j % 2 ^ width else lane old width j

/-- `fl` collects the IEEE flags (NV, DZ, OF, UF, NX from bit 0) of the active ones of `n` lanes (R331). -/
def FlagsAre (n : Nat) (active : Nat → Bool) (f : Nat → Nat) (fl : Nat) : Prop :=
  ∀ b, b < 5 → (fl.testBit b = true ↔ ∃ j, j < n ∧ active j = true ∧ (f j).testBit b = true)

/-- `v` holds in position `dst j` of `wd` bits, for each active `j` below `n`, `f j` modulo 2 to the width, and everywhere else what vD
held (R312, R333). -/
def PackedAre (wd n : Nat) (dst : Nat → Nat) (active : Nat → Bool) (f : Nat → Nat) (old v : V512) : Prop :=
  (∀ j, j < n → active j = true → bitsOf v.toNat (dst j) wd = f j % 2 ^ wd) ∧
  ∀ b, b < 512 → (∀ j, j < n → active j = true → ¬ (dst j ≤ b ∧ b < dst j + wd)) → v.getLsbD b = old.getLsbD b

/-- A vector floating-point instruction: a reserved format, mode or field is ILLEGAL_INSTR, a format other than FP32 and FP64 is
ILLEGAL_OPERAND, FP64 on a chip without it is UNIT_ABSENT; otherwise its core becomes one that `result` allows, and it retires (R310,
R329, R330). -/
def Floats (i : Nat → Nat → W64 → Instr) (op used : Nat) (ok : W64 → Bool) (result : W64 → Core → Core → Prop) : Prop :=
  ∀ (s : State) (c k : Nat) (w : W64) (ch : Chip), s.chips[c]? = some ch → ch.ready k w op (used ||| mFMT) = true →
    if 13 ≤ fFMT w ∨ fRM w = 7 ∨ ok w = false then exec (i c k w) s = .next (s.withChip c ((ch.fetched k).fault k fcILLEGAL cBOUNDS 0))
    else if fFMT w ≠ fFP32 ∧ fFMT w ≠ fFP64 then exec (i c k w) s = .next (s.withChip c ((ch.fetched k).fault k fcOPERAND cBOUNDS 0))
    else if fFMT w = fFP64 ∧ ch.variant.fp64 = false then exec (i c k w) s = .next (s.withChip c ((ch.fetched k).fault k fcABSENT cABSENT 0))
    else ∃ y, result w (ch.core k) y ∧ exec (i c k w) s = .next (s.withChip c (((ch.fetched k).modCore k fun _ => y).retire k))

/-- The result of a floating-point instruction in the lanes of FMT: `g` in each active lane, and their flags in ACW bits 12:8, where they
stay in flight until the core next reads or writes ACW (R331, R404). -/
def LaneResult (g : W64 → Core → Nat → Nat × Nat) (w : W64) (x y : Core) : Prop :=
  let act := fun j => (x.getP (fP w)).getLsbD j
  ∃ v fl, LanesAre (wFMT w) act (fun j => (g w x j).1) (x.getV (fD w)) v ∧
    FlagsAre (512 / wFMT w) act (fun j => (g w x j).2) fl ∧ y = (x.setV (fD w) v).raiseFlags fl

/-- The same where the result is a predicate bit per active lane; the other bits of pD stay (R312). -/
def PredResult (g : W64 → Core → Nat → Bool × Nat) (w : W64) (x y : Core) : Prop :=
  let act := fun j => (x.getP (fP w)).getLsbD j
  ∃ (p : W64) (fl : Nat), (∀ j, j < 64 → p.getLsbD j = if j < 512 / wFMT w && act j then (g w x j).1 else (x.getP (fD w)).getLsbD j) ∧
    FlagsAre (512 / wFMT w) act (fun j => (g w x j).2) fl ∧ y = (x.setP (fD w) p).raiseFlags fl

/-- The same where elements of `ws` bits of A become elements of `wd` bits of D, packed in the half that FN bit 4 names (R333). -/
def PackedResult (ws wd : Nat) (g : Nat → Nat × Nat) (w : W64) (x y : Core) : Prop :=
  let n := 512 / max ws wd
  let half := if bitOf (fFN w) 4 then 256 else 0
  let act := fun j => (x.getP (fP w)).getLsbD j
  let src := fun j => bitsOf (x.getV (fA w)).toNat ((if ws < wd then half else 0) + j * ws) ws
  ∃ v fl, PackedAre wd n (fun j => (if wd < ws then half else 0) + j * wd) act (fun j => (g (src j)).1) (x.getV (fD w)) v ∧
    FlagsAre n act (fun j => (g (src j)).2) fl ∧ y = (x.setV (fD w) v).raiseFlags fl

/-- Core `k` has retired an instruction: its registers are those of `y`, its PC is `pc` modulo 2^18, one more instruction is retired, and
its ACW is kept (R302, R353). -/
def Retired (ch ch' : Chip) (k : Nat) (y : Core) (pc : Nat) : Prop :=
  (ch'.core k).s = y.s ∧ (ch'.core k).v = y.v ∧ (ch'.core k).p = y.p ∧ (ch'.core k).acw = (ch.core k).acw ∧
  (ch'.core k).pc = pc % 2 ^ 18 ∧ (ch'.core k).retired = ((ch.core k).retired + 1) % 2 ^ 64

/-- Core `k` may read `n` bytes at `a` in a memory of the chip: the map and the permissions allow it, the bandwidth tokens of its
partition can come, and no line of it is uncorrectable (R81, R84 to R89, R565). -/
def Chip.canRead (ch : Chip) (k a n : Nat) : Prop :=
  ∃ pl, ch.reach (ch.partNo k) a n = .ok pl ∧ pl.isLocal = true ∧ ch.starved (ch.partNo k) pl false a n = false ∧ ch.bad a n = false

/-- Core `k` may write `n` bytes at `a` in a memory of the chip: in its own store, or elsewhere by a posted store with a place for it;
no committed append byte, no uncorrectable line written in part, and no open epoch has written one of the lines (R81, R84 to R89, R370,
R372, R438, R444). -/
def Chip.canWrite (ch : Chip) (k a n : Nat) : Prop :=
  (inOwn k a n = true ∨ ((ch.core k).posted.length < 16 ∧ ∃ pl, ch.reach (ch.partNo k) a n = .ok pl ∧ pl.isLocal = true ∧
    ch.starved (ch.partNo k) pl true a n = false)) ∧ ch.writeCode a n = cOK ∧ ch.clash a n = none

/-- Memory `m'` is in its canonical form, holds `bytes` from `a` up, and is as `m` was everywhere else. -/
def Stored (m m' : List Host.Cell) (a : Nat) (bytes : List Nat) : Prop :=
  Memory.wf m' = true ∧
  (∀ i, i < bytes.length → (Memory.get m' (a + i)).toNat = bytes.getD i 0 % 256) ∧
  ∀ b, b < a ∨ a + bytes.length ≤ b → Memory.get m' b = Memory.get m b

/-- Every byte of memory is as it was. -/
def Unstored (m m' : List Host.Cell) : Prop := ∀ b, Memory.get m' b = Memory.get m b

/-- A sparse list is in its canonical form: keys strictly rising, no value 0. -/
def Sparse.wf : List (Nat × Nat) → Bool
  | [] => true
  | [c] => c.2 != 0
  | c :: d :: r => c.2 != 0 && c.1 < d.1 && Sparse.wf (d :: r)

/-- A unit takes the oldest command that has arrived for it, of operation `op`: a fenced unit completes it with FENCED, a command that fails
the checks is refused with their first code, its violation naming some address, and any other has the effect `take` (R347, R760, R774). -/
def Takes (i : Instr) (c op : Nat) (sel : UnitCmd → Bool) (room : Chip → Bool) (check : Chip → UnitCmd → Nat)
    (take : Chip → UnitCmd → Chip) : Prop :=
  ∀ (s : State) (ch : Chip) (u : UnitCmd), s.chips[c]? = some ch → ch.arriving.find? sel = some u → u.op = op → ch.storesDone u = true →
    room ch = true →
    let a := { ch with arriving := ch.arriving.erase u }
    ∃ (at' : Nat) (isRead : Bool), exec i s = .next (s.withChip c (if ch.unitFenced u = true then a.complete u cFENCED 0
      else if check a u = cOK then take a u else a.refuse u (check a u) at' isRead))

/-- The chip takes a register access of agent `a` now: it answers that agent, no reset is under way for the side-band, and no write of
this cycle is one that follows it (R101, R122, R966, R971). -/
def Chip.takesFrom (ch : Chip) (a : Nat) : Bool :=
  ch.agentUp a && !(isSb a && (ch.boot.pendingReset.isSome || ch.boot.stage == .reset)) &&
  ch.regLog.all fun w => w.at' != ch.time || regRank w.agent ≤ regRank a

/-- A write of agent `a` stands in the list `w` of its cycle's writes, and the side-band has served it (R717, R971). -/
def Chip.servedBy (ch : Chip) (a : Nat) (w : List RegWrite) : Chip :=
  if a == agSB then { ch with sb := { ch.sb with served := ch.time }, regLog := w } else { ch with regLog := w }

/-- A register write by an agent that `who` admits, while the chip takes it and satisfies `cond`, changes the chip by `f`. -/
def SetsReg (i : Nat → Instr) (c : Nat) (who : Nat → Prop) (cond : Chip → Prop) (f : Chip → Chip) : Prop :=
  ∀ (a : Nat) (s : State) (ch : Chip), s.chips[c]? = some ch → who a → ch.takesFrom a = true → cond ch →
    ∃ w, exec (i a) s = .next (s.withChip c ((f ch).servedBy a w))

/-- The physical function and the side-band. -/
def pfOrSb (a : Nat) : Prop := a = agPF ∨ a = agSB

/-- The command does nothing but change chip `c` by `f`, where the chip satisfies `cond`. -/
def Acts (i : Instr) (c : Nat) (cond : Chip → Prop) (f : Chip → Chip) : Prop :=
  ∀ (s : State) (ch : Chip), s.chips[c]? = some ch → cond ch → exec i s = .next (s.withChip c (f ch))

/-- The command, where chip `c` satisfies `cond`, leaves the tray as it was but for that chip, which becomes one that `post` allows. -/
def Makes (i : Instr) (c : Nat) (cond : Chip → Prop) (post : Chip → Chip → Prop) : Prop :=
  ∀ (s : State) (ch : Chip), s.chips[c]? = some ch → cond ch → ∃ ch', exec i s = .next (s.withChip c ch') ∧ post ch ch'

/-- The steward's firmware serves: it runs, and the chip has not halted on FATAL. -/
def Chip.serves (ch : Chip) : Prop := ch.wdg.steward = .running ∧ ch.wdg.fatalHalt = false

/-- A register write by an agent that `who` admits makes of the chip one that `post` allows. -/
def SetsSome (i : Nat → Instr) (c : Nat) (who : Nat → Prop) (cond : Chip → Prop) (post : Nat → Chip → Chip → Prop) : Prop :=
  ∀ a, who a → Makes (i a) c (fun ch => ch.takesFrom a = true ∧ cond ch) (post a)

/-- Core instructions that write a scalar register, if any (R314 to R316, R311, R327, R328). -/
def writesS (i : Nat → Nat → W64 → Instr) : Prop := i ∈ (
  [.add, .sub, .mul, .mulh, .mulhu, .div, .divu, .rem, .remu, .and, .or, .xor, .andn, .shl, .shr, .sar, .rol, .min, .max, .minu, .maxu,
   .slt, .sltu, .seq, .sel, .clz, .ctz, .popc, .addi, .andi, .ori, .xori, .shli, .shri, .sari, .slti, .sltui, .muli, .li, .lih] ++
  [.beq, .bne, .blt, .bge, .bltu, .bgeu, .jal, .jalr, .bpany, .bpnone, .vsum, .vext, .pcnt, .pto] : List (Nat → Nat → W64 → Instr))

/-- Those that write a predicate register (R311, R327, R332). -/
def writesP (i : Nat → Nat → W64 → Instr) : Prop := i ∈ ( [.vicmp, .pand, .por, .pxor, .pandn, .pnot, .pset, .pfrom, .vfcmp, .vftot] : List (Nat → Nat → W64 → Instr))

/-- Those that write a vector register (R327 to R333). -/
def writesV (i : Nat → Nat → W64 → Instr) : Prop := i ∈ (
  [.vadd, .vsub, .vmul, .vmulh, .vmulhu, .vand, .vor, .vxor, .vshl, .vshr, .vsar, .vmin, .vmax, .vminu, .vmaxu, .vsel, .vdot4, .vmov,
   .vbcast, .vins, .vperm, .vslide, .vnarrow, .vwiden] ++
  [.vfadd, .vfsub, .vfmul, .vfdiv, .vfsqrt, .vfma, .vfms, .vfnma, .vfmin, .vfmax, .vfminn, .vfmaxn, .vfclass, .vfsum, .vfrnd, .vfscb,
   .vflgb, .vfsgn, .vfcvti, .vicvtf, .vfcvt] : List (Nat → Nat → W64 → Instr))

/-- The chips agree in everything but what the retirement of an instruction of core `k` touches: that core, the state and the debug record
of the cores that a STEP halts with it, counters, and the record. -/
def Chip.agreeBut (k : Nat) (ch ch' : Chip) : Prop :=
  ch'.mem = ch.mem ∧ ch'.badLines = ch.badLines ∧ ch'.softLines = ch.softLines ∧ ch'.pods = ch.pods ∧ ch'.cus = ch.cus ∧ ch'.tes = ch.tes ∧
  ch'.links = ch.links ∧ ch'.chans = ch.chans ∧ ch'.syncs = ch.syncs ∧ ch'.regions = ch.regions ∧ ch'.arriving = ch.arriving ∧
  ch'.remotes = ch.remotes ∧ ch'.loader = ch.loader ∧ ch'.wdg = ch.wdg ∧ ch'.pwr = ch.pwr ∧ ch'.boot = ch.boot ∧ ch'.host = ch.host ∧
  ch'.mbox = ch.mbox ∧ ch'.sb = ch.sb ∧ ch'.tap = ch.tap ∧ ch'.twin = ch.twin ∧ ch'.bg = ch.bg ∧ ch'.time = ch.time ∧
  (∀ p, (ch'.part p).plate = (ch.part p).plate ∧ (ch'.part p).jobs = (ch.part p).jobs) ∧
  ∀ j, j ≠ k → ∃ st d, ch'.core j = { ch.core j with state := st, dbg := d }

/-- The command of the tray changes it by `f` where it satisfies `cond`; then the TMC does what it has waiting. -/
def Does (i : Instr) (cond : State → Prop) (f : State → State) : Prop := ∀ s : State, cond s → exec i s = .next (f s).trayWork

/-- The TMC has started. -/
def State.up (s : State) : Prop := s.tmc.up = true

/-- A frame of session `n` has arrived now (R68). -/
def State.heard (s : State) (n : Nat) : State := s.modSession n fun e => { e with last := s.tmc.uptime }

/-- Session `n` is open, with a role that may ask for what needs OPERATOR or not, and no other session holds the write lease (R60, R64 to
R66). -/
def State.mayAsk (s : State) (n : Nat) (operator : Bool) : Prop :=
  s.up ∧ (s.session n).isOpen = true ∧
  if operator then (s.session n).role = 2 ∧ (s.tmc.lease = none ∨ s.tmc.lease = some n) else (s.session n).role ≠ 0

/-- The tray once session `n` has asked: the frame is noted, and a writing request takes the free lease (R66, R68). -/
def State.asked (s : State) (n : Nat) (operator : Bool) : State :=
  if operator then (s.heard n).modTmc fun t => { t with lease := some n } else s.heard n

/-- A request of the management protocol, of type `typ`: with a payload that `ok` admits it does `act`, any other payload is answered with
BOUNDS (R71); one that no frame can carry closes the session (R61). -/
def Serves (i : Nat → Nat → List Nat → Instr) (typ : Nat) (operator : Bool) (ok : State → List Nat → Prop)
    (act : Nat → Nat → List Nat → State → State) : Prop :=
  ∀ n seq p,
    (p.length ≤ maxPayload → Does (i n seq p) (fun s => s.mayAsk n operator ∧ ok s p) (fun s => act n seq p (s.asked n operator)) ∧
      Does (i n seq p) (fun s => s.mayAsk n operator ∧ ¬ ok s p) fun s => (s.asked n operator).reply n typ cBOUNDS seq []) ∧
    (maxPayload < p.length → Does (i n seq p) (fun s => s.up ∧ (s.session n).isOpen = true) fun s => s.closeSession n)

/-- The command is a transaction at the side-band address `addr`: the chip that has the address, where it satisfies `cond`, becomes one that
`post` allows, and nothing else changes (R96). -/
def AtAddress (i : Instr) (addr : Nat) (cond : Chip → Prop) (post : Chip → Chip → Prop) : Prop :=
  ∀ (s : State) (c : Nat) (ch : Chip), (s.chips.findIdx? fun x => x.sbAddress == addr) = some c → s.chips[c]? = some ch → cond ch →
    ∃ ch', exec i s = .next (s.withChip c ch') ∧ post ch ch'

/-- Nothing new waits for the next boundary of partition `p`: no overlay or fallback is pending for it, and no job is to be retired. -/
def Chip.nothingNew (ch : Chip) (p : Nat) : Prop :=
  (ch.part p).fbPending = false ∧ ch.pendingOf p = none ∧ (ch.part p).jobs.all (fun j => j.retire.isEmpty) = true

end Sys2Proof.Machine
end

