-- ==== Sys2Proof/Certificates/Slice0/Obligations.lean ====
section
/-! DEFINITION. The statements for the provers, by family of commands. -/
open Sys2Proof Sys2Proof.Machine

/-! ## The queue, reset and the invariant -/

/-- A step runs the command at the front of the queue on the state with the queue's rest. On an empty queue a nanosecond passes: TIME of every
chip that runs and the TMC's uptime advance by one (R10; that a step on an empty queue does this is the model's choice, DESIGN CHOICE, log
entry 5). -/
def Obligations.StepRunsFront : Prop :=
  (∀ (s : State) (c : Sys2Proof.Instr) (rest : List Sys2Proof.Instr), s.pending = c :: rest → step s = exec c { s with pending := rest }) ∧
  ∀ s : State, s.pending = [] → ∃ s', step s = .next s' ∧ s'.pending = [] ∧ s'.trayType = s.trayType ∧
    s'.tmc.uptime = (if s.tmc.up then s.tmc.uptime + 1 else s.tmc.uptime) ∧
    ∀ (c : Nat) (ch : Chip), s.chips[c]? = some ch → (s'.chip c).time = if ch.alive then ch.time + 1 else ch.time

/-! ## Cores: scalar arithmetic and branches -/

/-- Scalar instructions of three registers, or with an immediate, write sD and retire; arithmetic wraps modulo 2^64; IMM32 is sign-extended, a
shift count is IMM32 bits 5:0, li sign-extends IMM48, and lih replaces bits 63:48 alone (R309, R314).
Division truncates; division by zero gives a quotient of all ones and a remainder equal to sA; the signed division of -2^63 by -1
gives -2^63 and a remainder of 0 (R315).
A branch whose condition holds goes on at PC + 8 x OFF modulo 2^18, another at PC + 8; jal and jalr write PC + 8 to sD and jump to
that target or to sA + OFF modulo 2^18 (R316). -/
def Obligations.ScalarInstructionResults : Prop :=
  ((let row := fun i op (f : W64 → W64 → W64) =>
      Computes i op (mD ||| mA ||| mB) fun w x => x.setS (fD w) (f (x.getS (fA w)) (x.getS (fB w)))
    let one := fun i op (f : W64 → W64) => Computes i op (mD ||| mA) fun w x => x.setS (fD w) (f (x.getS (fA w)))
    row .add 0x01 (fun a b => BitVec.ofNat 64 (a.toNat + b.toNat)) ∧
    row .sub 0x02 (fun a b => BitVec.ofInt 64 (a.toInt - b.toInt)) ∧
    row .mul 0x03 (fun a b => BitVec.ofNat 64 (a.toNat * b.toNat)) ∧
    row .mulh 0x04 (fun a b => BitVec.ofInt 64 (a.toInt * b.toInt / 2 ^ 64)) ∧
    row .mulhu 0x05 (fun a b => BitVec.ofNat 64 (a.toNat * b.toNat / 2 ^ 64)) ∧
    row .and 0x0A (fun a b => a &&& b) ∧
    row .or 0x0B (fun a b => a ||| b) ∧
    row .xor 0x0C (fun a b => a ^^^ b) ∧
    row .andn 0x0D (fun a b => a &&& ~~~b) ∧
    row .shl 0x0E (fun a b => BitVec.ofNat 64 (a.toNat * 2 ^ (b.toNat % 64))) ∧
    row .shr 0x0F (fun a b => BitVec.ofNat 64 (a.toNat / 2 ^ (b.toNat % 64))) ∧
    row .sar 0x10 (fun a b => BitVec.ofInt 64 (a.toInt / 2 ^ (b.toNat % 64))) ∧
    row .rol 0x11 (fun a b => a <<< (b.toNat % 64) ||| a >>> (64 - b.toNat % 64)) ∧
    row .min 0x12 (fun a b => if a.toInt ≤ b.toInt then a else b) ∧
    row .max 0x13 (fun a b => if a.toInt ≤ b.toInt then b else a) ∧
    row .minu 0x14 (fun a b => if a.toNat ≤ b.toNat then a else b) ∧
    row .maxu 0x15 (fun a b => if a.toNat ≤ b.toNat then b else a) ∧
    row .slt 0x16 (fun a b => if a.toInt < b.toInt then 1 else 0) ∧
    row .sltu 0x17 (fun a b => if a.toNat < b.toNat then 1 else 0) ∧
    row .seq 0x18 (fun a b => if a = b then 1 else 0) ∧
    Computes .sel 0x19 (mD ||| mA ||| mB ||| mC)
      (fun w x => x.setS (fD w) (if x.getS (fC w) ≠ 0 then x.getS (fA w) else x.getS (fB w))) ∧
    one .clz 0x1A (fun a => BitVec.ofNat 64 (if a = 0 then 64 else 63 - Nat.log2 a.toNat)) ∧
    one .ctz 0x1B (fun a => BitVec.ofNat 64 (((List.range 64).find? fun i => a.getLsbD i).getD 64)) ∧
    one .popc 0x1C (fun a => BitVec.ofNat 64 ((List.range 64).filter fun i => a.getLsbD i).length)) ∧
   (let row := fun i op (f : W64 → W64 → W64) =>
      Computes i op (mD ||| mA ||| mIMM) fun w x => x.setS (fD w) (f (x.getS (fA w)) (BitVec.ofInt 64 (sgn 32 w.toNat)))
    let shift := fun i op (f : W64 → Nat → W64) =>
      Computes i op (mD ||| mA ||| 0x3F) fun w x => x.setS (fD w) (f (x.getS (fA w)) (w.toNat % 64))
    row .addi 0x20 (fun a b => a + b) ∧
    row .andi 0x21 (fun a b => a &&& b) ∧
    row .ori 0x22 (fun a b => a ||| b) ∧
    row .xori 0x23 (fun a b => a ^^^ b) ∧
    shift .shli 0x24 (fun a n => BitVec.ofNat 64 (a.toNat * 2 ^ n)) ∧
    shift .shri 0x25 (fun a n => BitVec.ofNat 64 (a.toNat / 2 ^ n)) ∧
    shift .sari 0x26 (fun a n => BitVec.ofInt 64 (a.toInt / 2 ^ n)) ∧
    row .slti 0x27 (fun a b => if a.toInt < b.toInt then 1 else 0) ∧
    row .sltui 0x28 (fun a b => if a.toNat < b.toNat then 1 else 0) ∧
    row .muli 0x29 (fun a b => a * b) ∧
    Computes .li 0x2E (mD ||| mIMM48) (fun w x => x.setS (fD w) (BitVec.ofInt 64 (sgn 48 w.toNat))) ∧
    Computes .lih 0x2F (mD ||| 0xFFFF)
      (fun w x => x.setS (fD w) (BitVec.ofNat 64 (w.toNat % 2 ^ 16 * 2 ^ 48 + (x.getS (fD w)).toNat % 2 ^ 48))))) ∧
  (let row := fun i op (f : W64 → W64 → W64) =>
     Computes i op (mD ||| mA ||| mB) fun w x => x.setS (fD w) (f (x.getS (fA w)) (x.getS (fB w)))
   let least : W64 := BitVec.ofNat 64 (2 ^ 63)
   row .div 0x06 (fun a b => if b = 0 then BitVec.allOnes 64 else if a = least ∧ b = BitVec.allOnes 64 then least
     else BitVec.ofInt 64 (a.toInt.tdiv b.toInt)) ∧
   row .divu 0x07 (fun a b => if b = 0 then BitVec.allOnes 64 else BitVec.ofNat 64 (a.toNat / b.toNat)) ∧
   row .rem 0x08 (fun a b => if b = 0 then a else if a = least ∧ b = BitVec.allOnes 64 then 0
     else BitVec.ofInt 64 (a.toInt.tmod b.toInt)) ∧
   row .remu 0x09 (fun a b => if b = 0 then a else BitVec.ofNat 64 (a.toNat % b.toNat))) ∧
  (let target := fun (w : W64) (x : Core) => (((x.pc : Int) + 8 * sgn 32 w.toNat) % 2 ^ 18).toNat
   let row := fun i op (f : W64 → W64 → Bool) =>
     Executes i op (mA ||| mB ||| mIMM) fun k w ch x =>
       if f (x.getS (fA w)) (x.getS (fB w)) then ch.retireTo k (target w x) else ch.retireTo k (x.pc + 8)
   let pred := fun i op (f : W64 → Bool) =>
     Executes i op (mA ||| mIMM) fun k w ch x =>
       if 8 ≤ fA w then ch.fault k fcILLEGAL cBOUNDS 0
       else if f (x.getP (fA w)) then ch.retireTo k (target w x) else ch.retireTo k (x.pc + 8)
   row .beq 0x30 (fun a b => a == b) ∧
   row .bne 0x31 (fun a b => a != b) ∧
   row .blt 0x32 (fun a b => a.toInt < b.toInt) ∧
   row .bge 0x33 (fun a b => b.toInt ≤ a.toInt) ∧
   row .bltu 0x34 (fun a b => a.toNat < b.toNat) ∧
   row .bgeu 0x35 (fun a b => b.toNat ≤ a.toNat) ∧
   Executes .jal 0x36 (mD ||| mIMM) (fun k w ch x =>
     (ch.modCore k fun y => y.setS (fD w) (BitVec.ofNat 64 (x.pc + 8))).retireTo k (target w x)) ∧
   Executes .jalr 0x37 (mD ||| mA ||| mIMM) (fun k w ch x =>
     (ch.modCore k fun y => y.setS (fD w) (BitVec.ofNat 64 (x.pc + 8))).retireTo k
       (((x.getS (fA w)).toInt + sgn 32 w.toNat) % 2 ^ 18).toNat) ∧
   pred .bpany 0x38 (fun p => p != 0) ∧
   pred .bpnone 0x39 (fun p => p == 0))


/-! ## Cores: vectors, predicates and lane moves -/

/-- Vector integer instructions write every active lane of width EW and leave the others; vicmp writes predicate bits and clears those of
inactive lanes and those at or above the lane count; vsel takes each lane by pC; vsum adds active lanes; vdot4 adds four products to each
active 32-bit lane (R312, R313, R327, R328).
Predicate instructions: bitwise results, the first min(sA, lane count) bits of pset, the count of pcnt, and the moves between a
predicate and a scalar register; a field that names a predicate register holds 0 to 7 (R310, R311).
Lane moves, narrowing and widening: vmov and vbcast write the active lanes; vext reads, and vins writes, lane sB modulo the lane
count; vperm takes lane B[j] modulo the lane count; vslide takes lane j + sB, 0 outside; vnarrow and vwiden use the half of the register
that FN bit 4 names (R327, R333). -/
def Obligations.VectorAndPredicateResults : Prop :=
  ((let row := fun i op (f : Nat → Nat → Nat → Nat) =>
      ComputesLanes i op (mD ||| mA ||| mB ||| mP ||| mEW) (fun _ => true) wEW (fun w x j => (x.getP (fP w)).getLsbD j)
        fun w x j => f (wEW w) (lane (x.getV (fA w)) (wEW w) j) (lane (x.getV (fB w)) (wEW w) j)
    row .vadd 0x60 (fun _ a b => a + b) ∧
    row .vsub 0x61 (fun n a b => a + 2 ^ n - b) ∧
    row .vmul 0x62 (fun _ a b => a * b) ∧
    row .vmulh 0x63 (fun n a b => (sgn n a * sgn n b / 2 ^ n % 2 ^ n).toNat) ∧
    row .vmulhu 0x64 (fun n a b => a * b / 2 ^ n) ∧
    row .vand 0x65 (fun _ a b => a &&& b) ∧
    row .vor 0x66 (fun _ a b => a ||| b) ∧
    row .vxor 0x67 (fun _ a b => a ^^^ b) ∧
    row .vshl 0x68 (fun n a b => a * 2 ^ (b % n)) ∧
    row .vshr 0x69 (fun n a b => a / 2 ^ (b % n)) ∧
    row .vsar 0x6A (fun n a b => (sgn n a / 2 ^ (b % n) % 2 ^ n).toNat) ∧
    row .vmin 0x6B (fun n a b => if sgn n a ≤ sgn n b then a else b) ∧
    row .vmax 0x6C (fun n a b => if sgn n a ≤ sgn n b then b else a) ∧
    row .vminu 0x6D (fun _ a b => if a ≤ b then a else b) ∧
    row .vmaxu 0x6E (fun _ a b => if a ≤ b then b else a)) ∧
   (let n := wEW
    ComputesPred .vicmp 0x6F (mD ||| mA ||| mB ||| mP ||| mEW ||| (0xF <<< 16)) (fun w => fD w < 8 && bitsOf (fFN w) 1 3 ≤ 5)
      (fun w x j => j < 512 / n w && (x.getP (fP w)).getLsbD j &&
        let a := laneInt (n w) (bitOf (fFN w) 0) (lane (x.getV (fA w)) (n w) j)
        let b := laneInt (n w) (bitOf (fFN w) 0) (lane (x.getV (fB w)) (n w) j)
        match bitsOf (fFN w) 1 3 with
        | 0 => a == b
        | 1 => a != b
        | 2 => decide (a < b)
        | 3 => decide (a ≤ b)
        | 4 => decide (a > b)
        | _ => decide (a ≥ b)) ∧
    ComputesLanes .vsel 0x70 (mD ||| mA ||| mB ||| mC ||| mEW) (fun w => fC w < 8) n (fun _ _ _ => true)
      (fun w x j => lane (x.getV (if (x.getP (fC w)).getLsbD j then fA w else fB w)) (n w) j) ∧
    Computes .vsum 0x71 (mD ||| mA ||| mP ||| mEW ||| (1 <<< 16)) (fun w x =>
      x.setS (fD w) (BitVec.ofInt 64 (((List.range (512 / n w)).filter fun j => (x.getP (fP w)).getLsbD j).map fun j =>
        laneInt (n w) (bitOf (fFN w) 0) (lane (x.getV (fA w)) (n w) j)).sum)) ∧
    ComputesLanes .vdot4 0x72 (mD ||| mA ||| mB ||| mP ||| mEW ||| (3 <<< 16)) (fun w => fEW w == 2) (fun _ => 32)
      (fun w x j => (x.getP (fP w)).getLsbD j)
      (fun w x j =>
        let at8 := fun (v : V512) (i : Nat) => lane v 8 (4 * j + i)
        let term := fun (i : Nat) => laneInt 8 (bitOf (fFN w) 0) (at8 (x.getV (fA w)) i) * laneInt 8 (bitOf (fFN w) 1) (at8 (x.getV (fB w)) i)
        ((lane (x.getV (fD w)) 32 j + term 0 + term 1 + term 2 + term 3) % 2 ^ 32 : Int).toNat))) ∧
  (let row := fun i op (f : Bool → Bool → Bool) =>
     ComputesPred i op (mD ||| mA ||| mB) (fun w => fD w < 8 && fA w < 8 && fB w < 8)
       fun w x j => f ((x.getP (fA w)).getLsbD j) ((x.getP (fB w)).getLsbD j)
   row .pand 0xA0 (fun a b => a && b) ∧
   row .por 0xA1 (fun a b => a || b) ∧
   row .pxor 0xA2 (fun a b => a != b) ∧
   row .pandn 0xA3 (fun a b => a && !b) ∧
   ComputesPred .pnot 0xA4 (mD ||| mA) (fun w => fD w < 8 && fA w < 8) (fun w x j => !(x.getP (fA w)).getLsbD j) ∧
   ComputesPred .pset 0xA5 (mD ||| mA ||| mEW) (fun w => fD w < 8)
     (fun w x j => j < min (x.getS (fA w)).toNat (512 / wEW w)) ∧
   Executes .pcnt 0xA6 (mD ||| mA ||| mEW) (fun k w ch x =>
     if 8 ≤ fA w then ch.fault k fcILLEGAL cBOUNDS 0
     else (ch.modCore k fun y => y.setS (fD w)
       (BitVec.ofNat 64 ((List.range (512 / wEW w)).filter fun j => (x.getP (fA w)).getLsbD j).length)).retire k) ∧
   ComputesPred .pfrom 0xA7 (mD ||| mA) (fun w => fD w < 8) (fun w x j => (x.getS (fA w)).getLsbD j) ∧
   Executes .pto 0xA8 (mD ||| mA) (fun k w ch x =>
     if 8 ≤ fA w then ch.fault k fcILLEGAL cBOUNDS 0 else (ch.modCore k fun y => y.setS (fD w) (x.getP (fA w))).retire k)) ∧
  (let n := wEW
   let count := fun (w : W64) => 512 / n w
   let act := fun (w : W64) (x : Core) (j : Nat) => (x.getP (fP w)).getLsbD j
   let ok := fun (_ : W64) => true
   ComputesLanes .vmov 0xB0 (mD ||| mA ||| mP ||| mEW) ok n act (fun w x j => lane (x.getV (fA w)) (n w) j) ∧
   ComputesLanes .vbcast 0xB1 (mD ||| mA ||| mP ||| mEW) ok n act (fun w x _ => (x.getS (fA w)).toNat) ∧
   Computes .vext 0xB2 (mD ||| mA ||| mB ||| mEW) (fun w x =>
     x.setS (fD w) (BitVec.ofNat 64 (lane (x.getV (fA w)) (n w) ((x.getS (fB w)).toNat % count w)))) ∧
   ComputesLanes .vins 0xB3 (mD ||| mA ||| mB ||| mEW) ok n (fun w x j => j == (x.getS (fB w)).toNat % count w)
     (fun w x _ => (x.getS (fA w)).toNat) ∧
   ComputesLanes .vperm 0xB4 (mD ||| mA ||| mB ||| mEW) ok n (fun _ _ _ => true)
     (fun w x j => lane (x.getV (fA w)) (n w) (lane (x.getV (fB w)) (n w) j % count w)) ∧
   ComputesLanes .vslide 0xB5 (mD ||| mA ||| mB ||| mEW) ok n (fun _ _ _ => true)
     (fun w x j =>
       let i := (j : Int) + (x.getS (fB w)).toInt
       if 0 ≤ i ∧ i < count w then lane (x.getV (fA w)) (n w) i.toNat else 0))


/-! ## Cores: floating-point -/

/-- Vector floating-point arithmetic: the exact result of the operands, rounded once in the mode of RM (DYN takes ACW.RMODE) in every
active lane; minima and maxima, classification, rounding to an integer, scaleB and logB, the sign operations, and the horizontal sum,
whose other lanes are +0.0; the flags of the active lanes are ORed into ACW (R260 to R264, R310, R312, R329 to R332, R1017).
vfcmp and vftot write the predicate bits of active lanes (R332).
Conversions with the packing of R333: vnarrow and vwiden between integer widths, vfcvti and vicvtf between FP32 or FP64 and integer
lanes, vfcvt between formats; vfcvt's integer that an integer format does not hold is a free value of the operand, the formats and the
mode, the same on every chip (R296, R298; DESIGN CHOICE, log entry 21). -/
def Obligations.FloatResults : Prop :=
  ((let mode := fun (w : W64) (x : Core) => if fRM w = 0 then acwMode x.acw else fRM w
    let at' := fun (w : W64) (v : V512) (j : Nat) => decodeFl (fFMT w) (lane v (wFMT w) j)
    let two := fun i op (g : Nat → Fl → Fl → Fl × Nat) => Floats i op (mD ||| mA ||| mB ||| mP ||| mRM) (fun _ => true)
      (LaneResult fun w x j => finish (fFMT w) (mode w x) (g (mode w x) (at' w (x.getV (fA w)) j) (at' w (x.getV (fB w)) j)))
    let three := fun i op (g : Nat → Fl → Fl → Fl → Fl × Nat) => Floats i op (mD ||| mA ||| mB ||| mC ||| mP ||| mRM) (fun _ => true)
      (LaneResult fun w x j => finish (fFMT w) (mode w x)
        (g (mode w x) (at' w (x.getV (fA w)) j) (at' w (x.getV (fB w)) j) (at' w (x.getV (fC w)) j)))
    two .vfadd 0x80 (fun m a b => addFl m a b) ∧
    two .vfsub 0x81 (fun m a b => addFl m a b.neg) ∧
    two .vfmul 0x82 (fun _ a b => mulFl a b) ∧
    two .vfdiv 0x83 (fun _ a b => divFl a b) ∧
    Floats .vfsqrt 0x84 (mD ||| mA ||| mP ||| mRM) (fun _ => true)
      (LaneResult fun w x j => finish (fFMT w) (mode w x) (sqrtFl (at' w (x.getV (fA w)) j))) ∧
    three .vfma 0x85 (fun m a b c => fmaFl m a b c) ∧
    three .vfms 0x86 (fun m a b c => fmaFl m a b c.neg) ∧
    three .vfnma 0x87 (fun m a b c => fmaFl m a.neg b c)) ∧
   (let mode := fun (w : W64) (x : Core) => if fRM w = 0 then acwMode x.acw else fRM w
    let a := fun (w : W64) (x : Core) (j : Nat) => lane (x.getV (fA w)) (wFMT w) j
    let b := fun (w : W64) (x : Core) (j : Nat) => lane (x.getV (fB w)) (wFMT w) j
    let row := fun i op used (g : W64 → Core → Nat → Nat × Nat) => Floats i op used (fun _ => true) (LaneResult g)
    let two := mD ||| mA ||| mB ||| mP
    row .vfmin 0x88 two (fun w x j => minMax (fFMT w) false false (a w x j) (b w x j)) ∧
    row .vfmax 0x89 two (fun w x j => minMax (fFMT w) true false (a w x j) (b w x j)) ∧
    row .vfminn 0x8A two (fun w x j => minMax (fFMT w) false true (a w x j) (b w x j)) ∧
    row .vfmaxn 0x8B two (fun w x j => minMax (fFMT w) true true (a w x j) (b w x j)) ∧
    row .vfclass 0x8D (mD ||| mA ||| mP) (fun w x j => (fclass (fFMT w) (a w x j), 0)) ∧
    Floats .vfsum 0x8E (mD ||| mA ||| mP ||| mRM) (fun _ => true) (fun w x y =>
      let r := hsum (fFMT w) (mode w x) ((List.range (512 / wFMT w)).map fun j =>
        if (x.getP (fP w)).getLsbD j then some (a w x j) else none)
      ∃ v, (∀ j, j < 512 / wFMT w → lane v (wFMT w) j = if j = 0 then r.1 % 2 ^ wFMT w else 0) ∧
        y = (x.setV (fD w) v).raiseFlags r.2) ∧
    row .vfrnd 0x8F (mD ||| mA ||| mP ||| mRM) (fun w x j => frnd (fFMT w) (mode w x) (a w x j)) ∧
    row .vfscb 0x90 (two ||| mRM) (fun w x j => fscaleB (fFMT w) (mode w x) (a w x j) (sgn (wFMT w) (b w x j))) ∧
    row .vflgb 0x91 (mD ||| mA ||| mP) (fun w x j => flogB (fFMT w) (a w x j)) ∧
    row .vfsgn 0x92 (two ||| (3 <<< 16)) (fun w x j =>
      let top := 2 ^ (wFMT w - 1)
      (match fFN w with
        | 0 => a w x j
        | 1 => if a w x j < top then a w x j + top else a w x j - top
        | 2 => a w x j % top
        | _ => a w x j % top + (if b w x j < top then 0 else top), 0)))) ∧
  (let a := fun (w : W64) (x : Core) (j : Nat) => lane (x.getV (fA w)) (wFMT w) j
   let b := fun (w : W64) (x : Core) (j : Nat) => lane (x.getV (fB w)) (wFMT w) j
   Floats .vfcmp 0x8C (mD ||| mA ||| mB ||| mP ||| (0xF <<< 16)) (fun w => fD w < 8)
     (PredResult fun w x j => fcmp (fFMT w) (fFN w) (a w x j) (b w x j)) ∧
   Floats .vftot 0x93 (mD ||| mA ||| mB ||| mP) (fun w => fD w < 8)
     (PredResult fun w x j => (totalOrder (fFMT w) (a w x j) (b w x j), 0))) ∧
  (let mode := fun (w : W64) (x : Core) => if fRM w = 0 then acwMode x.acw else fRM w
   let plain := fun (i : Nat → Nat → W64 → Sys2Proof.Instr) op (ws wd : W64 → Nat) (g : W64 → Nat → Nat) =>
     ∀ (s : State) (c k : Nat) (w : W64) (ch : Chip), s.chips[c]? = some ch →
       ch.ready k w op (mD ||| mA ||| mP ||| mEW ||| (0x11 <<< 16)) = true →
       ∃ y, PackedResult (ws w) (wd w) (fun v => (g w v, 0)) w (ch.core k) y ∧
         exec (i c k w) s = .next (s.withChip c (((ch.fetched k).modCore k fun _ => y).retire k))
   plain .vnarrow 0x73 wEW (fun w => wEW w / 2) (fun w v =>
     let h : Nat := wEW w / 2
     if bitOf (fFN w) 0 then (max (-(2 ^ (h - 1) : Int)) (min (2 ^ (h - 1) - 1) (sgn (wEW w) v)) % 2 ^ h).toNat else min v (2 ^ h - 1)) ∧
   plain .vwiden 0x74 (fun w => wEW w / 2) wEW (fun w v => if bitOf (fFN w) 0 then (sgn (wEW w / 2) v % 2 ^ wEW w).toNat else v) ∧
   Floats .vfcvti 0x95 (mD ||| mA ||| mP ||| mRM ||| mEW ||| (0x11 <<< 16)) (fun _ => true) (fun w x y =>
     PackedResult (wFMT w) (wEW w) (fun v => toIntW (wEW w) (bitOf (fFN w) 0) (mode w x) (decodeFl (fFMT w) v)) w x y) ∧
   Floats .vicvtf 0x96 (mD ||| mA ||| mP ||| mRM ||| mEW ||| (0x11 <<< 16)) (fun _ => true) (fun w x y =>
     PackedResult (wEW w) (wFMT w) (fun v => toFmt (fFMT w) (mode w x) false (flInt (laneInt (wEW w) (bitOf (fFN w) 0) v))) w x y) ∧
   ∀ (s : State) (c k : Nat) (w : W64) (ch : Chip), s.chips[c]? = some ch →
     ch.ready k w 0x94 (mD ||| mA ||| mP ||| mRM ||| mFMT ||| (0x7F <<< 16)) = true →
     let src := bitsOf (fFN w) 0 4
     let dst := fFMT w
     let sat := if bitsOf (fFN w) 5 2 = 0 then acwSat (ch.core k).acw else bitsOf (fFN w) 5 2 = 1
     if 13 ≤ dst ∨ 13 ≤ src ∨ fRM w = 7 ∨ bitsOf (fFN w) 5 2 = 3 then
       exec (.vfcvt c k w) s = .next (s.withChip c ((ch.fetched k).fault k fcILLEGAL cBOUNDS 0))
     else if (dst = fFP64 ∨ src = fFP64) ∧ ch.variant.fp64 = false then
       exec (.vfcvt c k w) s = .next (s.withChip c ((ch.fetched k).fault k fcABSENT cABSENT 0))
     else ∃ y : Core,
       PackedResult (fmtWidth src) (fmtWidth dst) (fun v =>
         let x := decodeFl src v
         let out := toIntW (fmtWidth dst) (fmtSigned dst) (mode w (ch.core k)) x
         if dst = fE8M0 then toE8M0 x
         else if fmtIsInt dst then (if fmtIsInt src ∧ out.2 ≠ 0 then ((Config.convInt src dst (mode w (ch.core k)) sat v).toNat % 2 ^ fmtWidth dst, 0) else out)
         else toFmt dst (mode w (ch.core k)) sat x) w (ch.core k) y ∧
       exec (.vfcvt c k w) s = .next (s.withChip c (((ch.fetched k).modCore k fun _ => y).retire k)))

/-- Rounding m / 2^d to an integer: exact where nothing is lost; otherwise RTZ truncates, RDN and RUP take the side of the sign, RNE and
RNA take the nearest, a tie going to the even or to the larger magnitude, and ROD truncates and sets the last bit (R264, R265).
A NaN operand gives the canonical NaN of the format in every arithmetic operation that rounds, and a signalling one raises NV (R261). -/
def Obligations.RoundingAndNan : Prop :=
  (∀ (neg : Bool) (m d : Nat),
     let fl := m / 2 ^ d
     let up := if m % 2 ^ d = 0 then fl else fl + 1
     (∀ mode, (roundShift mode neg m d).2 = decide (m % 2 ^ d ≠ 0)) ∧
     (roundShift rmRTZ neg m d).1 = fl ∧
     (roundShift rmRDN neg m d).1 = (if neg then up else fl) ∧
     (roundShift rmRUP neg m d).1 = (if neg then fl else up) ∧
     (roundShift rmROD neg m d).1 = (if m % 2 ^ d = 0 then fl else 2 * (fl / 2) + 1) ∧
     (let q := (roundShift rmRNE neg m d).1
      2 * q * 2 ^ d ≤ 2 * m + 2 ^ d ∧ 2 * m ≤ 2 * q * 2 ^ d + 2 ^ d ∧
      (2 * q * 2 ^ d = 2 * m + 2 ^ d ∨ 2 * m = 2 * q * 2 ^ d + 2 ^ d → q % 2 = 0)) ∧
     (let q := (roundShift rmRNA neg m d).1
      2 * q * 2 ^ d ≤ 2 * m + 2 ^ d ∧ 2 * m < 2 * q * 2 ^ d + 2 ^ d)) ∧
  (∀ (f mode : Nat) (a b c : Fl), f = fFP32 ∨ f = fFP64 →
     let nan := fun (x : Fl) => x = .nan true ∨ x = .nan false
     let out := fun (r : Fl × Nat) => (finish f mode r).1 = (if f = fFP32 then 0x7FC00000 else 0x7FF8000000000000)
     (nan a ∨ nan b → out (addFl mode a b) ∧ out (mulFl a b) ∧ out (divFl a b)) ∧
     (nan a → out (sqrtFl a)) ∧
     (nan a ∨ nan b ∨ nan c → out (fmaFl mode a b c)) ∧
     (a = .nan true ∨ b = .nan true → (finish f mode (addFl mode a b)).2.testBit 0 = true ∧
       (finish f mode (mulFl a b)).2.testBit 0 = true ∧ (finish f mode (divFl a b)).2.testBit 0 = true))


/-! ## Cores: memory -/

/-- A scalar load of a memory of the chip retires: sD takes the little-endian bytes at sA + sB or sA + OFF, sign- or zero-extended, and no
byte of memory changes (R12, R303, R317 to R319, R355).
A scalar store that is not speculative, to a memory of the chip, retires: the low bytes of sD stand at its address, little-endian, no
other byte of memory changes, and no register changes (R12, R317 to R319, R370).
An atomic on a memory of the chip retires: sD takes the 64 bits that stood at its address, which then hold the sum, sB, sB where they
equalled sD, or the signed maximum; no other byte of memory changes (R320).
A scalar load or store whose form is reserved is ILLEGAL_INSTR with code BOUNDS; one that is not aligned is an ACCESS fault with code
ALIGN, and a load that the map or the permissions refuse an ACCESS fault with their code: no register and no byte of memory changes, and
the core is FAULTED (R308, R317, R319, R369, R373). -/
def Obligations.ScalarMemoryResults : Prop :=
  (let row := fun (i : Nat → Nat → W64 → Sys2Proof.Instr) op size (signed : Bool) =>
     ∀ (s : State) (c k : Nat) (w : W64) (ch : Chip), s.chips[c]? = some ch → ch.ready k w op mScalar = true →
       let x := ch.core k
       let a := effAddr x w
       memFormOk .load w = true → ordered .load w x = true → a % size = 0 → ch.canRead k a size →
       ∃ ch', exec (i c k w) s = .next (s.withChip c ch') ∧ Unstored ch.mem ch'.mem ∧
         Retired ch ch' k (x.setS (fD w) (if signed then BitVec.ofInt 64 (sgn (8 * size) (leNat (ch.see (some k) a size)))
           else BitVec.ofNat 64 (leNat (ch.see (some k) a size)))) (x.pc + 8)
   row .ld8 0x40 1 true ∧ row .ld8u 0x41 1 false ∧ row .ld16 0x42 2 true ∧ row .ld16u 0x43 2 false ∧
   row .ld32 0x44 4 true ∧ row .ld32u 0x45 4 false ∧ row .ld64 0x46 8 false) ∧
  (let row := fun (i : Nat → Nat → W64 → Sys2Proof.Instr) op size =>
     ∀ (s : State) (c k : Nat) (w : W64) (ch : Chip), s.chips[c]? = some ch → ch.ready k w op mScalar = true →
       let x := ch.core k
       let a := effAddr x w
       memFormOk .store w = true → ordered .store w x = true → a % size = 0 → fSP w = false → ch.canWrite k a size → Memory.wf ch.mem = true →
       ∃ ch', exec (i c k w) s = .next (s.withChip c ch') ∧ Retired ch ch' k x (x.pc + 8) ∧
         Stored ch.mem ch'.mem a (leBytes size (x.getS (fD w)).toNat)
   row .st8 0x48 1 ∧ row .st16 0x49 2 ∧ row .st32 0x4A 4 ∧ row .st64 0x4B 8) ∧
  (let row := fun (i : Nat → Nat → W64 → Sys2Proof.Instr) op (f : W64 → W64 → W64 → W64) =>
     ∀ (s : State) (c k : Nat) (w : W64) (ch : Chip), s.chips[c]? = some ch → ch.ready k w op mScalar = true →
       let x := ch.core k
       let a := effAddr x w
       let old := BitVec.ofNat 64 (ch.read a 8)
       memFormOk .atomic w = true → ordered .atomic w x = true → a % 8 = 0 → ch.canRead k a 8 → ch.committedHit a 8 = false →
       (∀ pl, ch.reach (ch.partNo k) a 8 = .ok pl → ch.starved (ch.partNo k) pl true a 8 = false) → ch.clash a 8 = none → Memory.wf ch.mem = true →
       ∃ ch', exec (i c k w) s = .next (s.withChip c ch') ∧ Retired ch ch' k (x.setS (fD w) old) (x.pc + 8) ∧
         Stored ch.mem ch'.mem a (leBytes 8 (f old (x.getS (fB w)) (x.getS (fD w))).toNat)
   row .amoadd 0x4C (fun old b _ => old + b) ∧
   row .amoswap 0x4D (fun _ b _ => b) ∧
   row .amocas 0x4E (fun old b d => if old = d then b else old) ∧
   row .amomax 0x4F (fun old b _ => if old.toInt < b.toInt then b else old)) ∧
  (let refused := fun (i : Sys2Proof.Instr) (s : State) (c k : Nat) (ch : Chip) (cause code : Nat) =>
     ch.wdg.steward = .running → ∃ ch', exec i s = .next (s.withChip c ch') ∧ Unstored ch.mem ch'.mem ∧
       (ch'.core k).state = .faulted ∧ (ch'.core k).fault.valid = true ∧ (ch'.core k).fault.cause = cause ∧
       (ch'.core k).fault.code = code ∧ (ch'.core k).fault.pc = (ch.core k).pc ∧ (ch'.core k).fault.imprecise = false ∧
       (ch'.core k).s = (ch.core k).s ∧ (ch'.core k).v = (ch.core k).v ∧ (ch'.core k).p = (ch.core k).p ∧ (ch'.core k).pc = (ch.core k).pc
   let row := fun (i : Nat → Nat → W64 → Sys2Proof.Instr) op size (u : MemUse) =>
     ∀ (s : State) (c k : Nat) (w : W64) (ch : Chip), s.chips[c]? = some ch → ch.ready k w op mScalar = true →
       let x := ch.core k
       let a := effAddr x w
       (memFormOk u w = false → refused (i c k w) s c k ch fcILLEGAL cBOUNDS) ∧
       (memFormOk u w = true → ordered u w x = true → a % size ≠ 0 → refused (i c k w) s c k ch fcACCESS cALIGN) ∧
       ∀ e, u = .load → memFormOk u w = true → ordered u w x = true → a % size = 0 → ch.reach (ch.partNo k) a size = .error e →
         refused (i c k w) s c k ch fcACCESS e
   row .ld8 0x40 1 .load ∧ row .ld8u 0x41 1 .load ∧ row .ld16 0x42 2 .load ∧ row .ld16u 0x43 2 .load ∧
   row .ld32 0x44 4 .load ∧ row .ld32u 0x45 4 .load ∧ row .ld64 0x46 8 .load ∧
   row .st8 0x48 1 .store ∧ row .st16 0x49 2 .store ∧ row .st32 0x4A 4 .store ∧ row .st64 0x4B 8 .store ∧
   row .amoadd 0x4C 8 .atomic ∧ row .amoswap 0x4D 8 .atomic ∧ row .amocas 0x4E 8 .atomic ∧ row .amomax 0x4F 8 .atomic)

/-- A vector load of a memory of the chip retires: each active lane takes the element at its own place, the others keep theirs, and no
byte of memory changes; a vector load without an active lane reads nothing (R312, R321, R324).
A vector store that is not speculative, to a memory of the chip, retires: each active lane stands at its own place, and no other byte
of memory changes (R312, R321).
vgthw and vsctw act on 32-bit words of the core's own store, at sA plus the lane of B: a gather fills the active lanes and stores
nothing, a scatter stores each active lane, a higher lane's value remaining where two name one address, and changes no other byte (R322,
R323). -/
def Obligations.VectorMemoryResults : Prop :=
  (let row := fun (i : Nat → Nat → W64 → Sys2Proof.Instr) op (size : Nat) =>
     ∀ (s : State) (c k : Nat) (w : W64) (ch : Chip), s.chips[c]? = some ch → ch.ready k w op mVector = true →
       let x := ch.core k
       let a := effAddr x w
       let act := activeLanes (8 * size) (x.getP (fMP w))
       memFormOk .load w = true → ordered .load w x = true → a % size = 0 →
       (act = [] ∨ ch.canRead k (a + (laneSpan (8 * size) act).1) (laneSpan (8 * size) act).2) →
       ∃ ch' v, exec (i c k w) s = .next (s.withChip c ch') ∧ Unstored ch.mem ch'.mem ∧
         Retired ch ch' k (x.setV (fD w) v) (x.pc + 8) ∧
         LanesAre (8 * size) (fun j => (x.getP (fMP w)).getLsbD j) (fun j => leNat (ch.see (some k) (a + j * size) size))
           (x.getV (fD w)) v
   row .vldb 0x50 1 ∧ row .vldh 0x51 2 ∧ row .vldw 0x52 4 ∧ row .vldd 0x53 8) ∧
  (let row := fun (i : Nat → Nat → W64 → Sys2Proof.Instr) op (size : Nat) =>
     ∀ (s : State) (c k : Nat) (w : W64) (ch : Chip), s.chips[c]? = some ch → ch.ready k w op mVector = true →
       let x := ch.core k
       let a := effAddr x w
       let act := activeLanes (8 * size) (x.getP (fMP w))
       memFormOk .store w = true → ordered .store w x = true → a % size = 0 → fSP w = false →
       (act = [] ∨ (ch.canWrite k (a + (laneSpan (8 * size) act).1) (laneSpan (8 * size) act).2 ∧
         ch.bad (a + (laneSpan (8 * size) act).1) (laneSpan (8 * size) act).2 = false)) → Memory.wf ch.mem = true →
       ∃ ch', exec (i c k w) s = .next (s.withChip c ch') ∧ Retired ch ch' k x (x.pc + 8) ∧ Memory.wf ch'.mem = true ∧
         (∀ j ∈ act, Memory.bytes ch'.mem (a + j * size) size = leBytes size (lane (x.getV (fD w)) (8 * size) j)) ∧
         ∀ b, (∀ j ∈ act, b < a + j * size ∨ a + j * size + size ≤ b) → Memory.get ch'.mem b = Memory.get ch.mem b
   row .vstb 0x54 1 ∧ row .vsth 0x55 2 ∧ row .vstw 0x56 4 ∧ row .vstd 0x57 8) ∧
  (let at' := fun (w : W64) (x : Core) (j : Nat) => ((x.getS (fA w)).toNat + lane (x.getV (fB w)) 32 j) % 2 ^ 64
   let act := fun (w : W64) (x : Core) => activeLanes 32 (x.getP (fMP w))
   (∀ (s : State) (c k : Nat) (w : W64) (ch : Chip), s.chips[c]? = some ch → ch.ready k w 0x58 mVector = true →
     let x := ch.core k
     gatherFormOk w false = true → ordered .load w x = true →
     (∀ j ∈ act w x, at' w x j % 4 = 0 ∧ inOwn k (at' w x j) 4 = true ∧ ch.bad (at' w x j) 4 = false) →
     ∃ ch' v, exec (.vgthw c k w) s = .next (s.withChip c ch') ∧ Unstored ch.mem ch'.mem ∧
       Retired ch ch' k (x.setV (fD w) v) (x.pc + 8) ∧
       LanesAre 32 (fun j => (x.getP (fMP w)).getLsbD j) (fun j => leNat (ch.see (some k) (at' w x j) 4)) (x.getV (fD w)) v) ∧
   (∀ (s : State) (c k : Nat) (w : W64) (ch : Chip), s.chips[c]? = some ch → ch.ready k w 0x59 mVector = true →
     let x := ch.core k
     gatherFormOk w true = true → ordered .store w x = true → fSP w = false →
     (∀ j ∈ act w x, at' w x j % 4 = 0 ∧ inOwn k (at' w x j) 4 = true ∧ ch.writeCode (at' w x j) 4 = cOK ∧ ch.clash (at' w x j) 4 = none) → Memory.wf ch.mem = true →
     ∃ ch', exec (.vsctw c k w) s = .next (s.withChip c ch') ∧ Retired ch ch' k x (x.pc + 8) ∧ Memory.wf ch'.mem = true ∧
       (∀ j ∈ act w x, (∀ i ∈ act w x, j < i → at' w x i ≠ at' w x j) →
         Memory.bytes ch'.mem (at' w x j) 4 = leBytes 4 (lane (x.getV (fD w)) 32 j)) ∧
       ∀ b, (∀ j ∈ act w x, b < at' w x j ∨ at' w x j + 4 ≤ b) → Memory.get ch'.mem b = Memory.get ch.mem b))


/-! ## Cores: messages, synchronisation, append regions, epochs -/

/-- send and tsend on a channel that core `k` sends on, from an aligned buffer of its store to a core that is not fenced, take a credit:
the message is in flight with the channel's generation and sequence, and sD reports OK, the generation and the credits left. Without a
credit tsend answers BUSY, and send waits (R349, R405 to R412, R430, R1018).
recv and trecv on a channel that core `k` receives on, into an aligned buffer of its store from a core that is not fenced, take the
oldest message: its bytes stand in the buffer, a credit goes back, and sD reports OK, the generation, the messages left and the sequence
number. Without a message trecv answers BUSY, and recv waits (R349, R405 to R413, R430, R1018).
A message of the channel's generation with a right crc and the expected sequence reaches the port's queue, one of an older generation is
dropped and counted, and one with a wrong crc or sequence is dropped, its credit returned, the sequence resynchronised and MSG_CRC raised; a
returned credit of the generation is the sender's again, at most the depth (R413, R417, R418).
A wait of a core in send, recv, sop WAIT, cwait or cwtag that has lasted its limit ends with TIMEOUT in sD (R346, R412, R413, R422). -/
def Obligations.MessageResults : Prop :=
  (∀ (try_ : Bool) (s : State) (c k : Nat) (w : W64) (ch : Chip) (y : Chan), s.chips[c]? = some ch →
     ch.ready k w (if try_ then 0xE2 else 0xE0) (mD ||| mA ||| mIMM) = true → fIMM w < 4096 → (ch.core k).posted = [] →
     ch.chan (fIMM w) = some y → y.part = ch.partNo k → y.srcCore = k →
     let a := ((ch.core k).getS (fA w)).toNat
     a % 64 = 0 → coreBase k ≤ a → a + y.msgBytes ≤ coreBase (k + 1) → ch.isFenced y.dstCore = false → ch.bad a y.msgBytes = false →
     let f := ch.fetched k
     let answer := fun (g : Chip) (v : W64) => (g.modCore k fun x => x.setS (fD w) v).retire k
     let m : Msg := { gen := y.gen, seq := y.txSeq, payload := ch.see (some k) a y.msgBytes }
     exec (if try_ then .tsend c k w else .send c k w) s = .next (s.withChip c (
       if 0 < y.credits then answer (f.modChan y.id fun z =>
           { z with credits := z.credits - 1, txSeq := (z.txSeq + 1) % 2 ^ 16, flight := z.flight ++ [{ m with gen := z.gen, seq := z.txSeq }] })
         (outcomeWord cOK y.gen (y.credits - 1) 0)
       else if try_ then answer f (outcomeWord cBUSY y.gen 0 0)
       else f.modCore k fun x => { x with state := .waiting, wait := some (.send (fD w) y.id a ch.time) }))) ∧
  (∀ (try_ : Bool) (s : State) (c k : Nat) (w : W64) (ch : Chip) (y : Chan), s.chips[c]? = some ch →
     ch.ready k w (if try_ then 0xE3 else 0xE1) (mD ||| mA ||| mIMM) = true → fIMM w < 4096 →
     ch.chan (fIMM w) = some y → y.part = ch.partNo k → y.dstCore = k →
     let a := ((ch.core k).getS (fA w)).toNat
     a % 64 = 0 → coreBase k ≤ a → a + y.msgBytes ≤ coreBase (k + 1) → ch.isFenced y.srcCore = false →
     let f := ch.fetched k
     let answer := fun (g : Chip) (v : W64) => (g.modCore k fun x => x.setS (fD w) v).retire k
     match y.queue with
     | m :: rest => m.bad = false → exec (if try_ then .trecv c k w else .recv c k w) s = .next (s.withChip c (answer
         ((f.modChan y.id fun z => { z with queue := z.queue.drop 1, returning := z.returning ++ [(z.gen, m.seq)] }).plainStore a m.payload)
         (outcomeWord cOK y.gen rest.length m.seq)))
     | [] => exec (if try_ then .trecv c k w else .recv c k w) s = .next (s.withChip c (
         if try_ then answer f (outcomeWord cBUSY y.gen 0 0)
         else f.modCore k fun x => { x with state := .waiting, wait := some (.recv (fD w) y.id a ch.time) }))) ∧
  (∀ (s : State) (c id : Nat) (ch : Chip) (y : Chan), s.chips[c]? = some ch → ch.chan id = some y →
     (∀ m rest errs, y.flight = m :: rest → exec (.messageArrival c id errs) s = .next (s.withChip c (
       let f := ch.modChan id fun z => { z with flight := rest }
       let got := corrupt (y.header m false ++ m.payload) errs
       let seq := leAt got 6 2
       if leAt got 4 2 ≠ y.gen then f.modChan id fun z => { z with stale := min (z.stale + 1) 0xFFFF }
       else if crc32c (got.drop 16) = leAt got 12 4 ∧ seq = y.rxSeq then
         (f.modChan id fun z => { z with rxSeq := (z.rxSeq + 1) % 2 ^ 16, queue := z.queue ++ [{ m with payload := got.drop 16 }] }).poke y.dstCore
       else (f.modChan id fun z => { z with rxSeq := (seq + 1) % 2 ^ 16, returning := z.returning ++ [(z.gen, seq)] }).ev
         0x0604 err y.dstCore y.part cECC 0 id))) ∧
     (∀ m rest, y.flight = m :: rest → m.gen = y.gen → y.gen < 2 ^ 16 → m.seq = y.rxSeq → y.rxSeq < 2 ^ 16 →
       exec (.messageArrival c id []) s = .next (s.withChip c (((ch.modChan id fun z => { z with flight := rest }).modChan id
         fun z => { z with rxSeq := (z.rxSeq + 1) % 2 ^ 16, queue := z.queue ++ [m] }).poke y.dstCore))) ∧
     ∀ g rest, y.returning = g :: rest → g.1 < 2 ^ 16 → exec (.creditReturn c id) s = .next (s.withChip c (
       let f := ch.modChan id fun z => { z with returning := rest }
       if g.1 = y.gen then (f.modChan id fun z => { z with credits := min (z.credits + 1) z.depth }).poke y.srcCore else f))) ∧
  (∀ (s : State) (c k : Nat) (ch : Chip) (rd a since : Nat), s.chips[c]? = some ch → (ch.core k).state = .waiting →
     let p := ch.partNo k
     let answer := fun (f : Chip) (v : W64) => (f.modCore k fun x => x.setS rd v).retire k
     (∀ id, since + ch.msgWaitNs p ≤ ch.time → ch.alive = true → (ch.part p).inSlot = false →
       ((ch.core k).wait = some (.send rd id a since) → exec (.sendTimeout c k) s =
         .next (s.withChip c (answer ch (outcomeWord cTIMEOUT (((ch.chan id).map Chan.gen).getD 0) 0 0)))) ∧
       ((ch.core k).wait = some (.recv rd id a since) → exec (.recvTimeout c k) s =
         .next (s.withChip c (answer ch (outcomeWord cTIMEOUT (((ch.chan id).map Chan.gen).getD 0) 0 0)))) ∧
       ((ch.core k).wait = some (.sync rd id a since) → exec (.syncWaitTimeout c k) s = .next (s.withChip c
         (answer (ch.unqueue k) (outcomeWord cTIMEOUT (((ch.sync id).map SyncObj.gen).getD 0) 0 0))))) ∧
     (since + ch.streamNs p ≤ ch.time → ch.alive = true → (ch.part p).inSlot = false →
       ((ch.core k).wait = some (.anyCompletion rd since) → exec (.cwaitTimeout c k) s =
         .next (s.withChip c (answer ch (BitVec.ofNat 64 (0xFF * 2 ^ 24 + cTIMEOUT * 2 ^ 16))))) ∧
       ∀ tag, (ch.core k).wait = some (.tagged rd tag since) → exec (.cwaitTimeout c k) s =
         .next (s.withChip c (answer ch (BitVec.ofNat 64 (0xFF * 2 ^ 24 + cTIMEOUT * 2 ^ 16 + tag))))))

/-- A sop on the synchronisation object numbered sA, of the core's partition, does what its function and the object's kind say: READ, POST,
WAIT, TRY, CLEAR and SET (expert); sD reports the outcome, the generation, the waiters and VALUE before it (R405, R420 to R422, R425, R451,
R1019). -/
def Obligations.SyncObjectResults : Prop :=
  ∀ (s : State) (c k : Nat) (w : W64) (ch : Chip) (o : SyncObj), s.chips[c]? = some ch → ch.ready k w 0xE4 mSop = true →
    let x := ch.core k
    let n := (x.getS (fA w)).toNat
    let b := (x.getS (fB w)).toNat
    n < 0x400 → ch.sync n = some o → (∀ z ∈ ch.syncs, z.obj = n → z = o) → o.part = ch.partNo k → x.posted = [] →
    let f := ch.fetched k
    let ret := fun (g : Chip) (v : W64) => exec (match fFN w with
        | 0 => .sopRead c k w | 1 => .sopPost c k w | 2 => .sopWait c k w | 3 => .sopTry c k w | 4 => .sopClear c k w | _ => .sopSet c k w) s =
      .next (s.withChip c ((g.modCore k fun y => y.setS (fD w) v).retire k))
    let set := fun (o' : SyncObj) => f.modSync n fun _ => o'
    let told := outcomeWord cOK o.gen o.waiters.length o.value
    let no := fun (code : Nat) => ret f (outcomeWord code o.gen 0 0)
    (fFN w = 0 → ret f told) ∧
    -- POST with no waiter: COUNTER adds, EVENT sets, MUTEX releases what core k holds, SEQUENCE adds modulo 2^32, BARRIER refuses
    (fFN w = 1 → o.waiters = [] →
      (o.kind = kCOUNTER → if o.value + b ≤ 0xFFFFFFFF then ret (set { o with value := o.value + b }) told else no cBOUNDS) ∧
      (o.kind = kEVENT → ret (set { o with value := 1 }) told) ∧
      (o.kind = kBARRIER → no cBOUNDS) ∧
      (o.kind = kMUTEX → if o.value = k + 1 then ret (set { o with value := 0, owner := none }) told else no cPERM) ∧
      (o.kind = kSEQUENCE → ret (set { o with value := (o.value + b) % 2 ^ 32 }) told)) ∧
    -- WAIT and TRY whose condition holds; TRY whose condition does not hold answers BUSY, WAIT joins the queue
    (fFN w = 2 ∨ fFN w = 3 → o.waiters = [] → o.kind ≠ kBARRIER → ch.heldByFenced o = false →
      (o.kind = kCOUNTER → b ≤ o.value → ret (set { o with value := o.value - b }) told) ∧
      (o.kind = kEVENT → o.value = 1 → ret (set { o with value := if b % 2 = 1 then 0 else 1 }) told) ∧
      (o.kind = kMUTEX → o.value = 0 → ret (set { o with value := k + 1, owner := some k }) told) ∧
      (o.kind = kSEQUENCE → o.value = b % 2 ^ 32 → ret (set o) told) ∧
      (o.holds b = false → if fFN w = 3 then no cBUSY
        else exec (.sopWait c k w) s = .next (s.withChip c ((set { o with waiters := [(k, b)] }).modCore k
          fun y => { y with state := .waiting, wait := some (.sync (fD w) n b ch.time) })))) ∧
    -- a barrier: TRY is refused, an arrival before the last waits, and the last one releases the others
    (fFN w = 3 → o.kind = kBARRIER → no cBOUNDS) ∧
    (fFN w = 2 → o.kind = kBARRIER → if o.limit ≤ o.value + 1 then ret (f.barrierDone n o) (outcomeWord cOK o.gen 0 o.value)
      else exec (.sopWait c k w) s = .next (s.withChip c
        ((set { o with value := o.value + 1, waiters := o.waiters ++ [(k, o.value)] }).modCore k
          fun y => { y with state := .waiting, wait := some (.sync (fD w) n b ch.time) }))) ∧
    (fFN w = 4 → if o.kind = kEVENT then ret (set { o with value := 0 }) told else no cBOUNDS) ∧
    (fFN w = 5 → o.waiters = [] → o.kind = kCOUNTER ∨ o.kind = kSEQUENCE →
      if (ch.part (ch.partNo k)).expert then ret (set { o with value := b % 2 ^ 32 }) told else no cPERM)

/-- Append regions: ABIND of a free region to 64-byte lines of the partition's DRAM starts a generation with nothing committed; AADV extends
what is committed and ATRUNC (expert) cuts it while no epoch holds a mark; AUNBIND frees the region; ATAIL marks the youngest open epoch
(R420, R443 to R449).
Epochs: eopen opens a closed epoch while none is DOOMED, ecommit of an OPEN one applies its marks and closes it with every older OPEN
one, eabort restores it and every younger one; of a DOOMED epoch both close it and answer SPEC_ABORT; sD reports the outcome, the
generation, the open epochs and the free shadow lines; IMM32 is 0 to 3 (R310, R405, R433, R436, R439, R440, R448). -/
def Obligations.AppendAndEpochResults : Prop :=
  (∀ (s : State) (c k : Nat) (w : W64) (ch : Chip), s.chips[c]? = some ch →
     let x := ch.core k
     let r := (x.getS (fA w)).toNat - 0x400
     let b := (x.getS (fB w)).toNat
     let g := ch.region r
     let f := ch.fetched k
     let mine := ch.ready k w 0xE4 mSop = true ∧ 0x400 ≤ (x.getS (fA w)).toNat ∧ r < 64 ∧ g.bound = true ∧ g.part = ch.partNo k
     let ret := fun (i : Sys2Proof.Instr) (code : Nat) (h : Chip) =>
       exec i s = .next (s.withChip c ((h.modCore k fun y => y.setS (fD w) (outcomeWord code (h.region r).gen 0 g.committed)).retire k))
     (ch.ready k w 0xE4 (mSop ||| mC) = true → 0x400 ≤ (x.getS (fA w)).toNat → r < 64 → g.bound = false →
       let size := (x.getS (fC w)).toNat
       let pl := (ch.part (ch.partNo k)).plate
       if b % 64 = 0 ∧ 0 < size ∧ pl.dramBase ≤ b ∧ b + 64 * size ≤ pl.dramBase + pl.dramSize then
         ret (.abind c k w) cOK (f.modRegion r fun z =>
           { bound := true, part := ch.partNo k, base := b, size := size, committed := 0, gen := (z.gen + 1) % 2 ^ 16 })
       else ret (.abind c k w) cBOUNDS f) ∧
     (mine → ret (.aadv c k w) (if ch.marksIn r ≠ 0 then cBUSY else if g.size < g.committed + b then cBOUNDS else cOK)
       (if ch.marksIn r ≠ 0 ∨ g.size < g.committed + b then f else f.modRegion r fun z => { z with committed := z.committed + b })) ∧
     (mine → (ch.part (ch.partNo k)).expert = true → ch.marksIn r = 0 → b ≤ g.committed →
       ret (.atrunc c k w) cOK (f.modRegion r fun z => { z with committed := b })) ∧
     (mine → (ch.part (ch.partNo k)).expert = false → ret (.atrunc c k w) cPERM f) ∧
     (mine → ch.marksIn r = 0 → ret (.aunbind c k w) cOK (f.modRegion r fun z => { gen := (z.gen + 1) % 2 ^ 16 })) ∧
     (mine → ∀ e y, x.youngest = some e → g.committed ≤ b → b ≤ g.size → x.setMark e r b = some y →
       ret (.atail c k w) cOK (f.modCore k fun _ => y)) ∧
     (mine → x.youngest = none → ret (.atail c k w) cBOUNDS f)) ∧
  (∀ (s : State) (c k : Nat) (w : W64) (ch : Chip), s.chips[c]? = some ch →
     let x := ch.core k
     let n := fIMM w
     let e := x.epoch n
     let f := ch.fetched k
     let ret := fun (i : Sys2Proof.Instr) (code : Nat) (h : Chip) =>
       exec i s = .next (s.withChip c ((h.modCore k fun y => y.setS (fD w)
         (outcomeWord code ((h.core k).epoch n).gen (h.core k).openMask (4096 - (h.core k).shadowUsed))).retire k))
     let closed := f.modCore k fun y => y.closeEpoch n
     (ch.ready k w 0xE8 (mD ||| mIMM) = true → n < 4 →
       if e.state = .openE then ret (.eopen c k w) cBUSY f
       else if x.anyDoomed then ret (.eopen c k w) cSPECABORT f
       else ret (.eopen c k w) cOK (f.modCore k fun y =>
         { y.modEpoch n (fun z => { z with state := .openE, lines := [], marks := [], bad := [] }) with epochOrder := y.epochOrder ++ [n] })) ∧
     (ch.ready k w 0xE9 (mD ||| mIMM) = true → n < 4 → match e.state with
       | .openE => ret (.ecommit c k w) cOK (f.commitEpochs k n)
       | .doomed => ret (.ecommit c k w) cSPECABORT closed
       | .closed => ret (.ecommit c k w) cBOUNDS f) ∧
     (ch.ready k w 0xEA (mD ||| mIMM) = true → n < 4 → match e.state with
       | .openE => ret (.eabort c k w) cOK (f.abortEpochs k n)
       | .doomed => ret (.eabort c k w) cSPECABORT closed
       | .closed => ret (.eabort c k w) cOK f) ∧
     ∀ i op, (i = .eopen c k w ∧ op = 0xE8) ∨ (i = .ecommit c k w ∧ op = 0xE9) ∨ (i = .eabort c k w ∧ op = 0xEA) →
       ch.ready k w op (mD ||| mIMM) = true → 4 ≤ n → exec i s = .next (s.withChip c (f.fault k fcILLEGAL cBOUNDS 0)))

/-! ## Cores: unit commands, system instructions, faults -/

/-- cmd with a UNIT value that exists sends the 64 bytes of vA, with the tag of sB in bytes 2 and 3, to a unit that the partition holds; the
command is outstanding from then on. cwait, cwtag and cpoll take the oldest completion (of the tag) into sD; with none outstanding they
answer UNIT 0xFF with OK; cwait and cwtag wait where one is outstanding (R338 to R345).
SFU instructions write every active 32-bit lane with the function of the partition that FN names: f(A), f(A + B) x C, A x f(B), each
step rounded to nearest even in FP32 (R310, R312, R336, R499). -/
def Obligations.UnitCommandAndSfuResults : Prop :=
  (∀ (s : State) (c k : Nat) (w : W64) (ch : Chip), s.chips[c]? = some ch →
     let x := ch.core k
     let f := ch.fetched k
     let ret := fun (i : Sys2Proof.Instr) (h : Chip) => exec i s = .next (s.withChip c (h.retire k))
     let none' : W64 := BitVec.ofNat 64 (0xFF * 2 ^ 24)
     let tag := (x.getS (fA w)).toNat % 2 ^ 16
     (ch.ready k w 0xD0 (mA ||| mB ||| mUNIT) = true → unitListed (fUNIT w) = true → x.outst.length < 32 →
       ch.unitAbsent (fUNIT w) = false → ch.unitHeld (ch.partNo k) (fUNIT w) = true →
       let raw := leBytes 64 (x.getV (fA w)).toNat
       let t := (x.getS (fB w)).toNat % 2 ^ 16
       opListed (fUNIT w) (raw.getD 0 0) = true →
       let u : UnitCmd := {
         id := ch.nextReq, unit := fUNIT w, core := k, tag := t, quiet := bitOf (raw.getD 1 0) 0
         bytes := (raw.set 2 (t % 256)).set 3 (t / 256), acw := x.acw.toNat, after := x.posted.map Posted.id, time := ch.time }
       ret (.cmd c k w) { Chip.stopRunahead { f.modCore k (fun y => { y with outst := y.outst ++ [(fUNIT w, t)] }) with
           nextReq := ch.nextReq + 1 } (fUNIT w) with arriving := u.arrive ch.arriving } ∧
         ((∀ v ∈ ch.arriving, v.time ≠ ch.time ∨ v.core ≤ k) → u.arrive ch.arriving = ch.arriving ++ [u])) ∧
     (ch.ready k w 0xD1 mD = true → (∀ q y, x.pop (fun _ => true) = some (q, y) →
       ret (.cwait c k w) (f.modCore k fun _ => y.setS (fD w) q.word)) ∧
       (x.cq = [] → if x.outst = [] then ret (.cwait c k w) (f.modCore k fun y => y.setS (fD w) none')
         else exec (.cwait c k w) s = .next (s.withChip c (f.modCore k fun y =>
           { y with state := .waiting, wait := some (.anyCompletion (fD w) ch.time) })))) ∧
     (ch.ready k w 0xD2 (mD ||| mA) = true → (∀ q y, x.pop (fun q => q.tag == tag) = some (q, y) →
       ret (.cwtag c k w) (f.modCore k fun _ => y.setS (fD w) q.word)) ∧
       (x.cq = [] → if x.outst.any fun o => o.2 == tag then exec (.cwtag c k w) s = .next (s.withChip c (f.modCore k fun y =>
           { y with state := .waiting, wait := some (.tagged (fD w) tag ch.time) }))
         else ret (.cwtag c k w) (f.modCore k fun y => y.setS (fD w) none'))) ∧
     (ch.ready k w 0xD3 mD = true → (∀ q y, x.pop (fun _ => true) = some (q, y) →
       ret (.cpoll c k w) (f.modCore k fun _ => y.setS (fD w) q.word)) ∧
       (x.cq = [] → ret (.cpoll c k w) (f.modCore k fun y => y.setS (fD w) none')))) ∧
  (let row := fun (i : Nat → Nat → W64 → Sys2Proof.Instr) op used (g : (Nat → Nat) → Nat → Nat → Nat → Nat) =>
     ∀ (s : State) (c k : Nat) (w : W64) (ch : Chip), s.chips[c]? = some ch →
       ch.ready k w op (used ||| mD ||| mA ||| mP ||| mRM ||| mFMT ||| mFN) = true →
       let x := ch.core k
       let prog := bitOf (fFN w) 7
       let good := fFMT w = fFP32 ∧ fRM w = 0 ∧ (if prog then fFN w < 0xC0 else fFN w < 16)
       (good → ∀ h, ((ch.part (ch.partNo k)).tables).function prog (if prog then fFN w % 64 else fFN w) = some h →
         ∃ v, exec (i c k w) s = .next (s.withChip c (((ch.fetched k).modCore k fun y => y.setV (fD w) v).retire k)) ∧
           LanesAre 32 (fun j => (x.getP (fP w)).getLsbD j)
             (fun j => g h (lane (x.getV (fA w)) 32 j) (lane (x.getV (fB w)) 32 j) (lane (x.getV (fC w)) 32 j)) (x.getV (fD w)) v) ∧
       (good → ((ch.part (ch.partNo k)).tables).function prog (if prog then fFN w % 64 else fFN w) = none →
         exec (i c k w) s = .next (s.withChip c ((ch.fetched k).fault k fcOPERAND cBOUNDS 0))) ∧
       (¬ good → exec (i c k w) s = .next (s.withChip c ((ch.fetched k).fault k fcILLEGAL cBOUNDS 0)))
   row .sfu 0xC0 0 (fun f a _ _ => f a) ∧
   row .sfuba 0xC1 (mB ||| mC) (fun f a b c => mul32 (f (add32 a b)) c) ∧
   row .sfug 0xC2 mB (fun f a b _ => mul32 a (f b)))

/-- System instructions: tend aborts the open epochs and parks the core; fence completes once what it names has been performed; crd reads and
cwr writes the control registers, the flags in flight merging into ACW after its write (R404; log entry 50, DEDUCED); wdk restarts the core watchdog; nop only retires (R289, R350 to R353, R379, R1020).
trap takes a TRAP fault with its code in FAULT_ADDR; bkpt takes a BREAK fault, or halts the core for the debugger where EN is 1; a word
that is no instruction takes ILLEGAL_INSTR; a bad PC takes a FETCH fault with ALIGN, BOUNDS or ECC_UNCORR; an armed breakpoint halts; a core
watchdog at 0 takes a WATCHDOG fault (R308, R310, R368, R373, R376, R380, R387).
A core fault records its cause, code, PC and address, makes the core FAULTED, and marks it for recovery, and a second one only sets MULTI; the
error response to a store that this chip refused is such a fault, imprecise, with the PC and address of the store (R371, R373, R375, R395,
R401). -/
def Obligations.SystemAndFaultResults : Prop :=
  ((∀ (s : State) (c k : Nat) (w : W64) (ch : Chip), s.chips[c]? = some ch → ch.ready k w 0xF0 0 = true → (ch.core k).posted = [] →
     (ch.core k).dbg.stepping = false → ∃ ch', exec (.tend c k w) s = .next (s.withChip c ch') ∧
       (ch'.core k).state = .parked ∧ (ch'.core k).ended = true ∧ (ch'.core k).pc = ((ch.core k).pc + 8) % 2 ^ 18 ∧
       (ch'.core k).epochOrder = [] ∧ (ch'.core k).s = (ch.core k).s ∧ (ch'.core k).retired = ((ch.core k).retired + 1) % 2 ^ 64) ∧
   Executes .fence 0xF1 mIMM (fun k w ch x =>
     if 8 ≤ fIMM w then ch.fault k fcILLEGAL cBOUNDS 0
     else if (bitOf (fIMM w) 0 = true ∧ x.posted ≠ []) ∨ (bitOf (fIMM w) 2 = true ∧ x.cq.length < x.outst.length) then
       ch.settleRes k .block
     else ch.retire k) ∧
   Executes .crd 0xF2 (mD ||| mIMM) (fun k w ch x =>
     let p := ch.partNo k
     let give := fun (n : Nat) => (ch.modCore k fun y => y.setS (fD w) (BitVec.ofNat 64 n)).retire k
     match fIMM w with
     | 0x000 => (ch.modCore k fun y => { y.setS (fD w) (BitVec.ofNat 64 x.acw.toNat) with late := 0 }).retire k
     | 0x001 => give (p % 8 * 2 ^ 16 + podOf k * 2 ^ 8 + k)
     | 0x002 => give (ch.part p).tickIndex
     | 0x003 => give ch.time
     | 0x004 => give x.tcycles
     | 0x005 => give x.tretired
     | 0x006 => give (ch.status p)
     | 0x007 => give (min 63 x.outst.length * 2 ^ 8 + min 63 x.cq.length)
     | 0x008 => give x.wdgLeft
     | 0x010 => give x.ldpri
     | _ => ch.fault k fcOPERAND cBOUNDS 0) ∧
   Executes .cwr 0xF3 (mA ||| mIMM) (fun k w ch x =>
     let v := x.getS (fA w)
     match fIMM w with
     | 0x000 => if v.toNat % 8 = 0 ∨ v.toNat % 8 = 7 then ch.fault k fcOPERAND cBOUNDS 0
       else (ch.modCore k fun y =>
         { y with acw := acwOr (BitVec.ofNat 32 ((bitsOf y.acw.toNat 8 5 &&& (31 - bitsOf v.toNat 8 5)) * 256 + v.toNat % 32)) y.late
                  late := 0 }).retire k
     | 0x010 => if (ch.part (ch.partNo k)).expert then (ch.modCore k fun y => { y with ldpri := v.toNat % 2 }).retire k
       else ch.fault k fcEXPERT cPERM 0
     | _ => ch.fault k fcOPERAND cBOUNDS 0) ∧
   Computes .wdk 0xF4 0 (fun _ x => { x with wdgLeft := x.wdgPeriod }) ∧
   Executes .nop 0xF7 0 (fun k _ ch _ => ch.retire k)) ∧
  (Executes .trap 0xF5 mIMM (fun k w ch _ => ch.fault k fcTRAP cOK (fIMM w % 2 ^ 16)) ∧
   Executes .bkpt 0xF6 0 (fun k _ ch x =>
     if x.dbg.en = false then ch.fault k fcBREAK cOK 0
     else if ((ch.retire k).core k).state = .running then (ch.retire k).haltCore k 6 0 else ch.retire k) ∧
   (∀ (s : State) (c k : Nat) (w : W64) (ch : Chip) (op : Nat), s.chips[c]? = some ch → ch.ready k w op (2 ^ 56 - 1) = true →
     illegalWord w = true → exec (.illegalInstrWord c k w) s = .next (s.withChip c ((ch.fetched k).fault k fcILLEGAL cBOUNDS 0))) ∧
   (∀ (s : State) (c k : Nat) (ch : Chip), s.chips[c]? = some ch → ch.canIssue k = true → (ch.core k).dbg.request = false →
     let x := ch.core k
     (x.breakAt = none →
       (x.pc % 8 ≠ 0 → exec (.fetchFault c k) s = .next (s.withChip c (ch.fetchFault k cALIGN))) ∧
       (x.pc % 8 = 0 → 8 * x.image.length ≤ x.pc → exec (.fetchFault c k) s = .next (s.withChip c (ch.fetchFault k cBOUNDS))) ∧
       (x.pc % 8 = 0 → x.pc < 8 * x.image.length → x.badCode.contains (lineOf x.pc) = true →
         exec (.fetchFault c k) s = .next (s.withChip c (ch.fetchFault k cECC)))) ∧
     ∀ i, x.breakAt = some i → exec (.breakpointHit c k) s = .next (s.withChip c (ch.haltCore k 4 i))) ∧
   (∀ (s : State) (c k : Nat) (ch : Chip), s.chips[c]? = some ch → ch.alive = true → (ch.core k).active = true →
     (ch.core k).wdgPeriod ≠ 0 → (ch.core k).wdgLeft = 0 → (ch.core k).wait = none →
     exec (.coreWatchdogExpiry c k) s = .next (s.withChip c (ch.fault k fcWATCHDOG cTIMEOUT 0)))) ∧
  ((∀ (ch : Chip) (k cause code addr : Nat) (imp : Bool) (pc : Option Nat), k < ch.cores.length → ch.wdg.steward = .running →
      let f := ch.fault k cause code addr imp pc
      if (ch.core k).state = .faulted then
        (f.core k).fault = { (ch.core k).fault with multi := true } ∧ (f.core k).state = .faulted
      else (f.core k).state = .faulted ∧ (f.core k).recover = true ∧ (f.core k).inRec = true ∧
        (f.core k).fault =
          { valid := true, imprecise := imp, multi := false, code := code, cause := cause, pc := pc.getD (ch.core k).pc, addr := addr } ∧
        (f.core k).s = (ch.core k).s ∧ (f.core k).v = (ch.core k).v ∧ (f.core k).p = (ch.core k).p ∧ f.mem = ch.mem) ∧
   (∀ (s : State) (c id k : Nat) (ch : Chip) (r : Remote) (q : Posted), s.chips[c]? = some ch → ch.alive = true →
      ch.remote id = some r → r.link = ownChip → r.kind = .store k → r.code ≠ cOK → k < ch.cores.length →
      (ch.core k).active = true → (ch.core k).posted.find? (fun y => y.id == id) = some q → ch.wdg.steward = .running →
      ∃ ch', exec (.postedStoreError c id) s = .next (s.withChip c ch') ∧ (ch'.core k).state = .faulted ∧
        (ch'.core k).fault = { valid := true, imprecise := true, multi := false, code := r.code, cause := fcACCESS, pc := q.pc, addr := r.addr } ∧
        (∀ y ∈ (ch'.core k).posted, y.id ≠ id) ∧ (∀ y ∈ ch'.remotes, y.id ≠ id) ∧ (ch'.core k).s = (ch.core k).s ∧ ch'.mem = ch.mem))


/-! ## Matrix arrays, special functions, row engines -/

/-- The array of a pod takes MMA, DRAIN and LOAD_ACC into its queue while fewer than 64 are held, and a core's row engine takes SOFTMAX,
ROWSTAT and NORM into its own; one that fails a check of its chapter completes at once with that code, one of a fenced unit with FENCED
(R347, R462, R469, R510, R774).
An engine of an array begins the oldest of its commands once none of them runs and no command accepted earlier names its banks: an MMA
that clears takes its bank to the type of its pair with every accumulator 0; one that continues needs a bank of that type, a DRAIN a bank
that is not EMPTY and, gated, two banks of one state, or they complete with BOUNDS (R251, R463, R464, R466, R467, R477). -/
def Obligations.ArrayCommandsRun : Prop :=
  (∀ c : Nat,
   (∀ p : Nat,
     let room := fun (ch : Chip) => decide ((ch.pod p).arrq.length < 64)
     let hold := fun (ch : Chip) (u : UnitCmd) => ch.modPod p fun x => { x with arrq := x.arrq ++ [(u, false)] }
     let expert := fun (ch : Chip) (u : UnitCmd) => (ch.part (ch.partNo u.core)).expert
     Takes (.mma c p) c 1 (forArray p) room (fun ch u => mmaCheck u (expert ch u)) hold ∧
     Takes (.drain c p) c 2 (forArray p) room (fun ch u => drainCheck (ch.tablesOf u.core) u) hold ∧
     Takes (.loadAcc c p) c 3 (forArray p) room (fun ch u => loadAccCheck u (expert ch u)) hold) ∧
   ∀ k : Nat,
     let hold := fun (ch : Chip) (u : UnitCmd) => ch.modCore k fun x => { x with rowq := x.rowq ++ [u] }
     Takes (.softmax c k) c 1 (forSfu k) (fun _ => true) Chip.rowCheck hold ∧
     Takes (.rowstat c k) c 2 (forSfu k) (fun _ => true) Chip.rowCheck hold ∧
     Takes (.norm c k) c 3 (forSfu k) (fun _ => true) Chip.rowCheck hold) ∧
  (∀ (s : State) (c p : Nat) (mac : Bool) (ch : Chip) (u : UnitCmd), s.chips[c]? = some ch → ch.unitsGo (ch.podPart p) = true →
     (ch.pod p).nextCmd mac = some u →
     let n := bitsOf (u.byte 4) 0 1
     let b := (ch.pod p).bank n
     let type := pairBank (bitsOf (u.byte 5) 0 4) (bitsOf (u.byte 6) 0 4 != 0 || bitsOf (u.byte 7) 0 4 != 0)
     let begins := fun (b' : Bank) => exec (.arrayCmdBegin c p mac) s = .next (s.withChip c (ch.modPod p fun x =>
       { x.setBank n b' with arrq := x.arrq.map fun q => if q.1.id == u.id then (u, true) else q }))
     let refused := exec (.arrayCmdBegin c p mac) s = .next (s.withChip c
       ((ch.modPod p fun x => { x with arrq := x.arrq.filter fun q => q.1.id != u.id }).refuse u cBOUNDS))
     (∀ e ∈ (ch.pod p).arrq, e.1.onMac = mac → e.2 = false) ∧
     (u.op = 1 → (bitOf (u.byte 4) 1 = false → begins { state := type, status := b.status }) ∧
       (bitOf (u.byte 4) 1 = true → if b.state = type then begins b else refused)) ∧
     (u.op = 2 → if b.state = .empty ∨ (bitOf (u.byte 4) 1 = true ∧ (ch.pod p).bank0.state ≠ (ch.pod p).bank1.state) then refused
       else begins b) ∧
     (u.op = 3 → begins b))

/-- A command of a core that a unit refuses changes no memory, no bank, no status, no session and no tree store (R462, R510, R592, R646). -/
def Obligations.RefusedCommandsChangeNothing : Prop :=
  ∀ (ch : Chip) (u : UnitCmd) (code addr : Nat) (isRead : Bool), u.chain = 0 →
    let f := ch.refuse u code addr isRead
    f.mem = ch.mem ∧ f.badLines = ch.badLines ∧ f.pods = ch.pods ∧ f.cus = ch.cus ∧ f.tes = ch.tes ∧
    ∀ k, (f.core k).rowStatus = (ch.core k).rowStatus ∧ (f.core k).rowq = (ch.core k).rowq

/-- An array command that completes: an MMA folds its addends into each accumulator of its extent in ascending k and leaves every other one
as it was; a DRAIN writes each element of its extent and no other byte, and keeps its banks; a LOAD_ACC fills its extent from the pod store
and clears the rest. A DRAIN to INT32 of an INT32 bank with every step disabled writes each accumulator as it stands (R275, R458, R473, R475,
R478, R480 to R482). -/
def Obligations.ArrayResults : Prop :=
  (∀ (s : State) (c p : Nat) (mac : Bool) (ch : Chip) (u : UnitCmd), s.chips[c]? = some ch → ch.unitsGo (ch.podPart p) = true →
     ((ch.pod p).arrq.find? fun q => q.2 && q.1.onMac == mac) = some (u, true) →
     let n := bitsOf (u.byte 4) 0 1
     let old := (ch.pod p).bank n
     let base := podBase p
     let rd := fun off => (Memory.get ch.mem (base + off)).toNat
     let inside := fun (q : Nat) => q / 512 < u.le 8 2 ∧ q % 512 < u.le 10 2
     let ends := fun (f : Pod → Pod) (value : Nat) => exec (.arrayCmdComplete c p mac) s = .next (s.withChip c
       ((ch.modPod p fun x => f { x with arrq := x.arrq.filter fun q => q.1.id != u.id }).complete u cOK value))
     u.le 10 2 ≤ 512 →
     (u.op = 1 → Sparse.wf old.acc = true → (∀ r ∈ mmaReads u, ch.bad (base + r.1) r.2 = false) →
       ∃ b : Bank, ends (fun x => { x.setBank n b with mmaCount := (x.mmaCount + 1) % 2 ^ 64 }) b.status ∧
         b.state = old.state ∧ Sparse.wf b.acc = true ∧ ∀ q, Sparse.get b.acc q =
           if inside q then (mmaAcc old.state (Sparse.get old.acc q) (mmaAddends (opA u) (opB u) rd (u.le 12 4) (q / 512) (q % 512))).1
           else Sparse.get old.acc q) ∧
     (u.op = 2 → Memory.wf ch.mem = true → 8 ≤ fmtWidth (bitsOf (u.byte 5) 0 4) → elemBytes (bitsOf (u.byte 5) 0 4) (u.le 10 2) ≤ u.le 20 4 →
       let e := fmtWidth (bitsOf (u.byte 5) 0 4) / 8
       let dst := fun (i j : Nat) => base + u.le 16 4 + i * u.le 20 4 + j * e
       (∀ o ∈ drainVectors u, ch.bad (base + u.le o 4) (4 * drainChannels u) = false) →
       (∀ i, i < u.le 8 2 → ch.badWrite (dst i 0) (e * u.le 10 2) = false) →
       ∃ ch', exec (.arrayCmdComplete c p mac) s = .next (s.withChip c ch') ∧
         (ch'.pod p).bank0 = (ch.pod p).bank0 ∧ (ch'.pod p).bank1 = (ch.pod p).bank1 ∧ Memory.wf ch'.mem = true ∧
         (∀ i j, i < u.le 8 2 → j < u.le 10 2 → Memory.bytes ch'.mem (dst i j) e =
           leBytes e (drainElem (ch.tablesOf u.core) u old ((ch.pod p).bank (1 - n))
             (fun off x => ch.read (base + u.le off 4 + 4 * x) 4) (i, j)).bits) ∧
         ∀ a, (∀ i, i < u.le 8 2 → a < dst i 0 ∨ dst i 0 + e * u.le 10 2 ≤ a) → Memory.get ch'.mem a = Memory.get ch.mem a) ∧
     (u.op = 3 → (∀ i, i < u.le 8 2 → ch.bad (base + (u.le 16 4 + i * u.le 20 4)) (4 * u.le 10 2) = false) →
       ∃ b : Bank, ends (fun x => x.setBank n b) 0 ∧ b.status = 0 ∧ b.state = (if u.byte 5 = fFP32 then BankState.fp32 else .int32) ∧
         ∀ q, Sparse.get b.acc q = if inside q then leNat ((List.range 4).map fun j => rd (u.le 16 4 + q / 512 * u.le 20 4 + 4 * (q % 512) + j))
           else 0)) ∧
  (∀ (t : PartTables) (u : UnitCmd) (b other : Bank) (vec : Nat → Nat → Nat) (i j : Nat),
     bitsOf (u.byte 5) 0 4 = fINT32 → b.state = .int32 → u.byte 12 = 0 → bitOf (u.byte 4) 1 = false → bitOf (u.byte 7) 7 = false →
     drainElem t u b other vec (i, j) = ⟨Sparse.get b.acc (i * 512 + j), false, false, false⟩)

/-- The oldest row command of a core completes when its last line has tokens: its rows are run in ascending order up to the first code that
is not OK, and the status word, 0 in SILENT mode, is its VALUE and the core's ROW_STATUS; until then it waits as ChainAndCarouselResults says. In a row of a soft
maximum that is not ordinary a live NaN makes every output the canonical NaN, live elements at +infinity share 1 equally, and a row with no
live finite element is 0 (R511, R519, R522 to R524).
The values of the built-in functions that the rules state: at NaN, the infinities, zeros, negative and extreme arguments, and the exact
values at 0, 1 and the powers of 2 (R491 to R496). -/
def Obligations.RowAndFunctionResults : Prop :=
  ((∀ (s : State) (c k : Nat) (far : FarAns) (ch : Chip) (u : UnitCmd) (rest : List UnitCmd), s.chips[c]? = some ch →
      (ch.core k).rowq = u :: rest → ch.unitsGo (ch.partNo k) = true →
      let x := RowCmd.of u
      let p := ch.partNo k
      let paid := (ch.core k).rowPaid
      let r := Chip.rowsRun u p far x x.rows 0 ch 0
      let word := if reports u x.report then r.2.1 else 0
      exec (.rowCmdComplete c k far) s = .next (s.withChip c (ch.paced p paid (fun l a => a.modCore k fun y => { y with rowPaid := l })
        ((r.1.modCore k fun y => { y with rowq := rest, rowPaid := [], rowStatus := word }).complete u r.2.2 word))) ∧
      (ch.affords p paid r.1 = true → k < ch.cores.length → ∃ ch', exec (.rowCmdComplete c k far) s = .next (s.withChip c ch') ∧
        (ch'.core k).rowq = rest ∧ (ch'.core k).rowStatus = word ∧ ch'.mem = r.1.mem)) ∧
   (∀ (x : RowCmd) (l : List Nat) (mask : Nat → Bool),
      let live := fun (j : Nat) => !(x.mask && mask j) && l.getD j 0 != ninf32
      let isLive := fun (v : Nat → Bool) => ∃ j, j < l.length ∧ live j = true ∧ v (l.getD j 0) = true
      let r := rowSoftmax x l mask
      (isLive isNan32 → r = (rowPack x.ofmt (List.replicate l.length (canonNan x.ofmt)), { nan := true })) ∧
      (¬ isLive isNan32 → isLive (· == inf32) →
        let n := ((List.range l.length).filter fun j => live j && l.getD j 0 == inf32).length
        r = (rowPack x.ofmt ((List.range l.length).map fun j =>
          if live j && l.getD j 0 == inf32 then (toFmt x.ofmt rmRNE false (divFl (flInt 1) (flInt n)).1).1 else 0), { inf := true })) ∧
      ((∀ j, j < l.length → live j = false) → r = (rowPack x.ofmt (List.replicate l.length 0), { masked := true })))) ∧
  ((∀ id x, isNan32 x = true → x < 2 ^ 32 → sfuBuiltin id x = nan32) ∧
   sfuRcp 0 = inf32 ∧ sfuRcp 0x80000000 = ninf32 ∧ sfuRcp inf32 = 0 ∧ sfuRcp ninf32 = 0x80000000 ∧
   sfuRsq 0 = inf32 ∧ sfuRsq 0x80000000 = ninf32 ∧ sfuRsq inf32 = 0 ∧ sfuLog 0 = ninf32 ∧ sfuLog 0x80000000 = ninf32 ∧ sfuLog inf32 = inf32 ∧
   (∀ x, x < 2 ^ 32 → isNan32 x = false → 0x80000000 < x → sfuRsq x = nan32 ∧ sfuLog x = nan32) ∧
   (∀ x, x < 2 ^ 32 → isNan32 x = false → lt32 x 0x42B20000 = false → sfuExp x = inf32) ∧
   (∀ x, x < 2 ^ 32 → isNan32 x = false → lt32 0xC2D00000 x = false → sfuExp x = 0) ∧
   sfuExp 0 = one32 ∧ sfuExp 0x80000000 = one32 ∧ sfuLog one32 = 0 ∧
   (∀ e, 1 ≤ e → e ≤ 253 → sfuRcp (e * 2 ^ 23) = (254 - e) * 2 ^ 23 ∧ sfuRcp (2 ^ 31 + e * 2 ^ 23) = 2 ^ 31 + (254 - e) * 2 ^ 23) ∧
   (∀ e, 1 ≤ e → e ≤ 127 → sfuRsq ((2 * e - 1) * 2 ^ 23) = (127 + 64 - e) * 2 ^ 23))

/-- A row of at most 4,096 elements has the same soft maximum in ONLINE and TWO_PASS mode (R496, R520, R521). -/
def Obligations.SoftmaxModesAgree : Prop :=
  ∀ (x : RowCmd) (l : List Nat) (mask : Nat → Bool), l.length = x.n → x.n ≤ 4096 → (∀ v ∈ l, v < 2 ^ 32) →
    rowSoftmax { x with mode := 2 } l mask = rowSoftmax { x with mode := 1 } l mask


/-! ## Stream engines and the carousel -/

/-- The stream engine of a pod takes its commands: CLAIM gives a free context to the core, ATTACH binds a ring, TAIL moves the tail and queues
the new descriptors, RUN, ARM, SWAP and CHAIN join the context's work; a command that names a context the core does not hold, of another
generation, or in ERROR is refused with the code of its rule. RELEASE and CANCEL stop their context: nothing of it is queued or begun; after
RELEASE it is FREE with its generation up by one modulo 2^16, after CANCEL it is IDLE without a persistent descriptor (R428, R530 to R533,
R535, R545 to R547, R554, R557, R570).
A descriptor of a stream begins with the bytes its source holds, or with the code of its first failing check and no bytes; it performs its
writes once its last line has tokens and ends with the first code that failed, which leaves its context in ERROR; one that has lasted stream_desc_us ends with TIMEOUT; a
ring fetch reads the aligned group of eight slots of the first pending descriptor not fetched (R540 to R545, R548, R551, R552). -/
def Obligations.StreamResults : Prop :=
  ((∀ c p : Nat,
      let yes := fun (_ : Chip) => true
      let sel := forSe p
      let reserved := fun (u : UnitCmd) => u.flagsOk && u.byte 5 == 0
      let part := fun (ch : Chip) (u : UnitCmd) => ch.partNo u.core
      let queue := fun (it : UnitCmd → SeItem) (ch : Chip) (u : UnitCmd) => ch.modCtx p u.ctxNo fun x => x.push ch.time [it u]
      Takes (.seClaim c p) c 1 sel yes
        (fun ch u => firstCode [chk cBOUNDS (u.flagsOk && u.ctxOk && u.zero 8 63 && u.byte 5 == 0), chk cBUSY ((ch.ctx p u.ctxNo).state == .free)])
        (fun ch u => (ch.modCtx p u.ctxNo fun x => { x with state := .idle, owner := u.core }).complete u cOK (ch.ctx p u.ctxNo).gen) ∧
      Takes (.seRun c p) c 3 sel yes
        (fun ch u => firstCode [chk cBOUNDS (u.byte 5 < 2 && u.zero 16 63 && u.flagsOk), ch.ctxCheck p u false, chk cALIGN (u.le 8 8 % 64 == 0),
          ch.usable (part ch u) (u.le 8 8) 64])
        (queue fun u => .run u (u.byte 5 == 1)) ∧
      Takes (.seAttach c p) c 4 sel yes
        (fun ch u => firstCode [chk cBOUNDS (reserved u && u.byte 20 < 6 && u.zero 21 63 && u.le 16 4 % 8 == 0 && 8 ≤ u.le 16 4 && u.le 16 4 ≤ 65536),
          ch.ctxCheck p u false, chk cBUSY ((ch.ctx p u.ctxNo).state == .idle),
          chk cPERM (u.byte 20 == 0 || (ch.part (part ch u)).expert), chk cALIGN (u.le 8 8 % 512 == 0),
          ch.usable (part ch u) (u.le 8 8) (64 * u.le 16 4)])
        (fun ch u => (ch.modCtx p u.ctxNo fun x => { x with
          ringBase := u.le 8 8, ringN := u.le 16 4, head := 0, tail := 0, depth := runaheadDepth (u.byte 20), fetched := [] }).complete u cOK 0) ∧
      Takes (.seTail c p) c 5 sel yes
        (fun ch u =>
          let x := ch.ctx p u.ctxNo
          let ahead := fun (n : Nat) => (n + 2 ^ 32 - x.head) % 2 ^ 32
          firstCode [chk cBOUNDS (reserved u && u.zero 12 63), ch.ctxCheck p u false,
            chk cBOUNDS (ahead (u.le 8 4) ≤ x.ringN && ahead x.tail ≤ ahead (u.le 8 4))])
        (fun ch u =>
          let x := ch.ctx p u.ctxNo
          (ch.modCtx p u.ctxNo fun y => ({ y with tail := u.le 8 4 } : SeCtx).push ch.time
            ((List.range ((u.le 8 4 + 2 ^ 32 - x.tail) % 2 ^ 32)).map fun i => SeItem.ring u ((x.tail + i) % 2 ^ 32))).complete u cOK 0) ∧
      Takes (.seArm c p) c 6 sel yes
        (fun ch u => firstCode [chk cBOUNDS (reserved u && u.zero 24 63 && u.le 8 8 < 2 ^ 40 && u.le 16 8 < 2 ^ 40), ch.ctxCheck p u false,
          chk cBUSY ((ch.ctx p u.ctxNo).state == .persist)])
        (queue fun u => .arm u (u.le 8 8) (u.le 16 8)) ∧
      Takes (.swap c p) c 8 sel yes
        (fun ch u =>
          let len := u.le 16 4
          let size := (ch.slice (part ch u) p).2
          firstCode [chk cBOUNDS (u.flagsOk && u.byte 5 < 4 && u.zero 28 63 && len % 4096 == 0 && 4096 ≤ len && len ≤ 0x400000),
            ch.ctxCheck p u false, chk cBOUNDS (u.le 8 4 + len ≤ podStoreEnd && u.le 12 4 + len ≤ podStoreEnd),
            chk cBOUNDS ((ch.part (part ch u)).plate.spill != 0 && u.le 20 4 + len ≤ size && u.le 24 4 + len ≤ size)])
        (queue .swap) ∧
      Takes (.chain c p) c 0x10 sel yes (fun ch u => ch.chainCheck p u)
        (fun ch u => ch.modCtx p u.ctxNo fun x => x.push ch.time [.chain (ch.chainOf p u)])) ∧
   (∀ (s : State) (c p n op : Nat) (far : FarAns) (ch : Chip) (u : UnitCmd), s.chips[c]? = some ch → ch.arriving.find? (forSe p) = some u →
      u.op = op → ch.storesDone u = true → ch.unitFenced u = false → u.chain = 0 → u.byte 5 = 0 → u.zero 8 63 = true →
      let x := u.ctxNo
      ch.ctxCheck p u true = cOK →
      let old := ch.ctx p x
      (op = 2 → ∃ ch', exec (.seRelease c p n far) s = .next (s.withChip c ch') ∧
        ch'.ctx p x = { ({} : SeCtx) with gen := (old.gen + 1) % 0x10000 }) ∧
      (op = 7 → ∃ ch', exec (.seCancel c p n far) s = .next (s.withChip c ch') ∧ (ch'.ctx p x).state = .idle ∧ (ch'.ctx p x).q = [] ∧
        (ch'.ctx p x).begun = [] ∧ (ch'.ctx p x).persist = none ∧ (ch'.ctx p x).gen = old.gen ∧ (ch'.ctx p x).owner = old.owner))) ∧
  ((∀ (s : State) (c p x : Nat) (far : FarAns) (ch : Chip) (it : SeItem), s.chips[c]? = some ch → ch.unitsGo (ch.podPart p) = true →
      (ch.ctx p x).next = some it →
      let y := ch.ctx p x
      let part := (ch.partOfPod p).getD 0xFF
      let got := ch.itemDesc p part far y it
      let desc := got.2.2.1
      let b := got.1.beginWork p far it got.2.1 desc got.2.2.2
      let w := b.2
      (y.begun = [] ∨ y.begun.length ≤ y.depth) ∧ y.state ≠ .error ∧ y.state ≠ .free ∧
      ((∀ u, it ≠ .swap u) → ch.affords part y.paid b.1 = true → ∃ ch', exec (.seDescriptorBegin c p x far) s = .next (s.withChip c ch') ∧
        (ch'.ctx p x).begun = y.begun ++ [w] ∧ (ch'.ctx p x).q = y.q.drop 1 ∧ w.item = it ∧ w.desc = desc ∧
        let code := if got.2.1 ≠ cOK then got.2.1 else got.1.descCode p part (Desc.of desc)
        if code ≠ cOK then w.code = code ∧ w.data = []
        else w.code = (got.1.descSource p part far (Desc.of desc)).2.1 ∧ w.data = (got.1.descSource p part far (Desc.of desc)).2.2.1) ∧
      (∀ u, it = .swap u → ∃ ch', exec (.seDescriptorBegin c p x far) s = .next (s.withChip c ch') ∧
        (ch'.ctx p x).begun = y.begun ++ [{ item := it }] ∧ (ch'.ctx p x).q = y.q.drop 1)) ∧
   (∀ (s : State) (c p x n : Nat) (far : FarAns) (ch : Chip) (u : UnitCmd) (persist : Bool) (w : SeWork) (rest : List SeWork),
      s.chips[c]? = some ch → ch.unitsGo (ch.podPart p) = true → (ch.ctx p x).begun = w :: rest → w.item = .run u persist →
      let y := ch.ctx p x
      let part := (ch.partOfPod p).getD 0xFF
      let ended := fun (i : Sys2Proof.Instr) (a : Chip) (code : Nat) => ∃ ch', exec i s = .next (s.withChip c ch') ∧ ch'.mem = a.mem ∧
        (if code = cOK then (ch'.ctx p x).begun = rest ∧ (ch'.ctx p x).q = y.q ∧ ((ch'.ctx p x).persist = if persist then some (u, w.desc) else y.persist)
          else (ch'.ctx p x).state = .error ∧ (ch'.ctx p x).code = code ∧ (ch'.ctx p x).begun = [] ∧
            (ch'.ctx p x).q = rest.map SeWork.item ++ y.q)
      (let r := ch.descWrite p part far w.desc w.data
       ch.affords part y.paid r.1 = true → ended (.seDescriptorComplete c p x far) r.1 (if r.2.1 ≠ cOK then r.2.1 else w.code)) ∧
      (y.state ≠ .error → y.state ≠ .free → y.since + ch.streamNs part ≤ ch.time →
        ended (.seDescriptorTimeout c p x n far) (ch.sePartial p x n far) cTIMEOUT)) ∧
   (∀ (s : State) (c p x k : Nat) (far : FarAns) (ch : Chip), s.chips[c]? = some ch → ch.unitsGo (ch.podPart p) = true →
      let y := ch.ctx p x
      let pend := y.q.filterMap fun it => match it with
        | .ring _ k => some k
        | _ => none
      let fetched := fun (j : Nat) => y.fetched.any fun e => e.1 == j
      pend.find? (fun j => !fetched j) = some k →
      let slot := k % y.ringN
      let part := (ch.partOfPod p).getD 0xFF
      let r := ch.seFetch p part far (y.ringBase + 64 * (slot / 8 * 8)) 512
      ch.affords part y.paid r.1 = true → ∃ ch', exec (.seRingFetch c p x far) s = .next (s.withChip c ch') ∧ (ch'.ctx p x).q = y.q ∧
        ∀ j code b, (j, code, b) ∈ (ch'.ctx p x).fetched ↔ (j, code, b) ∈ y.fetched ∨
          (j ∈ pend ∧ fetched j = false ∧ (j + 2 ^ 32 - k) % 2 ^ 32 < 8 - slot % 8 ∧ code = r.2.1 ∧ b = sliceB r.2.2 (64 * (j % y.ringN % 8)) 64)))

/-- A chain starts MMA(i) only after READ(i), DRAIN(g) only after the MMAs of group g, and never while a buffer it fills is still in use.
Every 1,000 ns the token buckets of every defined partition are set. A transfer happens when its last line has tokens, which it takes; until
then each bucket that lacks some gives the whole lines that it holds (R566; log entry 14, DEDUCED). CAROUSEL_ARM takes a ring table of distinct cores of the partition;
ROTATE of step s at position i answers at once for s = 0 and else when the shard of step s - 1 has come from the position before; a transfer
copies one slot of a core to the other slot of the next; CAROUSEL_DISARM makes the generation new (R560 to R565, R573 to R577, R579). -/
def Obligations.ChainAndCarouselResults : Prop :=
  (∀ (s : State) (c p x stage : Nat) (far : FarAns) (ch : Chip) (r : ChainRun) (rest : List SeItem), s.chips[c]? = some ch →
     ch.unitsGo (ch.podPart p) = true → (ch.ctx p x).q = .chain r :: rest → (ch.ctx p x).chainRuns r = true →
     let st := fun i => r.started.getD i 0
     let dn := fun i => r.done.getD i 0
     (r.ready stage = true → r.fail = none ∧
       (stage = 1 → r.has 0 = true → st 1 < dn 0) ∧ (stage = 2 → (st 2 + 1) * r.kgroup ≤ dn 1) ∧ (stage = 3 → st 3 < dn 2) ∧
       (stage = 0 → st 0 < 2 ∨ st 0 - 2 < dn 1)) ∧
     (r.ready 1 = true → (ch.pod p).arrq.length < 64 → ∃ ch' u, exec (.chainStageStart c p x 1 far) s = .next (s.withChip c ch') ∧
       (ch'.pod p).arrq = (ch.pod p).arrq ++ [(u, false)] ∧ u.bytes = (r.mma x (st 1)).bytes ∧ u.chain = x + 1 ∧ u.quiet = true ∧
       (ch'.ctx p x).q = .chain { r with started := r.started.modify 1 fun k => k + 1 } :: rest) ∧
     (r.ready 2 = true → (ch.pod p).arrq.length < 64 → ∃ ch' u, exec (.chainStageStart c p x 2 far) s = .next (s.withChip c ch') ∧
       (ch'.pod p).arrq = (ch.pod p).arrq ++ [(u, false)] ∧ u.bytes = (r.drain x (st 2)).bytes ∧ u.chain = x + 1 ∧
       (ch'.ctx p x).q = .chain { r with started := r.started.modify 2 fun k => k + 1 } :: rest)) ∧
  (∀ (s : State) (c : Nat) (ch : Chip), s.chips[c]? = some ch → ch.time % 1000 = 0 → ch.parts.length = 8 →
     ∃ ch', exec (.bucketRefill c) s = .next (s.withChip c ch') ∧ ch'.mem = ch.mem ∧ ∀ p, p < 8 → (ch.part p).isDefined = true →
       (ch'.part p).tokRead = (ch.part p).plate.bwRead * ch.variant.dramCap / 64 ∧
       (ch'.part p).tokWrite = (ch.part p).plate.bwWrite * ch.variant.dramCap / 64 ∧
       (ch'.part p).tokOut = (ch.part p).plate.bwRemote * ch.variant.linkCap / 64 ∧
       (ch'.part p).tokIn = (ch.part p).plate.bwRemote * ch.variant.linkCap / 64) ∧
  (∀ (ch after : Chip) (p : Nat) (paid : List Nat), p < ch.parts.length → p < after.parts.length →
     let a := ch.paced p paid (fun _ b => b) after
     if ch.affords p paid after = true then
       a.mem = after.mem ∧ ∀ b, b < 4 → a.tokens p b + 64 * (ch.linesTo after p b - paid.getD b 0) = ch.tokens p b
     else a.mem = ch.mem ∧ ∀ b, b < 4 → a.tokens p b =
       if ch.starvedLines p b (ch.linesTo after p b - paid.getD b 0) = true then ch.tokens p b % 64 else ch.tokens p b) ∧
  (∀ (s : State) (c p : Nat) (ch : Chip), s.chips[c]? = some ch →
     (∀ (far : FarAns) (u : UnitCmd), ch.arriving.find? (forSe p) = some u → ch.storesDone u = true → ch.unitFenced u = false → u.chain = 0 →
       u.ctxOk = true →
       let part := ch.partNo u.core
       let x := (ch.part part).carousel
       let a := { ch with arriving := ch.arriving.erase u }
       (u.op = 0x20 → x.armed = false → part < ch.parts.length → (∀ b, b < 4 → 64 ≤ ch.tokens part b) →
         let r := a.uread part far (u.le 8 8) (u.byte 16)
         let ring := r.2.2
         u.flagsOk = true → u.byte 5 = 0 → 2 ≤ u.byte 16 → u.byte 16 ≤ 64 → u.zero 17 19 = true → u.zero 32 63 = true → u.le 28 4 % 64 = 0 →
         u.le 8 8 % 64 = 0 → u.le 20 4 % 64 = 0 → u.le 24 4 % 64 = 0 → a.usable part (u.le 8 8) (u.byte 16) = cOK → r.2.1 = cOK →
         (∀ k ∈ ring, k < ch.cores.length ∧ ch.partNo k = part) → ring.Nodup →
         u.le 20 4 + u.le 28 4 ≤ 0x200000 → u.le 24 4 + u.le 28 4 ≤ 0x200000 → overlaps (u.le 20 4) (u.le 28 4) (u.le 24 4) (u.le 28 4) = false →
         ∃ (b : Chip) (f : Nat → Nat), exec (.carouselArm c p far) s = .next (s.withChip c ((b.complete u cOK x.gen).modPart part fun q =>
             q.setTokens f)) ∧
           let y := (b.part part).carousel
           y.armed = true ∧ y.ring = ring ∧ y.slot0 = u.le 20 4 ∧ y.slot1 = u.le 24 4 ∧ y.bytes = u.le 28 4 ∧ y.gen = x.gen ∧ y.done = []) ∧
       (u.op = 0x21 → x.armed = true → x.ring.contains u.core = true → x.gen = u.le 6 2 → u.flagsOk = true → u.byte 5 = 0 → u.zero 12 63 = true →
         let i := x.ring.idxOf u.core
         let st := u.le 8 4
         st = (match x.last.getD i none with | none => 0 | some l => l + 1) →
         let b := a.modCar part fun y => { y with last := y.last.set i (some st) }
         exec (.rotate c p) s = .next (s.withChip c (if st = 0 ∨ x.done.contains (st - 1, x.before i) = true then b.complete u cOK 0
           else b.modCar part fun y => { y with waiting := y.waiting ++ [(u, i, st)] }))) ∧
       (u.op = 0x22 → x.armed = true → u.flagsOk = true → u.byte 5 = 0 → u.zero 8 63 = true →
         ∃ ch', exec (.carouselDisarm c p) s = .next (s.withChip c ch') ∧ (ch'.part part).carousel.armed = false ∧
           (ch'.part part).carousel.gen = (x.gen + 1) % 0x10000 ∧ (ch'.part part).carousel.waiting = [])) ∧
     (∀ st i, let x := (ch.part p).carousel
       let asked := ∃ l, x.last.getD ((i + 1) % x.size) none = some l ∧ st ≤ l
       x.armed = true → i < x.size → asked → x.may st i = true → (st, i) ∉ x.done → (st, i) ∉ x.moving →
       exec (.carouselTransfer c p st i) s = .next (s.withChip c (ch.modCar p fun y => { y with moving := y.moving ++ [(st, i)] }))) ∧
     (∀ st i, let x := (ch.part p).carousel
       let src := coreBase (x.ring.getD i 0) + x.slot st
       let dst := coreBase (x.ring.getD ((i + 1) % x.size) 0) + x.slot (st + 1)
       x.moving.contains (st, i) = true → x.armed = true → ch.clash dst x.bytes = none → Memory.wf ch.mem = true →
       ∃ ch', exec (.carouselTransferDone c p st i) s = .next (s.withChip c ch') ∧ (st, i) ∈ (ch'.part p).carousel.done ∧
         Stored ch.mem ch'.mem dst (ch.see none src x.bytes)))


/-! ## Coder units and tree engines -/

/-- A coder unit takes its commands: CLAIM gives a free unit to the core, and every other one joins the queue once it passes its checks in
order, the session state last where nothing is before it (R586 to R593). -/
def Obligations.CoderCommandsAccepted : Prop :=
  ∀ c x : Nat,
    let yes := fun (_ : Chip) => true
    let check := fun (ch : Chip) (u : UnitCmd) => firstCode [ch.cuCheck x u, if (ch.cu x).q.isEmpty then (ch.cu x).stateCode u else cOK]
    let hold := fun (ch : Chip) (u : UnitCmd) => ch.modCu x fun y => { y with q := y.q ++ [u] }
    Takes (.cuClaim c x) c 0x01 (forCu x) yes
      (fun ch u => firstCode [chk cBOUNDS (u.flagsOk && u.zero 4 63), chk cBUSY ((ch.cu x).owner == none)])
      (fun ch u => (ch.modCu x fun y => { y with owner := some u.core }).complete u cOK (ch.cu x).gen) ∧
    Takes (.cuRelease c x) c 0x02 (forCu x) yes check hold ∧
    Takes (.encOpen c x) c 0x03 (forCu x) yes check hold ∧
    Takes (.encStatic c x) c 0x04 (forCu x) yes check hold ∧
    Takes (.encParam c x) c 0x05 (forCu x) yes check hold ∧
    Takes (.encFlush c x) c 0x06 (forCu x) yes check hold ∧
    Takes (.decOpen c x) c 0x07 (forCu x) yes check hold ∧
    Takes (.decStatic c x) c 0x08 (forCu x) yes check hold ∧
    Takes (.decParam c x) c 0x09 (forCu x) yes check hold ∧
    Takes (.decClose c x) c 0x0A (forCu x) yes check hold ∧
    Takes (.seal c x) c 0x10 (forCu x) yes check hold ∧
    Takes (.check c x) c 0x11 (forCu x) yes check hold

/-- The oldest command of a coder unit runs and completes once its last line has tokens: RELEASE closes every session and makes the generation
new, ENC_OPEN and DEC_OPEN start a session, records are coded in order, ENC_FLUSH and DEC_CLOSE close it, SEAL answers the length of the frame
it wrote, and CHECK answers the first failing check. A session that speculates decodes one symbol more under its guess (R587, R590, R593,
R596, R597, R600 to R603, R613, R615, R622, R624, R625). -/
def Obligations.CoderCommandResults : Prop :=
  ∀ (s : State) (c x : Nat) (far : FarAns) (ch : Chip), s.chips[c]? = some ch →
    (∀ u rest, (ch.cu x).q = u :: rest → ch.unitsGo (ch.partNo u.core) = true → (ch.cu x).sess.length = 8 → (ch.cu x).ownCode u = cOK → (ch.cu x).stateCode u = cOK →
      let cu := ch.cu x
      let p := ch.partNo u.core
      let ses := cu.ses u.sesNo
      let r := ch.cuRun x p far u (u.le 16 4)
      let y := r.unit cu
      let param := u.op == 5 || u.op == 9
      let recs := fun (size : Nat) => ch.ureadFor u p far (u.le 8 8) (size * u.le 16 4)
      exec (.cuCmdComplete c x far) s = .next (s.withChip c (ch.paced p cu.paid (fun l a => a.modCu x fun z => { z with paid := l })
        ((r.chip.modCu x fun z => { r.unit z with q := z.q.drop 1 }).complete u r.code r.value))) ∧
      (u.op = 2 → r.chip = ch ∧ r.code = cOK ∧ r.value = 0 ∧ y = { cu with sess := List.replicate 8 {}, owner := none, gen := (cu.gen + 1) % 0x10000 }) ∧
      (u.op = 3 → r.chip = ch ∧ r.code = cOK ∧ r.value = 0 ∧
        y.ses u.sesNo = { state := .enc, range := 0xFFFFFFFF, addr := u.le 8 8, len := u.le 16 4 }) ∧
      (u.op = 4 ∨ u.op = 5 →
        let got := recs (if param then 12 else 4)
        let e := Run.encAll (ch.tablesOf u.core) param (u.le 20 2) got.2.2 (u.le 16 4) 0 { ses := ses }
        let w := got.1.uwriteFor u p far (ses.addr + ses.pos) e.out
        let v := if param = true ∧ u.le 24 8 ≠ 0 then w.1.uwriteFor u p far (u.le 24 8) e.side else (w.1, cOK)
        got.2.1 = cOK → e.stop = none → w.2 = cOK → v.2 = cOK →
          r.chip = v.1.tailFree p far ses.addr e.ses.pos ∧ r.code = cOK ∧ r.value = e.ses.pos ∧ y.ses u.sesNo = e.ses ∧
          y.symbols = (cu.symbols + e.symbols) % 2 ^ 64 ∧ y.bytesOut = (cu.bytesOut + e.out.length) % 2 ^ 64) ∧
      (u.op = 6 →
        let fin := ses.pos + ses.flush.length
        let w := ch.uwriteFor u p far (ses.addr + ses.pos) (ses.flush ++ List.replicate ((64 - fin % 64) % 64) 0)
        (fin ≤ ses.len → w.2 = cOK → r.chip = w.1 ∧ r.code = cOK ∧ r.value = fin ∧
          y.ses u.sesNo = { ({} : Session) with pos := fin, clamped := ses.clamped } ∧ y.bytesOut = (cu.bytesOut + ses.flush.length) % 2 ^ 64) ∧
        (ses.pos ≤ ses.len → ses.len < fin → r.code = cBOUNDS ∧ (y.ses u.sesNo).state = .error)) ∧
      (u.op = 7 →
        let got := ch.ureadFor u p far (u.le 8 8) 4
        let depth := if u.byte 5 = 0 then 8 else if u.byte 5 = 31 then 0 else u.byte 5
        got.2.1 = cOK → r.chip = got.1 ∧ r.code = cOK ∧ r.value = 0 ∧ y.ses u.sesNo =
          { state := .dec, range := 0xFFFFFFFF, code := beNat got.2.2, pos := 4, addr := u.le 8 8, len := u.le 16 4, depth := depth }) ∧
      (u.op = 8 ∨ u.op = 9 →
        let got := recs (if param then 8 else 4)
        let e := Run.decAll (ch.tablesOf u.core) (got.1.nextByte p far ses.addr ses.len) param (u.le 20 2) got.2.2 (u.le 16 4) 0 { ses := ses }
        let w := (got.1.substream u p far ses ses.pos e.ses.pos).uwriteFor u p far (u.le 24 8) e.side
        got.2.1 = cOK → e.stop = none → w.2 = cOK → r.chip = w.1 ∧ r.code = cOK ∧ r.value = e.ses.pos ∧ y.ses u.sesNo = e.ses ∧
          y.symbols = (cu.symbols + e.symbols) % 2 ^ 64) ∧
      (u.op = 0xA → r.chip = ch ∧ r.code = (if ses.pos = ses.len then cOK else cBOUNDS) ∧ r.value = ses.pos ∧
        y.ses u.sesNo = { ({} : Session) with pos := ses.pos, clamped := ses.clamped }) ∧
      (u.op = 0x10 → r.code = cOK →
        let got := (ch.ureadFor u p far (u.le 8 8) 24).1.ureadFor u p far (u.le 16 8) (16 * u.byte 5)
        r.value = 28 + 4 * u.byte 5 + ((List.range (u.byte 5)).map fun i => leAt got.2.2 (16 * i + 8) 4).sum) ∧
      (u.op = 0x11 →
        let a := Chip.frameRead (ch, cOK, []) u p far 24
        let b := Chip.frameRead a u p far (24 + 4 * leAt a.2.2 9 1)
        let d := Chip.frameRead b u p far (frameTotal b.2.2)
        let fails := fun (o : Option (Nat × Nat)) => ∀ reason code, o = some (reason, code) → r.code = code ∧ r.value = reason
        (a.2.1 = cOK → fails (checkHead a.2.2 (u.le 16 4))) ∧
        (a.2.1 = cOK → checkHead a.2.2 (u.le 16 4) = none → b.2.1 = cOK → fails (checkLens b.2.2 (u.le 16 4)) ∧
          (checkLens b.2.2 (u.le 16 4) = none → d.2.1 = cOK → fails (checkBody d.2.2 ((u.bytes.drop 24).take 8)) ∧
            (checkBody d.2.2 ((u.bytes.drop 24).take 8) = none →
              r.chip = (d.1.uwriteFor u p far (u.le 32 8) (checkResult d.2.2)).1 ∧ r.value = 0))))) ∧
    ∀ n k id d, (ch.cu x).speculating = some n → (ch.cu x).q = [] → (ch.cu x).owner = some k → ch.unitsGo (ch.partNo k) = true →
      let ses := (ch.cu x).ses n
      ses.state = .dec → ses.last = some id → ses.spec.length < ses.depth → identDist (ch.tablesOf k) id = some d →
      let at' := match ses.spec.getLast? with
        | some e => (e.code, e.range, e.pos)
        | none => (ses.code, ses.range, ses.pos)
      ∀ sym code range pos, decodeSym (ch.nextByte (ch.partNo k) far ses.addr ses.len) d at'.1 at'.2.1 at'.2.2 = .ok (sym, code, range, pos) →
        exec (.runaheadSpeculate c x far) s = .next (s.withChip c (ch.modCu x fun y => y.modSes n fun z =>
          { z with spec := z.spec ++ [{ ident := id, sym := sym, code := code, range := range, pos := pos }] }))

/-- A decoder fed the bytes of an encoder's substream, and the same distributions in the same order, returns the encoder's symbols and
consumes exactly the substream's length (R596 to R599). A frame that SEAL writes passes every check that CHECK makes of it, in each of the
stages in which CHECK reads it (R620 to R624). -/
def Obligations.CoderRoundTrip : Prop :=
  (∀ l : List (Dist × Nat),
    (∀ e ∈ l, 2 ≤ e.1.bins ∧ e.1.bins ≤ 256 ∧ e.2 < e.1.bins ∧ e.1.cdf 0 = 0 ∧ e.1.cdf (e.1.bins - 1) ≤ 65535 ∧
      ∀ i, i + 1 < e.1.bins → e.1.cdf i < e.1.cdf (i + 1)) →
    let r := l.foldl (fun (a : Session × List Nat) e => ((a.1.encode e.1 e.2).1, a.2 ++ (a.1.encode e.1 e.2).2))
      ({ state := .enc, range := 0xFFFFFFFF }, [])
    let bytes := r.2 ++ r.1.flush
    let step := fun (a : Option (Nat × Nat × Nat × List Nat)) (e : Dist × Nat) => a.bind fun z =>
      match decodeSym (fun i => .ok (bytes.getD i 0)) e.1 z.1 z.2.1 z.2.2.1 with
      | .ok y => some (y.2.1, y.2.2.1, y.2.2.2, z.2.2.2 ++ [y.1])
      | .error _ => none
    ∃ code range, l.foldl step (some (beNat (bytes.take 4), 0xFFFFFFFF, 4, [])) = some (code, range, bytes.length, l.map fun e => e.2)) ∧
  ∀ (t lens body : List Nat) (avail : Nat), t.length = 24 → (∀ b ∈ t ++ body, b < 256) → 1 ≤ t.getD 8 0 → t.getD 8 0 ≤ 3 → t.getD 5 0 ≤ 1 →
    1 ≤ lens.length → lens.length ≤ 32 → (∀ n ∈ lens, 4 ≤ n ∧ n ≤ 16777152) → body.length = lens.sum → 28 + 4 * lens.length + lens.sum ≤ avail →
    let f := sealedFrame t lens body
    f.length = frameTotal f ∧ checkHead (f.take 24) avail = none ∧ checkLens (f.take (24 + 4 * lens.length)) avail = none ∧
      checkBody f ((t.drop 16).take 8) = none

/-- The symbols, written values, bytes consumed and session state that decoding leaves are the same with run-ahead as without it, where the
speculated symbols are those the session's decoder would return under the guessed distribution (R614, R615, R617, R619). -/
def Obligations.RunaheadIsInvisible : Prop :=
  ∀ (t : PartTables) (rd : Nat → Except Nat Nat) (param : Bool) (tid : Nat) (recs : List Nat) (n i : Nat) (ses : Session),
    (t.coder.map fun x => x.id).Nodup →
    (∀ (j : Nat) (e : Spec), ses.spec[j]? = some e →
      let from' := match j with
        | 0 => (ses.code, ses.range, ses.pos)
        | k + 1 => ((ses.spec.getD k {}).code, (ses.spec.getD k {}).range, (ses.spec.getD k {}).pos)
      ∃ d, identDist t e.ident = some d ∧ decodeSym rd d from'.1 from'.2.1 from'.2.2 = .ok (e.sym, e.code, e.range, e.pos)) →
    let a := Run.decAll t rd param tid recs n i { ses := ses }
    let b := Run.decAll t rd param tid recs n i { ses := { ses with spec := [] } }
    a.side = b.side ∧ a.symbols = b.symbols ∧ a.stop = b.stop ∧ { a.ses with spec := [] } = b.ses

/-- A tree engine takes its commands, and the oldest runs: CLAIM gives a free engine to the core, RELEASE makes the generation new and keeps
the tree store, LOAD copies its image into the store and answers the node count, or BOUNDS with the first failing node; SCORE writes the
outputs of its samples in ascending order up to the first that fails, and its VALUE is the number written (R642 to R644, R646, R647, R651,
R655 to R658). -/
def Obligations.TreeCommandResults : Prop :=
  ∀ (c x : Nat),
    let yes := fun (_ : Chip) => true
    let hold := fun (ch : Chip) (u : UnitCmd) => ch.modTe x fun y => { y with q := y.q ++ [u], since := if y.q.isEmpty then ch.time else y.since }
    Takes (.teClaim c x) c 1 (forTe x) yes
      (fun ch u => firstCode [chk cBOUNDS (u.flagsOk && u.zero 4 63), chk cBUSY ((ch.te x).owner == none)])
      (fun ch u => (ch.modTe x fun y => { y with owner := some u.core }).complete u cOK (ch.te x).gen) ∧
    Takes (.teRelease c x) c 2 (forTe x) yes (fun ch u => ch.teCheck x u) hold ∧
    Takes (.teLoad c x) c 3 (forTe x) yes (fun ch u => ch.teCheck x u) hold ∧
    Takes (.score c x) c 4 (forTe x) yes (fun ch u => ch.teCheck x u) hold ∧
    Takes (.gather c x) c 5 (forTe x) yes (fun ch u => ch.teCheck x u) hold ∧
    ∀ (s : State) (far : FarAns) (ch : Chip) (u : UnitCmd) (rest : List UnitCmd), s.chips[c]? = some ch → (ch.te x).q = u :: rest →
      ch.unitsGo (ch.partNo u.core) = true → (ch.te x).ownCode u = cOK →
      let p := ch.partNo u.core
      let r := ch.teRun x p far u (u.le 16 4) cOK
      let after := (r.chip.modTe x fun y => { r.unit y with q := y.q.drop 1, since := r.chip.time, paid := [] }).complete u r.code r.value
      (u.op < 4 ∨ u.streamed = false ∨ ch.time < (ch.te x).since + ch.streamNs p ∨ ch.affords p (ch.te x).paid after = true →
        exec (.teCmdComplete c x far) s = .next (s.withChip c (ch.paced p (ch.te x).paid (fun l a => a.tePaid x l) after))) ∧
      (u.op = 2 → r.chip = ch ∧ r.code = cOK ∧ r.value = 0 ∧ ∀ y, r.unit y = { y with owner := none, gen := (y.gen + 1) % 0x10000 }) ∧
      (u.op = 3 →
        let got := ch.ureadFor u p far (u.le 8 8) (u.le 16 4)
        r.chip = got.1 ∧ (∀ y, r.unit y = { y with store := Memory.write y.store (u.le 20 4) got.2.2 }) ∧
        (got.2.1 ≠ cOK → r.code = got.2.1 ∧ r.value = 0) ∧
        (got.2.1 = cOK → (∀ v, imageCheck got.2.2 = some v → r.code = cBOUNDS ∧ r.value = v) ∧
          (imageCheck got.2.2 = none → r.code = cOK ∧ r.value = leAt got.2.2 12 4))) ∧
      (u.op = 4 → u.streamed = false →
        let h := TreeHead.of (Memory.bytes (ch.te x).store (u.le 8 8) 128)
        ch.modelRange p u 128 = cOK → ch.teRanges p u h none = cOK →
        let z := Chip.teSamples (Chip.scoreOne x p far u h (ch.tablesOf u.core)) p far u h (u.le 16 4) 0 0 ch
        r.chip = z.1 ∧ r.code = z.2.2.2 ∧ r.value = z.2.2.1 ∧ ∀ y, r.unit y = { y with
          status := if reports u (bitsOf (u.byte 4) 3 2) then z.2.1 else 0
          samples := (y.samples + z.2.2.1) % 2 ^ 64 })

/-- A resident model that passed the check of LOAD never stops a walk: from the root of any of its trees, for any features, the walk
reaches a leaf (R641, R644, R648, R655). -/
def Obligations.ResidentModelsNeverStop : Prop :=
  ∀ (ch : Chip) (x p : Nat) (u : UnitCmd) (b : List Nat) (feat : Nat → Nat), u.streamed = false → imageCheck b = none → (∀ v ∈ b, v < 256) →
    let h := TreeHead.of (b.take 128)
    Memory.bytes (ch.te x).store (u.le 8 8) h.size = b.take h.size →
    ∀ t, t < h.trees → ∃ visits i leaf, (Chip.walk x p u h feat 21 (treeEntry h (sliceB b (128 + 8 * t) 8)).1 0 ch).2 = (visits, .ok (i, leaf)) ∧
      (TreeNode.of h i (sliceB b (h.nodeBase + 16 * i) 16)).isLeaf = true

/-! ## Links and requests between chips -/

/-- The link layer: a flit is 256 bytes, its fields where R668 puts them and its crc over the rest; one that carries data or management and
comes in order is accepted, an idle one carries only its acknowledgement, and one that is corrupt or out of order is discarded with all that
it carries, counted, and answered by a NAK once; the receiver acknowledges; the sender replays every held flit, retrains beyond
link_replay_max, and goes down beyond link_retrain_max; a trained link is UP when the identity record is right and HELD when it is not, and a
training forgets no retrain; FORCE_DOWN takes a link down and RETRAIN starts a fresh training; corrected symbols are counted (R668 to R676,
R681, R714, R716). -/
def Obligations.LinkLayerResults : Prop :=
  (∀ (f : Flit) (ack : Nat) (nak : Bool), f.payload.length ≤ 248 → f.typ < 256 → f.seq < 256 → ack < 256 → (∀ v ∈ f.payload, v < 256) →
    let b := f.bytes ack nak
    b.length = 256 ∧ leAt b 0 1 = f.typ ∧ leAt b 1 1 = f.seq ∧ leAt b 2 1 = ack ∧ bitOf (leAt b 3 1) 0 = nak ∧
    sliceB b 4 f.payload.length = f.payload ∧ leAt b 252 4 = crc32 (b.take 252)) ∧
  ∀ (s : State) (c n : Nat) (ch : Chip), s.chips[c]? = some ch → n < ch.links.length →
    let l := ch.link n
    let goes := fun (i : Sys2Proof.Instr) (P : Chip → Prop) => ∃ ch', exec i s = .next (s.withChip c ch') ∧ P ch'
    let idle := fun (m : Link) (nak : Bool) => ({ m with wire := m.wire ++ [({ typ := 0 } : Flit).bytes l.rxLast nak], unacked := 0 } : Link)
    (∀ (fec : Nat) (flit : List Nat), ch.alive = true → l.state = .up →
      let fixed := { l with fecCorrected := (l.fecCorrected + fec) % 2 ^ 64 }
      let good := leAt flit 252 4 = crc32 (flit.take 252)
      let numbered := leAt flit 0 1 = 1 ∨ leAt flit 0 1 = 2
      let next := leAt flit 1 1 = (l.rxLast + 1) % 256
      (good → numbered → next → bitOf (leAt flit 3 1) 0 = false → goes (.flitReceive c n fec flit) fun ch' =>
        (ch'.link n).fecCorrected = fixed.fecCorrected ∧ (ch'.link n).rxLast = leAt flit 1 1 ∧ (ch'.link n).nakSent = false ∧ (ch'.link n).rxBytes = (l.rxBytes + 248) % 2 ^ 64 ∧
        (ch'.link n).crcErrors = l.crcErrors ∧ (l.waiting = [] → l.unacked < 15 → (ch'.link n).unacked = l.unacked + 1)) ∧
      (good → ¬ numbered → bitOf (leAt flit 3 1) 0 = false → goes (.flitReceive c n fec flit) fun ch' =>
        ch'.link n = fixed.acked (leAt flit 2 1) ch.time) ∧
      (¬ good ∨ (numbered ∧ ¬ next) → goes (.flitReceive c n fec flit) fun ch' => ch'.out = ch.out ∧
        let m := { fixed with crcErrors := (l.crcErrors + 1) % 2 ^ 64, nakSent := true }
        ch'.link n = if l.nakSent = true then m else idle m true)) ∧
    (∀ ack i, (l.held.findIdx? fun f => f.seq == ack) = some i → l.waiting = [] →
      l.acked ack ch.time = { l with held := l.held.drop (i + 1), episode := 0 }) ∧
    (ch.alive = true → l.state = .up → l.unacked ≠ 0 → goes (.ackTimer c n) fun ch' => ch'.link n = idle l false) ∧
    (ch.alive = true → l.state = .up → (∃ f ∈ l.held, f.sent + 1000 ≤ ch.time) →
      (l.episode < ch.loader.linkReplayMax → goes (.replayTimer c n) fun ch' => (ch'.link n).state = .up ∧
        (ch'.link n).replays = (l.replays + 1) % 2 ^ 64 ∧ (ch'.link n).episode = l.episode + 1 ∧
        (ch'.link n).held = (l.held.map fun f => { f with sent := ch.time }) ∧
        (ch'.link n).wire = l.wire ++ l.held.map fun f => f.bytes l.rxLast false) ∧
      (ch.loader.linkReplayMax ≤ l.episode → l.retrainsNow ch.time < ch.loader.linkRetrainMax → goes (.replayTimer c n) fun ch' =>
        (ch'.link n).state = .retraining ∧ (ch'.link n).retrains = (l.retrains + 1) % 2 ^ 32 ∧
        (ch'.link n).recent = l.retrainsNow ch.time + 1) ∧
      (ch.loader.linkReplayMax ≤ l.episode → ch.loader.linkRetrainMax ≤ l.retrainsNow ch.time → n ≠ 0 → goes (.replayTimer c n) fun ch' =>
        (ch'.link n).state = .down ∧ (ch'.link n).held = [] ∧ (ch'.link n).downs = (l.downs + 1) % 2 ^ 32)) ∧
    (ch.alive = true → l.state = .retraining →
      (goes (.retrainDone c n true) fun ch' => (ch'.link n).state = .up ∧ (ch'.link n).rxLast = 255 ∧ (ch'.link n).upSince = ch.time ∧
        (ch'.link n).episode = 0 ∧ ∀ (j : Nat) (f : Flit), l.held[j]? = some f → (ch'.link n).held[j]? = some ({ f with seq := j % 256, sent := ch.time } : Flit)) ∧
      (n ≠ 0 → goes (.retrainDone c n false) fun ch' => (ch'.link n).state = .down ∧ (ch'.link n).held = [])) ∧
    (∀ ok serial chip link flags, ch.alive = true → l.state = .training → n ≠ 0 → goes (.linkTrainingDone c n ok serial chip link flags) fun ch' =>
      (ch'.link n).state = (if ok then (if ch.identityOk n serial chip link flags then .up else .held) else .down) ∧
      (ch'.link n).recent = l.recent ∧
      (ok = true → (ch'.link n).farSerial = serial % 2 ^ 48)) ∧
    (ch.stwRuns = true → l.state = .down ∨ l.state = .held → l.downSince + 1000000000 ≤ ch.time → ch.mayTrain n = true →
      goes (.freshTraining c n) fun ch' => (ch'.link n).state = .training ∧ (ch'.link n).trainSince = ch.time) ∧
    (n < 6 → ch.regAbsent (.link n) 4 = false → ch.pwr.state ≠ .idle → ∀ a, pfOrSb a → ch.takesFrom a = true →
      (goes (.linkForceDown c a n) fun ch' => (ch'.link n).forced = true ∧ (n ≠ 0 → (ch'.link n).state = .down)) ∧
      (n ≠ 0 → goes (.linkCtrlRetrain c a n) fun ch' => (ch'.link n).forced = false ∧
        (l.state = .down → ({ ch with links := ch.links.modify n fun l => { l with forced := false } } : Chip).mayTrain n = true →
          (ch'.link n).state = .training)))

/-- Requests between chips: a request is served when its link, window and range allow it, a read answering the bytes and a write storing them,
and is refused with PERM or its code otherwise; a response to a load gives its core the register, one that never comes a precise ACCESS fault
with TIMEOUT; a narrowed block is widened and written; STATS writes the profile's channels and ADAPT_RESET restarts them (R686, R687, R690,
R694, R697, R702, R710 to R713). -/
def Obligations.RemoteRequestResults : Prop :=
  ∀ (s : State) (c : Nat) (ch : Chip), s.chips[c]? = some ch →
    (∀ n p win off len data d, ch.alive = true → (ch.link n).state = .up → ch.pwr.state = .active →
      (ch.servesFor n p win = false → ∀ write, exec (.remoteRequestServe c n p win off len write data) s =
        .next (s.withChip c (ch.refuseRemote n p cPERM 0 (!write)))) ∧
      (ch.servesFor n p win = true → ch.farAddr p off len = .ok d →
        (ch.bad d len = false → exec (.remoteRequestServe c n p win off len false data) s =
          .next (s.withChip c ((ch.countSoft d len).respond n cOK (ch.see none d len)))) ∧
        (ch.bad d len = true → exec (.remoteRequestServe c n p win off len false data) s = .next (s.withChip c (ch.refuseRemote n p cECC d true))) ∧
        (ch.writeCode d len = cOK → ch.clash d len = none → Memory.wf ch.mem = true →
          ∃ ch', exec (.remoteRequestServe c n p win off len true data) s = .next (s.withChip c ch') ∧ Stored ch.mem ch'.mem d (sliceB data 0 len))) ∧
      ∀ e, ch.servesFor n p win = true → ch.farAddr p off len = .error e → ∀ write,
        exec (.remoteRequestServe c n p win off len write data) s = .next (s.withChip c (ch.refuseRemote n p e 0 (!write)))) ∧
    (∀ id r, ch.remote id = some r → ch.alive = true → r.link < 6 → (ch.link r.link).state = .up →
      let f : Chip := { ch with remotes := ch.remotes.filter fun x => x.id != id }
      ∀ k rd size signed since, r.kind = .load k rd size signed → (ch.core k).state = .waiting → (ch.core k).wait = some (.remote id since) →
        (ch.core k).dbg.en = false → ∀ data,
        exec (.remoteResponse c id cOK data) s = .next (s.withChip c ((f.modCore k fun x => x.setS rd
          (if signed then BitVec.ofInt 64 (sgn (8 * size) (leAt data 0 size)) else BitVec.ofNat 64 (leAt data 0 size))).retire k)) ∧
        ∀ code, 0 < code → code < 16 → exec (.remoteResponse c id code data) s = .next (s.withChip c (f.accessFault k code r.addr vRead))) ∧
    (∀ id r k rd size signed since, ch.remote id = some r → ch.alive = true → r.link < 6 → r.kind = .load k rd size signed →
      (ch.core k).state = .waiting → (ch.core k).wait = some (.remote id since) → r.behind = 0 → r.since + ch.msgWaitNs r.part ≤ ch.time →
      (ch.part r.part).inSlot = false → ch.linkBusy r.link = false →
      exec (.remoteTimeout c id) s = .next (s.withChip c
        (({ ch with remotes := ch.remotes.filter fun x => x.id != id } : Chip).accessFault k cTIMEOUT r.addr vRead))) ∧
    (∀ n p win desc rec blk, ch.alive = true → (ch.link n).state = .up → ch.pwr.state = .active →
      exec (.narrowBlockReceive c n p win false desc rec blk) s = .next (s.withChip c ch) ∧
      ((ch.link n).fenced = true → exec (.narrowBlockReceive c n p win true desc rec blk) s = .next (s.withChip c (ch.respond n cFENCED []))) ∧
      ((ch.link n).fenced = false → ch.servesFor n p win = false →
        exec (.narrowBlockReceive c n p win true desc rec blk) s = .next (s.withChip c (ch.refuseRemote n p cPERM 0 false))) ∧
      ∀ a len d0 d, (ch.link n).fenced = false → ch.servesFor n p win = true → (Desc.of desc).farRows = [(a, len)] →
        ch.farAddr p (windowOff a) len = .ok d0 →
        let w := widenBlock rec blk
        let bytes := w.2.flatMap (leBytes 4)
        0 < bytes.length → 4 * w.1 + bytes.length ≤ len → ch.farAddr p (windowOff (a + 4 * w.1)) bytes.length = .ok d →
        ch.writeCode d bytes.length = cOK → ch.clash d bytes.length = none → Memory.wf ch.mem = true →
        ∃ ch', exec (.narrowBlockReceive c n p win true desc rec blk) s = .next (s.withChip c ch') ∧ Stored ch.mem ch'.mem d bytes) ∧
    ∀ n u pr, ch.arriving.find? (forLnu n) = some u → ch.storesDone u = true → ch.unitFenced u = false → ch.lnuProfile n u = some pr →
      let p := ch.partNo u.core
      let a := { ch with arriving := ch.arriving.erase u }
      (u.op = 1 → u.flagsOk = true → u.zero 5 7 = true → u.zero 16 63 = true → u.le 8 8 % 64 = 0 → a.usable p (u.le 8 8) (16 * pr.channels) = cOK →
        ∀ far l, (ch.part p).lnu.lookup pr.id = some l →
        let r := a.uwrite p far (u.le 8 8) (l.flatMap LnuChan.bytes)
        exec (.stats c n far) s = .next (s.withChip c (if r.2 = cOK then r.1.complete u cOK pr.channels else r.1.refuse u r.2 (u.le 8 8)))) ∧
      (u.op = 2 → u.flagsOk = true → u.zero 5 63 = true →
        exec (.adaptReset c n) s = .next (s.withChip c (if (ch.part p).expert = true then (a.modPart p fun q =>
            { q with lnu := q.lnu.map fun e => if e.1 == pr.id then (e.1, e.2.map fun _ => ({} : LnuChan)) else e }).complete u cOK 0
          else a.refuse u cPERM)))

/-! ## Twins -/

/-- Pairing: a PAIR that meets R720 makes the pair PAIRED with INTRA_DUE set, one that does not MISMATCH; a HEARTBEAT goes out every millisecond;
a twin lost on its HEARTBEAT or by FAIL degrades the pair, or leaves a takeover due at the next tick start; DETACH separates once what is in
flight has ended, and REJOIN, of a chip with a loaded base plate and LINK[0] UP, pairs again (under SOLO DETACH acts too, and REJOIN leaves the
pair UNPAIRED: DEDUCED, log entry 73); a silent twin is asked to reset once per boot count, and resets only when its boot count and SB_AGE
agree. A chip that does not run, or whose LINK[0] is not UP, hears nothing (R679, R717, R720, R722, R723, R742, R747, R749, R752, R753). -/
def Obligations.TwinPairResults : Prop :=
  ∀ (s : State) (c : Nat) (ch : Chip), s.chips[c]? = some ch →
    let goes := fun (i : Sys2Proof.Instr) (P : Chip → Prop) => ∃ ch', exec i s = .next (s.withChip c ch') ∧ P ch'
    let hears := ch.alive = true ∧ ch.linkUp 0 = true
    let standby := fun (mask : Nat) => ∃ p ∈ ch.protectedList, ch.loader.twinMode = mSTANDBY ∧ bitOf mask p = true ∧ (ch.tp p).active = false
    let lost := fun (i : Sys2Proof.Instr) (mask cause : Nat) =>
      (¬ standby mask → goes i fun ch' => ch'.twin.pair = .degraded) ∧
      (∀ p ∈ ch.protectedList, ch.loader.twinMode = mSTANDBY → bitOf mask p = true → (ch.tp p).active = false → (ch.tp p).trigger = none →
        p < ch.twin.parts.length → goes i fun ch' => (ch'.tp p).trigger = some (cause, false) ∧ (ch'.tp p).switch = none ∧ (ch'.tp p).active = false)
    (∀ m : PairMsg, hears → ch.twin.pair = .pairing →
      let a : Chip := { ch with twin := { ch.twin with peer := some m, twinPlate := m.baseId } }
      let mine := a.pairMsg
      let i := Instr.twinPair c m.baseId m.twinPlate m.mode m.mask m.contract m.parts m.index
      (mine.mode ≠ m.mode ∨ mine.twinPlate ≠ m.baseId ∨ m.twinPlate ≠ mine.baseId ∨ mine.mask ≠ m.mask ∨ mine.contract ≠ m.contract →
        goes i fun ch' => ch'.twin.pair = .mismatch) ∧
      (mine.mode = m.mode → mine.twinPlate = m.baseId → m.twinPlate = mine.baseId → mine.mask = m.mask → mine.contract = m.contract →
        mine.parts.length = m.parts.length → (∀ e ∈ mine.parts.zip m.parts, e.1.1 = e.2.1 ∧ ((e.1.2.1 = 2) ↔ ¬ (e.2.2.1 = 2))) →
        m.index.length = ch.protectedList.length → ch.twin.parts.length = 8 →
        goes i fun ch' => ch'.twin.pair = .paired ∧ ch'.twin.hbTime = ch.time ∧ ∀ p ∈ ch.protectedList, (ch'.tp p).intraDue = true)) ∧
    (hears → 0 < ch.links.length → (∀ t, ch.twin.hbSent = some t → t + 1000000 ≤ ch.time) →
      exec (.twinHeartbeatSend c) s = .next (s.withChip c ((({ ch with twin := { ch.twin with hbSent := some ch.time } } : Chip).emit (.twin 3
        [0xFF, 0, ch.wdg.heartbeat, ch.ler.bootCount, ch.sbAge])).modLink 0 fun l =>
          l.push 2 ch.time (3 :: 0xFF :: 0 :: 0 :: 0 :: 0 :: 0 :: 0 :: [ch.wdg.heartbeat, ch.ler.bootCount, ch.sbAge].flatMap (leBytes 8))))) ∧
    (∀ t, ch.twin.hbSent = some t → ch.time < t + 1000000 → exec (.twinHeartbeatSend c) s = .next (s.withChip c ch)) ∧
    (hears → ∀ hb boot age, exec (.twinHeartbeatMsg c hb boot age) s = .next (s.withChip c { ch with twin := { ch.twin with
      hbTime := ch.time, hbSince := if hb == ch.twin.hbValue then ch.twin.hbSince else ch.time, hbValue := hb, hbBoot := boot, hbAge := age,
      hbLost := false } })) ∧
    (ch.alive = true → ch.bound = true → ch.twin.hbLost = false → ch.twin.hbTime + 20000000 ≤ ch.time → lost (.twinHeartbeatLoss c) 0xFF lostHeartbeat) ∧
    (∀ mask cause, hears → ch.bound = true → lost (.twinFail c mask cause) mask cause) ∧
    (ch.twin.pair ≠ .detached → ch.twin.detaching = none →
      (hears → goes (.twinDetachMsg c) fun ch' => ch'.twin.detaching = some ch.time) ∧
      ∀ a, pfOrSb a → ch.takesFrom a = true → goes (.twinCtrlDetach c a) fun ch' => ch'.twin.detaching = some ch.time) ∧
    (∀ t, ch.alive = true → ch.twin.detaching = some t → (∀ p, p < 8 → (ch.tp p).trigger = none) → t + 10000000 ≤ ch.time →
      goes (.detachDrainEnd c) fun ch' => ch'.twin.pair = .detached ∧ ch'.twin.detaching = none ∧ ∀ p, p < 8 → p < ch.twin.parts.length →
        (ch'.tp p).copy = none ∧ (ch'.tp p).switch = none ∧ (ch'.tp p).active = (ch.tp p).active) ∧
    (ch.loader.state = .loaded → ch.linkUp 0 = true →
      let again := fun (ch' : Chip) => if ch.loader.twinMode = mSOLO then ch'.twin.pair = .unpaired else ch'.twin.pair = .pairing ∧ ch'.twin.rejoin = true
      (ch.alive = true → goes (.twinRejoinMsg c) again) ∧ ∀ a, pfOrSb a → ch.takesFrom a = true → goes (.twinCtrlRejoin c a) again) ∧
    (∀ i : Sys2Proof.Instr, i = .twinDetachMsg c ∨ i = .twinRejoinMsg c ∨ (∃ x, i = .resetReq c x) ∨ (∃ m x, i = .twinFail c m x) ∨
      (∃ h b x, i = .twinHeartbeatMsg c h b x) → ¬ hears → exec i s = .next (s.withChip c ch)) ∧
    (ch.alive = true → ch.wdg.steward = .running → ch.twin.pair ≠ .detached → ch.twin.hbSince + 10000000000 ≤ ch.time → 10000 ≤ ch.twin.hbAge →
      ch.twin.resetFor ≠ some ch.twin.hbBoot → goes (.twinResetReqSend c) fun ch' => ch'.twin.resetFor = some ch.twin.hbBoot ∧
        ch'.twin.resetsSent = (ch.twin.resetsSent + 1) % 2 ^ 32) ∧
    (∀ count, hears → count = ch.ler.bootCount → 10000 ≤ ch.sbAge →
      exec (.resetReq c count) s = .next (s.withChip c ((ch.ev 0x0707 err 0x72 0xFF cOK count).askReset .twin))) ∧
    ∀ count, hears → count ≠ ch.ler.bootCount ∨ ch.sbAge < 10000 →
      exec (.resetReq c count) s = .next (s.withChip c (ch.ev 0x0708 info 0x72 0xFF cOK count))

/-- PROOF: a post makes its slot PENDING, or decides it UNCHECKED, or ERROR with BUSY, BOUNDS or PERM; the digest of the posted bytes is the
CRC-64 of R729; a slot is decided from both posts by the first case of R732, LATE at the cut-off; a mismatch counts and sets INTRA_DUE, which
a match of a KEY post of the encoder clears; a digest of the last tick is compared with the one kept (R566, R729 to R735, R737, R738). -/
def Obligations.ProofResults : Prop :=
  ∀ (s : State) (c p : Nat) (ch : Chip), s.chips[c]? = some ch → p < 8 → p < ch.twin.parts.length → (ch.tp p).slots.length = 8 →
    let goes := fun (i : Sys2Proof.Instr) (P : Chip → Prop) => ∃ ch', exec i s = .next (s.withChip c ch') ∧ P ch'
    let hears := ch.alive = true ∧ ch.linkUp 0 = true
    (∀ a v, p < ch.variant.maxParts → ch.mayTwinPart a p = true → ch.takesFrom a = true → v < 2 ^ 32 →
      let i := v % 8
      let t := ch.tp p
      let event := v / 2 ^ 16
      let empty := (ch.slot p i).outcome = .empty
      let good := 1 ≤ t.proofLen ∧ t.proofLen ≤ 0x10000000 ∧ ∃ pl, ch.reach p t.proofAddr t.proofLen = .ok pl ∧ pl.isLocal = true
      (ch.proves p = false → goes (.proofGo c a p v) fun ch' => (ch'.slot p i).outcome = .unchecked) ∧
      (ch.proves p = true → ¬ empty → goes (.proofGo c a p v) fun ch' => (ch'.slot p i).outcome = .error ∧ (ch'.slot p i).code = cBUSY) ∧
      (ch.proves p = true → empty → good → event ≠ 0xFFFF → ch.holdsEvent p event = false →
        goes (.proofGo c a p v) fun ch' => (ch'.slot p i).outcome = .error ∧ (ch'.slot p i).code = cPERM) ∧
      (ch.proves p = true → empty → good → event = 0xFFFF ∨ ch.holdsEvent p event = true → goes (.proofGo c a p v) fun ch' =>
        let x := ch'.slot p i
        x.outcome = .pending ∧ x.posting = true ∧ x.addr = t.proofAddr ∧ x.event = event ∧
        x.post = { dec := v.testBit 8, key := v.testBit 9, len := t.proofLen, intra := t.intraDue })) ∧
    (∀ i, i < 8 → let x := ch.slot p i
      ch.alive = true → x.outcome = .pending → x.posting = true → x.theirs = none → (ch.uread p [] x.addr x.post.len).2.1 = cOK →
      ch.affords p x.paid (ch.uread p [] x.addr x.post.len).1 = true →
      goes (.proofDigestDone c p i) fun ch' => (ch'.slot p i).outcome = .pending ∧ (ch'.slot p i).posting = false ∧
        (ch'.slot p i).mine = some { x.post with crc := crc64 (ch.uread p [] x.addr x.post.len).2.2 }) ∧
    (∀ i (mine theirs : Post), hears → i < 8 → (ch.part p).isDefined = true → (ch.slot p i).outcome = .pending → (ch.slot p i).mine = some mine →
      let enc := if mine.dec then theirs else mine
      goes (.twinDigest c p (ch.part p).workIndex i theirs.dec theirs.key theirs.len theirs.crc theirs.intra) fun ch' =>
        let x := ch'.slot p i
        let mismatch := fun (reason : Nat) => x.outcome = .mismatch ∧ x.reason = reason ∧ (ch'.tp p).intraDue = true ∧
          (ch'.tp p).mismatches = ((ch.tp p).mismatches + 1) % 2 ^ 32
        if mine.dec = theirs.dec then mismatch 4
        else if enc.key = false ∧ enc.intra = true then mismatch 3
        else if mine.len ≠ theirs.len then mismatch 2
        else if mine.crc ≠ theirs.crc then mismatch 1
        else x.outcome = .matched ∧ ((ch'.tp p).intraDue = if enc.key then false else (ch.tp p).intraDue)) ∧
    (∀ i m (theirs : Post), hears → (ch.part p).isDefined = true → i < 8 → (ch.tp p).keptIndex ≠ (ch.part p).workIndex → (ch.tp p).kept.lookup i = some m →
      m.crc ≠ theirs.crc →
      goes (.twinDigest c p (ch.tp p).keptIndex i theirs.dec theirs.key theirs.len theirs.crc theirs.intra) fun ch' =>
        (ch'.tp p).late = ((ch.tp p).late + 1) % 2 ^ 32 ∧ (ch'.tp p).intraDue = true) ∧
    (ch.alive = true → (ch.part p).isDefined = true → (ch.part p).running = true → (ch.part p).deadline ≤ ch.time + 200000 →
      goes (.proofCutoff c p) fun ch' => ∀ i, i < 8 → (ch'.slot p i).outcome = if (ch.slot p i).outcome = .pending then .late else (ch.slot p i).outcome) ∧
    crc64 [0x31, 0x32, 0x33, 0x34, 0x35, 0x36, 0x37, 0x38, 0x39] = 0x6C40DF5F0B497347

/-- STANDBY and the pair's plates: a copy performed at the twin sends CKPT_DONE, which gives the standby its checkpoint half and readiness;
SWITCH falls at the named tick; CONFIRM clears PROVISIONAL, RELINQUISH gives the role back, and neither acts where PROVISIONAL is 0;
OVERLAY_READY and OVERLAY_COMMIT are kept, and FALLBACK_AT sets the tick of the fallback (R566, R725, R727, R739, R745, R746, R756). -/
def Obligations.StandbyResults : Prop :=
  ∀ (s : State) (c p : Nat) (ch : Chip), s.chips[c]? = some ch → p < 8 → p < ch.twin.parts.length →
    let goes := fun (i : Sys2Proof.Instr) (P : Chip → Prop) => ∃ ch', exec i s = .next (s.withChip c ch') ∧ P ch'
    let hears := ch.alive = true ∧ ch.linkUp 0 = true
    let t := ch.tp p
    (∀ x, ch.alive = true → t.copy = some x →
      ch.affords p x.paid ((ch.payLines p 0 x.lines).payLines p 2 (x.bytes.length / 64)) = true → goes (.ckptCopyDone c p) fun ch' => (ch'.tp p).copy = none ∧ (ch'.tp p).sent = some x.index ∧
      (ch.linkUp 0 = true → ch'.out = .twin 5 [p, x.index, x.index % 2, x.bytes.length] :: ch.out)) ∧
    (∀ index half, hears → ch.protected p = true → ch.loader.twinMode = mSTANDBY → t.active = false → exec (.ckptDone c p index half) s =
      .next (s.withChip c (ch.modTp p fun y => { y with ckptTick := index, ckptSel := half % 2, ckptValid := true, ready := true }))) ∧
    (∀ mask tick, hears → ch.twin.pair = .paired → ch.loader.twinMode = mSTANDBY → bitOf mask p = true → ch.protected p = true →
      goes (.twinSwitchMsg c mask tick) fun ch' => (ch'.tp p).switch = some { tick := tick, moves := 0, toMe := !t.active } ∧ (ch'.tp p).active = t.active) ∧
    (∀ a mask, pfOrSb a → ch.takesFrom a = true → mask < 256 → bitOf mask p = true →
      (ch.twin.pair = .paired → ch.loader.twinMode = mSTANDBY → ch.protected p = true → goes (.twinCtrlSwitch c a mask) fun ch' =>
        (ch'.tp p).switch = some { tick := ((ch.part p).workIndex + 2) % 2 ^ 32, moves := 0, toMe := !t.active }) ∧
      (goes (.confirm c a mask) fun ch' => ch'.tp p = { t with provisional := false }) ∧
      (goes (.relinquish c a mask) fun ch' => ch'.tp p =
        if t.provisional then { t with active := false, takeover := false, provisional := false } else t)) ∧
    (∀ tick, hears → exec (.overlayReady c p tick) s = .next (s.withChip c (ch.modTp p fun y => { y with ovReady := some tick }))) ∧
    (∀ tick commit, hears → exec (.overlayCommit c p tick commit) s = .next (s.withChip c (ch.modTp p fun y => { y with ovCommit := some (tick, commit) }))) ∧
    ∀ tick, hears → ch.protected p = true → (ch.part p).fallback ≠ [] → exec (.fallbackAt c p tick) s = .next (s.withChip c
      ((ch.modTp p fun y => { y with fbAt := some tick }).modPart p fun q => { q with fbPending := true }))
/-! ## Recovery, watchdogs, fences -/

/-- The steward's recoveries. A faulted core is reclaimed, and unfenced to PARKED once the tick has ended, its fault record kept; its third
faulting work tick in a row begins a partition recovery, and a fourth such recovery within 60 s halts the partition with its cores fenced. A
partition recovery ends with every core PARKED, RECOVERY 0, and the admitted jobs as they were (R767 to R773). -/
def Obligations.RecoveryResults : Prop :=
  (∀ c k : Nat, Makes (.coreFaultReclaim c k) c (fun ch => ch.serves ∧ k < 64 ∧ k < ch.cores.length ∧ (ch.core k).recover = true ∧
      ch.partNo k < ch.parts.length ∧ (ch.part (ch.partNo k)).halted = false ∧ (ch.part (ch.partNo k)).recovering = false ∧ (ch.core k).faultRun < 3)
    fun ch ch' => (ch'.core k).state = .fenced ∧ (ch'.core k).recover = false ∧ (ch'.core k).reclaimed = true ∧
      (ch'.core k).epochOrder = [] ∧ ((ch.core k).state ≠ .fenced → (ch'.core k).wait = none ∧ (ch'.core k).cq = [] ∧ (ch'.core k).posted = []) ∧
      (ch'.part (ch.partNo k)).coreRecoveries = ((ch.part (ch.partNo k)).coreRecoveries + 1) % 0x10000 ∧
      (ch'.part (ch.partNo k)).lastCore = k ∧ ch'.rcv.reclaimAgent = k ∧ ch'.rcv.reclaimCode = cOK) ∧
  (∀ c k p : Nat, Makes (.coreFaultReclaim c k) c (fun ch => ch.serves ∧ k < 64 ∧ k < ch.cores.length ∧ (ch.core k).recover = true ∧ ch.partNo k = p ∧
      p < ch.parts.length ∧ (ch.part p).isDefined = true ∧ (ch.part p).halted = false ∧ (ch.part p).recovering = false ∧ 3 ≤ (ch.core k).faultRun)
    fun ch ch' =>
      let recent := (ch.part p).recTimes.filter fun t => ch.time ≤ t + 60000000000
      (ch'.core k).faultRun = 0 ∧
      (if recent.length < 3 then (ch'.part p).recovering = true ∧ (ch'.part p).recovery = true ∧
          (ch'.part p).partRecoveries = ((ch.part p).partRecoveries + 1) % 0x10000 ∧ (ch'.part p).recTimes = ch.time :: recent
        else (ch'.part p).halted = true ∧ (ch'.part p).recovery = false ∧ (ch'.part p).running = false ∧
          ∀ j ∈ ch.coresOf p, (ch'.core j).state = .fenced)) ∧
  (∀ c k : Nat, Makes (.coreUnfenceAfterTick c k) c (fun ch => ch.serves ∧ k < 64 ∧ k < ch.cores.length ∧ (ch.core k).reclaimed = true ∧
      (ch.core k).state = .fenced ∧ (ch.part (ch.partNo k)).running = false ∧ (ch.part (ch.partNo k)).halted = false ∧
      (ch.part (ch.partNo k)).recovering = false)
    fun ch ch' => ch'.core k = { ch.core k with state := .parked, reclaimed := false } ∧ ch'.mem = ch.mem ∧ ch'.parts = ch.parts) ∧
  (∀ c p : Nat, Makes (.partitionRecovery c p) c (fun ch => ch.serves ∧ p < ch.parts.length ∧ (ch.part p).isDefined = true ∧
      (ch.part p).recovering = true ∧ ch.cores.length ≤ 64)
    fun ch ch' => (ch'.part p).recovering = false ∧ (ch'.part p).recovery = false ∧ (ch'.part p).running = false ∧
      ((ch.part p).running = false → (ch'.part p).jobs = (ch.part p).jobs) ∧
      ∀ k ∈ ch.coresOf p, (ch'.core k).state = .parked ∧ (ch'.core k).inRec = false ∧ (ch'.core k).faultRun = 0)

/-- A unit that finds an uncorrectable error in its own state is fenced, kept so at its third fence within 60 s, and ERROR UNIT_FENCED is
raised with arg1 1 then; the steward reinstalls and unfences one that is not kept. The reclaim engine, commanded by the steward or the
side-band, fences, reclaims and unfences; OP 0 only sets the agent (R774 to R777, R780, R799).
An HBM stack that fails, or an uncorrectable error in the steward's memory, the reset controller or the management network, is a FATAL
event and halts the chip: every core and unit fenced, no tick running. A written CLEAR empties the violation log; a written VALID clears a
fault record (R395, R793, R794, R799). -/
def Obligations.FenceAndFatalResults : Prop :=
  ((∀ c kind n : Nat, ∀ u, FenceUnit.of kind n = some u →
     Makes (.unitInternalUncorr c kind n) c (fun ch => ch.alive = true ∧ ch.hasUnit u = true ∧ (ch.unitFence u).1 = false) fun ch ch' =>
       let times := ch.time :: (ch.unitFence u).2.1.filter fun t => ch.time < t + 60000000000
       ch'.unitFence u = (true, times, (ch.unitFence u).2.2 || decide (3 ≤ times.length)) ∧
       ch' = ((ch.unitStop u cECC cFENCED).setFence u true times ((ch.unitFence u).2.2 || decide (3 ≤ times.length))).ev 0x0503 err u.agent
         (ch.unitPart u) cECC 0 (if 3 ≤ times.length then 1 else 0)) ∧
   (∀ c kind n : Nat, ∀ u, FenceUnit.of kind n = some u →
     Makes (.unitReinstall c kind n) c (fun ch => ch.serves ∧ ch.alive = true ∧ ch.hasUnit u = true ∧ (ch.unitFence u).1 = true)
       fun ch ch' => if (ch.unitFence u).2.2 = true then ch' = ch
         else (ch'.unitFence u).1 = false ∧ ch'.mem = ch.mem ∧ (∀ n, u = .te n → (ch'.te n).store = []) ∧
           ∀ n, u = .cu n → ch'.cu n = { ch.cu n with fenced := false, kept := false }) ∧
   (∀ c agent : Nat, SetsReg (.reclaimSetAgent c · agent) c (fun a => a = agSTEWARD ∨ a = agSB) (fun _ => True)
     fun ch => { ch with rcv := { ch.rcv with reclaimAgent := agent % 256 } }) ∧
   (∀ c k : Nat, k < 64 → let who := fun a => a = agSTEWARD ∨ a = agSB
     SetsSome (.reclaimFence c · k) c who (fun ch => k < ch.cores.length) (fun _ ch ch' =>
       (ch'.core k).state = .fenced ∧ ((ch.core k).state = .fenced → ch'.core k = ch.core k) ∧ ch'.rcv.reclaimAgent = k ∧ ch'.rcv.reclaimCode = cOK) ∧
     SetsSome (.reclaim c · k) c who (fun ch => k < ch.cores.length) (fun _ ch ch' =>
       (ch'.core k).state = .fenced ∧ ((ch.core k).state ≠ .fenced → (ch'.core k).cq = []) ∧ (ch'.core k).epochOrder = [] ∧ ch'.rcv.reclaimAgent = k ∧ ch'.rcv.reclaimCode = cOK) ∧
     SetsSome (.reclaimUnfence c · k) c who (fun ch => k < ch.cores.length) fun _ ch ch' =>
       ch'.core k = (if (ch.core k).state = .fenced then { ch.core k with state := .parked, reclaimed := false } else ch.core k) ∧
       ch'.rcv.reclaimAgent = k ∧ ch'.rcv.reclaimCode = cOK)) ∧
  (let halted := fun (ch ch' : Chip) => ch'.wdg.fatalHalt = true ∧ (∀ k, k < ch.cores.length → (ch'.core k).state = .fenced ∧ (ch'.core k).sfuFenced = true) ∧
     (∀ d, d < ch.pods.length → (ch'.pod d).fenced = true) ∧ (∀ u, u < ch.cus.length → (ch'.cu u).fenced = true) ∧
     (∀ u, u < ch.tes.length → (ch'.te u).fenced = true) ∧ (∀ n, n < ch.links.length → (ch'.link n).fenced = true) ∧
     ∀ p, p < 8 → p < ch.parts.length → (ch.part p).isDefined = true → (ch'.part p).running = false
   (∀ c stack : Nat, Makes (.hbmStackFail c stack) c (fun ch => ch.alive = true ∧ stack < ch.variant.stacks ∧ ch.wdg.fatalHalt = false) halted) ∧
   (∀ c what : Nat, Makes (.internalUncorr c what) c (fun ch => ch.alive = true ∧ ch.wdg.fatalHalt = false) halted) ∧
   (∀ c : Nat, SetsReg (.vlogClear c ·) c pfOrSb (fun _ => True)
     fun ch => { ch with rcv := { ch.rcv with vlog := [], vlogHead := 0, overwritten := 0 } }) ∧
   (∀ c k : Nat, SetsReg (.coreFaultClear c · k) c pfOrSb
     (fun ch => ch.regAbsent (.core k) 0x10 = false ∧ k < 64 ∧ ch.pwr.state = .active)
     fun ch => ch.modCore k fun x => { x with fault := {} }))

/-- The steward's watchdog restarts the steward, or at the fourth expiry within 600 s holds it and halts the chip; the chip watchdog takes
kicks of the expected value, notes others, expires in two stages, and asks for a reset after the second; its period is written once; the
clock monitor moves it to the backup clock; STW_DBG freezes both; STEWARD.HEARTBEAT counts (R100, R782 to R792, R804). -/
def Obligations.WatchdogResults : Prop :=
  (∀ c : Nat, Makes (.stewardWdgExpiry c) c (fun ch => ch.alive = true ∧ ch.wdg.steward = .running ∧ ch.wdg.stwLeft = 0) fun ch ch' =>
    let recent := ch.wdg.restarts.filter fun t => ch.time < t + 600000000000
    if recent.length < 3 then ch'.wdg = { ch.wdg with steward := .restarting, restarts := ch.time :: recent } ∧
      ch'.rcv.stwRestarts = (ch.rcv.stwRestarts + 1) % 2 ^ 32 ∧ ch'.mem = ch.mem ∧ ch'.cores = ch.cores
    else ch'.wdg.steward = .held ∧ ch'.wdg.fatalHalt = true) ∧
  (∀ c : Nat, Makes (.stewardResume c) c (fun ch => ch.alive = true ∧ ch.wdg.steward = .restarting) fun ch ch' =>
    ch'.wdg.steward = .running ∧ ch'.wdg.notify = [] ∧ ch'.wdg.stwLeft = ch'.wdg.stwPeriodMs * 1000000 ∧
    ∀ k ∈ ch.wdg.notify, k < ch.cores.length → (ch'.core k).recover = true) ∧
  (∀ c : Nat, Acts (.stewardHeartbeatTick c) c (fun ch => ch.alive = true ∧ ch.wdg.steward = .running ∧ ch.boot.stage = .running)
    fun ch => { ch with wdg := { ch.wdg with heartbeat := (ch.wdg.heartbeat + 1) % 2 ^ 32 } }) ∧
  (∀ c : Nat, SetsReg (.stwKick c ·) c (· = agSTEWARD) (fun _ => True)
    fun ch => { ch with wdg := { ch.wdg with stwLeft := ch.wdg.stwPeriodMs * 1000000 } }) ∧
  (∀ c v : Nat, SetsReg (.wdgKick c · v) c (· = agSTEWARD) (fun _ => v < 2 ^ 32) fun ch =>
    let w := ch.wdg
    if v = (if w.next then 0xA5A5 else 0x5A5A) then
      let a : Chip := { ch with wdg := { w with next := !w.next, stage2 := false, left := w.periodMs * 32, phase := 0 } }
      if w.stage2 then a.ev 0x0805 info else a
    else ({ ch with wdg := { w with badKicks := min (w.badKicks + 1) 0xFFFF } } : Chip).ev 0x0806 warn 0x70 0xFF cOK v) ∧
  (∀ c v : Nat, SetsReg (.wdgPeriodWrite c · v) c (fun a => a = agSTEWARD ∨ a = agSB)
    (fun ch => v < 2 ^ 32 ∧ (ch.wdg.locked = false → 100 ≤ bitsOf v 0 14 ∧ bitsOf v 0 14 ≤ 10000))
    fun ch => if ch.wdg.locked then ch else { ch with wdg := { ch.wdg with periodMs := bitsOf v 0 14, locked := true } }) ∧
  (∀ c : Nat, Acts (.chipWdgStage1 c) c
    (fun ch => ch.alive = true ∧ ch.wdg.stage2 = false ∧ ch.wdg.frozen = false ∧ ch.wdg.left = 0)
    fun ch => ({ ch with wdg := { ch.wdg with stage2 := true, left := ch.wdg.periodMs * 32 } } : Chip).ev 0x0804 fatal) ∧
  (∀ c : Nat, Makes (.chipWdgStage2 c) c (fun ch => ch.alive = true ∧ ch.wdg.stage2 = true ∧ ch.wdg.frozen = false ∧ ch.wdg.left = 0 ∧
      ch.boot.pendingReset = none) fun ch ch' => ch'.boot.pendingReset = some .watchdog ∧ ch'.ler = ch.ler ∧ ch'.mem = ch.mem ∧ ch'.wdg = ch.wdg) ∧
  (∀ c cause hz : Nat, Makes (.clockMonitorTrip c cause hz) c (fun ch => ch.alive = true ∧ ch.wdg.backup = false ∧
      (cause = 1 ∨ (cause = 2 ∧ (hz < 24000 ∨ 40000 < hz)))) fun ch ch' =>
    ch'.wdg = { ch.wdg with tripped := true, tripCause := cause, woscHz := hz % 2 ^ 20, tripTime := ch.time, backup := true } ∧
    ch'.mem = ch.mem) ∧
  (∀ c : Nat, SetsReg (.stwDbgHalt c ·) c (· = agSB) (fun ch => ch.wdg.steward = .running)
    fun ch => { ch with wdg := { ch.wdg with steward := .dbgHalted, frozen := true } }) ∧
  (∀ c : Nat, SetsSome (.stwDbgResume c ·) c (· = agSB) (fun ch => ch.wdg.steward = .dbgHalted) fun _ ch ch' =>
    ch'.wdg.steward = .running ∧ ch'.wdg.frozen = false ∧ ch'.wdg.left = ch.wdg.left ∧ ch'.wdg.stwLeft = ch.wdg.stwLeft)

/-! ## Ticks -/

/-- A tick start of a partition sets its index, TICK_START and SUBST. It is absorbed while a tick runs, and the work goes on; otherwise, where
nothing new waits for the boundary and nothing absorbs it, work begins: the deadline is P - guard later, and every core with code that tend
parked, that a tick stop stopped, or that has not run yet starts at its entry_pc with the registers of R304. Content that applies at the boundary
starts its first tick with it or, where its own schedule says so, later. The sources are TIME, a TICK_IN edge, which reaches every chip, the
twin's message and a substitute; an edge or message less than three quarters of a period after the last start under the content in force is
ignored (R53, R175, R197 to R207, R226, R304, R305).
A complete tick ends, with its µs of work. At its deadline an incomplete one counts an overrun and ends under its policy: skip stops it and
the next tick reads PREV_SKIPPED, extend once moves the deadline by a period, absorbing the next start, where the tick before was not extended,
fault stops it and begins a partition recovery; an extended tick is stopped at its moved deadline; under DEBUG nothing is stopped (R221 to R227, R240, R243).
The slots of a tick are ceil(share / 50), take the stipple share between them, at most 50 µs each and one after the other, and the last ends
at the deadline. A slot begins at its time and holds its partition, its units among it; when it ends, the waits of the partition's cores go on with what they had
left, but those of a core that the debugger holds (R843 to R845, R870). -/
def Obligations.TickResults : Prop :=
  (let started := fun (p : Nat) (carried : Option Nat) (subst : Bool) (ch ch' : Chip) =>
     let q := ch.part p
     let r := ch'.part p
     (q.running = true ∨ ch.nothingNew p → r.tickIndex = ch.nextIndex p carried ∧ r.tickStart = ch.time ∧ r.ticked = true ∧ r.subst = subst) ∧
     (q.running = true → r.running = true ∧ r.deadline = q.deadline ∧ r.workStart = q.workStart ∧ r.jobs = q.jobs ∧
       ∀ k, (ch'.core k).state = (ch.core k).state ∧ (ch'.core k).pc = (ch.core k).pc ∧ (ch'.core k).s = (ch.core k).s) ∧
     (q.running = false → ch.nothingNew p → ch.absorbs p = true → r.running = false ∧
       ∀ k, (ch'.core k).state = (ch.core k).state ∧ (ch'.core k).pc = (ch.core k).pc ∧ (ch'.core k).s = (ch.core k).s) ∧
     (q.running = false → ch.nothingNew p → ch.absorbs p = false →
       r.running = true ∧ r.workStart = ch.time ∧ r.workIndex = r.tickIndex ∧
       r.deadline = ch.time + 1000 * (q.plate.period - max ((q.plate.period + 19) / 20) 50) ∧
       r.slots = slotsFor q.plate.period q.plate.stipple ∧
       ∀ k ∈ ch.coresOf p, (ch.core k).hasCode = true → (ch.core k).state = .parked ∨ ((ch.core k).state = .halted ∧
           ((ch.core k).stopped = true ∨ (ch.core k).ran = false)) →
         let x := ch'.core k
         x.state = .running ∧ x.pc = (ch.core k).entryPc ∧ x.getS 1 = BitVec.ofNat 64 r.tickIndex ∧ x.getS 2 = BitVec.ofNat 64 p ∧
         x.getS 3 = BitVec.ofNat 64 k ∧ x.getS 29 = BitVec.ofNat 64 (coreBase (k + 1)) ∧ (∀ i, 5 ≤ i → i ≠ 29 → x.getS i = 0) ∧
         (∀ i, x.getV i = 0) ∧ (∀ i, x.getP i = if i = 0 then BitVec.allOnes 64 else 0) ∧ x.acw = acwReset ∧ x.cq = [] ∧ x.ended = false)
   let late := fun (q : Part) (ch : Chip) => q.fresh = true ∨ 4 * q.tickStart + 3000 * q.plate.period ≤ 4 * ch.time
   let due := fun (p : Nat) (ch : Chip) => p < ch.parts.length ∧ ch.ticks p = true ∧ (ch.part p).plate.source = 0 ∧
     ((ch.part p).startNow = true ∨ (ch.part p).plate.nextTime (ch.part p).lastStart ≤ ch.time)
   ∀ c p : Nat, p < 8 →
   Makes (.tickStart c p) c (due p) (fun ch => started p none (ch.part p).subst ch) ∧
   Makes (.tickStart c p) c (fun ch => due p ch ∧ (ch.part p).running = false ∧ ((ch.settleRetires p).boundary p (ch.nextIndex p none)).2 = true)
     (fun ch ch' =>
       let a := ((ch.settleRetires p).boundary p (ch.nextIndex p none)).1
       ((a.part p).startNow = false → ch' = a) ∧
       ((a.part p).startNow = true → (ch'.part p).tickStart = ch.time ∧ (ch'.part p).ticked = true ∧
         (ch'.part p).tickIndex = a.nextIndex p none ∧ (ch'.part p).plate = (a.part p).plate)) ∧
   (∀ index : Nat, Makes (.twinTickMsg c p index) c (fun ch => p < ch.parts.length ∧ ch.alive = true ∧ ch.linkUp 0 = true ∧ ch.ticks p = true ∧ (ch.part p).plate.source = 2)
     fun ch ch' => (late (ch.part p) ch → started p (some (index % 2 ^ 32)) false ch ch') ∧
       (¬ late (ch.part p) ch → ch' = ch.ev 0x0402 info 0xFF p cOK (ch.part p).tickStart)) ∧
   (∀ s : State, ∃ f : Chip → Chip, exec .tickInEdge s = .next { s with chips := s.chips.map f } ∧ ∀ ch,
     ((∀ q, q < 8 → ch.ticks q = true → (ch.part q).plate.source ≠ 1) → f ch = ch) ∧
     (p < ch.parts.length → ch.ticks p = true → (ch.part p).plate.source = 1 →
       (∀ q, q < 8 → q ≠ p → ch.ticks q = true → (ch.part q).plate.source ≠ 1) →
       (late (ch.part p) ch → started p none false ch (f ch)) ∧
       (¬ late (ch.part p) ch → f ch = ch.ev 0x0402 info 0xFF p cOK (ch.part p).tickStart))) ∧
   Makes (.substituteTick c p) c (fun ch => p < ch.parts.length ∧ ch.ticks p = true ∧ (ch.part p).plate.source ≠ 0 ∧
       (ch.part p).lastStart + 1000 * ((ch.part p).plate.period +
         (if (ch.part p).subst = true then 0 else max (((ch.part p).plate.period + 19) / 20) 50)) ≤ ch.time)
     (fun ch => started p none true ch)) ∧
  (∀ c p : Nat, p < 8 →
   let stopped := fun (ch ch' : Chip) => (ch'.part p).running = false ∧
     ∀ k ∈ ch.coresOf p, (ch'.core k).state ≠ .running ∧ (ch'.core k).state ≠ .waiting ∧ (ch'.core k).epochOrder = [] ∧
       ((ch.core k).state = .running → (ch'.core k).stopped = true)
   let counted := fun (ch ch' : Chip) => (ch'.part p).overruns = min ((ch.part p).overruns + 1) 0xFFFFFFFF ∧ (ch'.part p).overrunBit = true
   let late := fun (x : Bool) (ch : Chip) => p < ch.parts.length ∧ (ch.part p).running = true ∧ (ch.part p).extended = x ∧
     (ch.part p).deadline ≠ 0 ∧ (ch.part p).deadline ≤ ch.time ∧ ch.complete? p = false ∧ ch.loader.unloading = false ∧
     (ch.part p).applyDue = false
   let skipped := fun (ch ch' : Chip) => counted ch ch' ∧ stopped ch ch' ∧ (ch'.part p).skipNext = true
   let debug := fun (ch ch' : Chip) => counted ch ch' ∧ (ch'.part p).running = true ∧ (ch'.part p).deadline = 0 ∧ ch'.cores = ch.cores
   let fault := fun (ch ch' : Chip) => counted ch ch' ∧ stopped ch ch' ∧ ((ch.part p).isDefined = true →
     (ch'.part p).recovering = true ∨ (ch'.part p).halted = true)
   Makes (.tickComplete c p) c (fun ch => p < ch.parts.length ∧ (ch.part p).running = true ∧
       (∀ k ∈ ch.coresOf p, (ch.core k).hasCode = true → (ch.core k).ended = true) ∧ ch.inFlight p = false ∧ ch.loader.unloading = false ∧
       (ch.part p).applyDue = false)
     (fun ch ch' => (ch'.part p).running = false ∧ (ch'.part p).lastWork = (ch.time - (ch.part p).workStart) / 1000 % 2 ^ 32 ∧
       (ch'.part p).extended = false ∧ (ch'.part p).prevExtended = (ch.part p).extended ∧ (∀ j ∈ (ch'.part p).jobs, j.retire = []) ∧
       ch'.cores = ch.cores) ∧
   Makes (.tickDeadline c p) c (late false) (fun ch ch' =>
     if ch.partDebug p = true then debug ch ch'
     else if (ch.part p).plate.policy = 1 ∧ (ch.part p).prevExtended = false then counted ch ch' ∧ (ch'.part p).running = true ∧
       (ch'.part p).extended = true ∧ (ch'.part p).absorbNext = true ∧ ch'.cores = ch.cores ∧
       (ch'.part p).deadline = (ch.part p).deadline + 1000 * (ch.part p).plate.period
     else if (ch.part p).plate.policy = 2 then fault ch ch' else skipped ch ch') ∧
   Makes (.extendedDeadline c p) c (late true) (fun ch ch' =>
     if ch.partDebug p = true then debug ch ch' else skipped ch ch') ∧
   SetsReg (.clrOverruns c · p) c pfOrSb (fun ch => ch.regAbsent (.part p) 0x38 = false) (fun ch => ch.modPart p fun q => { q with overruns := 0 })) ∧
  ((∀ period pct : Nat, 250 ≤ period → period ≤ 2000000 → 2 ≤ pct → pct ≤ 25 →
     let l := slotsFor period pct
     let share := (period * pct + 99) / 100
     let d := period - max ((period + 19) / 20) 50
     l.length = (share + 49) / 50 ∧ (l.map fun x => x.stop - x.start).sum = 1000 * share ∧ (l.getLast?.map StippleSlot.stop) = some (1000 * d) ∧
     ∀ j, j < l.length → let x := l.getD j {}
       x.stop = 1000 * (d * (j + 1) / l.length) ∧ 5000 ≤ x.stop - x.start ∧ x.stop - x.start ≤ 50000 ∧ x.start < x.stop ∧
       (∀ i, i < j → (l.getD i {}).stop ≤ x.start) ∧ x.begun = false) ∧
   (∀ c p j : Nat, Makes (.slotStart c p) c (fun ch => p < ch.parts.length ∧ ch.alive = true ∧ (ch.part p).isDefined = true ∧
       (ch.part p).inSlot = false ∧ (ch.part p).slots.findIdx? (fun x => !x.begun) = some j ∧
       (ch.part p).tickStart + ((ch.part p).slots.getD j {}).start ≤ ch.time)
     fun ch ch' => ch' = ch.modPart p fun q => { q with slots := q.slots.modify j fun x => { x with begun := true, since := ch.time } }) ∧
   (∀ c p j : Nat, Makes (.slotEnd c p) c (fun ch => p < ch.parts.length ∧
       (ch.part p).slots.findIdx? (fun x => x.begun && !x.ended) = some j ∧
       (ch.part p).tickStart + ((ch.part p).slots.getD j {}).stop ≤ ch.time)
     fun ch ch' =>
       let d := ch.time - ((ch.part p).slots.getD j {}).since
       (ch'.part p).slots = (ch.part p).slots.modify j (fun x => { x with ended := true }) ∧ ch'.mem = ch.mem ∧
       ∀ k ∈ ch.coresOf p, ch'.core k = if (ch.core k).state = .debug then ch.core k
         else { ch.core k with wait := (ch.core k).wait.map (Wait.shift d) }) ∧
   ∀ (c u x : Nat) (far : FarAns) (i : Sys2Proof.Instr) (part : Chip → Nat),
     ((∃ mac, i = .arrayCmdBegin c u mac ∨ i = .arrayCmdComplete c u mac) ∨ i = .seDescriptorBegin c u x far ∨ i = .seDescriptorComplete c u x far ∨
       (∃ n, i = .seDescriptorTimeout c u x n far) ∨ i = .seRingFetch c u x far ∨ (∃ n, i = .chainStageStart c u x n far)) ∧
         part = (fun ch => ch.podPart u) ∨
     i = .rowCmdComplete c u far ∧ part = (fun ch => ch.partNo u) ∨
     (i = .cuCmdComplete c u far ∨ i = .runaheadSpeculate c u far) ∧ part = (fun ch => ch.workPart (ch.cu u).q (ch.cu u).owner) ∨
     i = .teCmdComplete c u far ∧ part = (fun ch => ch.workPart (ch.te u).q (ch.te u).owner) →
     Acts i c (fun ch => ch.alive = false ∨ ch.fcRuns = false ∨ (ch.part (part ch)).inSlot = true) id)

/-! ## The plate -/

/-- LOAD copies a plate from DRAM into the staging region, or asks the host for it, unless a load runs; UNLOAD empties the chip once no tick
runs, and DRAM keeps its contents; CANCEL withdraws a pending overlay (R162, R167, R168, R184, R185).
Once the copy has ended, the staged bytes are validated. A load that fails leaves the chip as it was but for PLATE.RESULT and an INFO event;
a valid overlay becomes pending; a valid base plate is applied: partitions, tables, cores and channels are those of the plate, and PLATE.STATE
reads LOADED once every partition has had its first tick (R164, R165, R174, R182, R190, R193). -/
def Obligations.PlateResults : Prop :=
  (∀ c : Nat,
   SetsSome (.plateLoad c ·) c pfOrSb (fun ch => ch.loader.state.busy = false ∧ ch.pwr.state ≠ .idle)
     (fun _ ch ch' => ch'.loader.state = .copying ∧ ch'.loader.kind = .base ∧ ch'.loader.back = ch.loader.state ∧ (∀ p, p < 8 → ch'.part p = ch.part p) ∧
       ch'.cores = ch.cores ∧
       match ch.place ch.loader.src ch.loader.len with
       | some .dram => if ch.bad ch.loader.src ch.loader.len = true then ch'.loader.copyCode = cECC ∧ ch'.mem = ch.mem
           else ch'.loader.staged = ch.readBytes ch.loader.src ch.loader.len ∧ ch'.loader.copyCode = cOK ∧
             ch'.mem = Memory.write ch.mem (ch.variant.dramBytes - 0x4000000) (ch.readBytes ch.loader.src ch.loader.len)
       | some (.host b) => if ch.busMaster 0 = true then ch'.loader.fromHost = true ∧ ch'.out = .hostFetch 0 b ch.loader.len :: ch.out
           else ch'.loader.copyCode = cPERM ∧ ch'.mem = ch.mem
       | _ => ch'.loader.copyCode = cBOUNDS ∧ ch'.mem = ch.mem) ∧
   SetsSome (.plateLoad c ·) c (· = agSB) (fun ch => ch.loader.state.busy = true)
     (fun _ ch ch' => ch'.loader = ch.loader ∧ ch'.mem = ch.mem ∧ ch'.sb.lastError = cBUSY) ∧
   SetsSome (.plateUnload c ·) c pfOrSb (fun ch => ch.loader.state.busy = false ∧ ch.bound = false ∧ ch.pwr.state ≠ .idle ∧ ch.ticksEnded = true ∧
       ∀ k, (ch.core k).epochOrder = [])
     (fun _ ch ch' => ch'.loader.state = .empty ∧ ch'.loader.baseId = 0 ∧ (∀ p, ch'.pendingOf p = none) ∧ ch'.chans = [] ∧ ch'.syncs = [] ∧
       (∀ p, (ch'.part p).isDefined = false) ∧ (∀ k, k < ch.cores.length → (ch'.core k).state = .fenced ∧ (ch'.core k).image = []) ∧
       (∀ d, d < ch.pods.length → (ch'.pod d).fenced = true ∧ ∀ b, podBase d ≤ b → b < podBase (d + 1) → Memory.get ch'.mem b = 0) ∧
       (∀ b, b < podStoreBase → Memory.get ch'.mem b = Memory.get ch.mem b) ∧ ch'.loader.result = 0xFFFFFF0000) ∧
   SetsSome (.plateUnload c ·) c pfOrSb (fun ch => ch.loader.state.busy = false ∧ ch.bound = false ∧ ch.pwr.state ≠ .idle ∧ ch.ticksEnded = false)
     (fun _ ch ch' => ch'.loader.state = .applying ∧ ch'.loader.unloading = true ∧ ch'.mem = ch.mem ∧ ch'.cores = ch.cores ∧ ch'.parts = ch.parts) ∧
   ∀ p, p < 8 → SetsSome (.plateCancel c · p) c pfOrSb (fun ch => ch.loader.pending.length = 8)
     (fun a ch ch' => ch'.pendingOf p = none ∧ (∀ q, q ≠ p → ch'.pendingOf q = ch.pendingOf q) ∧
       (ch.pendingOf p = none → ∃ w, ch' = ch.servedBy a w) ∧
       ((ch.pendingOf p).isSome = true → ch'.loader.result = 0xFFFF0000 + p * 2 ^ 32 ∧ ch'.loader.state = ch.loader.state))) ∧
  (∀ c : Nat,
   (∀ (code : Nat) (data : List Nat), Makes (.plateValidate c code data) c (fun ch => ch.stwRuns = true ∧ ch.loader.state = .copying ∧
       ch.loader.kind = .base ∧ ch.loader.fromHost = false)
     fun ch ch' =>
       let v : Chip := { ch with loader := { ch.loader with state := .validating } }
       let refused := fun (e : PlateErr) => ch'.loader.state = ch.loader.back ∧ ch'.loader.kind = .none ∧ ch'.loader.pending = ch.loader.pending ∧
         ch'.loader.result = e.code + e.sub * 0x100 + e.sec * 0x10000 + e.part * 2 ^ 32 ∧
         ch'.mem = ch.mem ∧ ch'.cores = ch.cores ∧ ch'.chans = ch.chans ∧ ch'.syncs = ch.syncs ∧
         ∀ p, (ch'.part p).plate = (ch.part p).plate ∧ (ch'.part p).tables = (ch.part p).tables ∧ (ch'.part p).isDefined = (ch.part p).isDefined
       if ch.pwr.pwrFail = true then refused { code := cBUSY, sub := sPOWER }
       else if ch.loader.copyCode ≠ cOK then refused { code := ch.loader.copyCode }
       else match v.validate ch.loader.staged with
         | .error e => refused e
         | .ok (d, l) => match d.mode, l with
           | .overlay p, (_, content, fb) :: _ => ch'.loader.state = ch.loader.back ∧ ch'.loader.result = 0xFFFF0000 + p * 2 ^ 32 ∧
               (p < ch.loader.pending.length → ch'.pendingOf p =
                 some { content := content, applyTick := d.field 52 4, bytes := content.applyBytes, fallback := fb }) ∧
               ch'.mem = ch.mem ∧ ch'.cores = ch.cores ∧ ∀ p, p < 8 → ch'.part p = ch.part p
           | _, _ => ch'.loader.state = .applying ∧ ch'.loader.ready = l ∧ ch'.loader.newPlateId = d.field 24 8 ∧ ch'.mem = ch.mem ∧
               ch'.cores = ch.cores ∧ ∀ p, p < 8 → ch'.part p = ch.part p) ∧
   (∀ (p : Nat) (content : Content) (fb : List Content), p < 8 → Makes (.plateApply c) c (fun ch => ch.stwRuns = true ∧
       ch.loader.state = .applying ∧ ch.loader.kind ≠ .starting ∧ ch.loader.unloading = false ∧ ch.loader.ready = [(p, content, fb)])
     fun ch ch' => ch'.loader.state = .applying ∧ ch'.loader.kind = .starting ∧ (ch'.part p).expert = false ∧ ch'.loader.baseId = ch.loader.newPlateId ∧ ch'.loader.baseDigest = ch.loader.newDigest ∧
       (∀ q, ch'.pendingOf q = none) ∧ ch'.loader.result = 0xFFFFFF0000 ∧
       (∀ q, q ≠ p → (ch'.part q).isDefined = false) ∧
       (ch'.part p).isDefined = true ∧ (ch'.part p).plate = content.plate ∧ (ch'.part p).tables = content.tables ∧ (ch'.part p).fallback = fb ∧
       (ch'.part p).tickIndex = 0 ∧ (ch'.part p).ticked = false ∧ (ch'.part p).jobs = [] ∧
       (∀ k ∈ ch'.coresOf p, match content.tables.code.find? (fun e => e.core == k) with
         | some e => (ch'.core k).hasCode = true ∧ (ch'.core k).image = e.image ∧ (ch'.core k).entryPc = e.entryPc ∧ (ch'.core k).ran = false
         | none => (ch'.core k).hasCode = false ∧ (ch'.core k).image = []) ∧
       ch'.chans = content.tables.chans.map (fun e => e.make p 0) ∧ ch'.syncs = content.tables.syncs.map (fun e => e.make p 0) ∧
       (content.tables.preload = [] → ∀ d, d < ch.pods.length → ∀ b, podBase d ≤ b → b < podBase (d + 1) → Memory.get ch'.mem b = 0) ∧
       (content.tables.preload = [] → ∀ b, b < podStoreBase → Memory.get ch'.mem b = Memory.get ch.mem b)) ∧
   ∀ p, p < 8 → Makes (.tickStart c p) c (fun ch => p < ch.parts.length ∧ ch.ticks p = true ∧ ch.startDue p = true ∧ ch.nothingNew p ∧
       ch.loader.kind = .starting)
     fun ch ch' => (ch'.part p).expert = (ch.part p).plate.expert ∧
       if ∀ q ∈ ch.defined, q = p ∨ (ch.part q).ticked = true then ch'.loader.state = .loaded ∧ ch'.loader.kind = .none
       else ch'.loader = ch.loader)

/-- At its boundary a pending overlay, or a needed fallback, replaces what its partition holds: plate, tables, images, channels with their
generations up by one; the jobs are retired, the tick index is kept, and the first tick under it starts there where its schedule has a start
there. A boundary while a tick runs leaves what is ready waiting for the end of the tick (R174 to R176, R192, R197, R202, R203, R219, R220, R234,
R236, R428). -/
def Obligations.OverlayResults : Prop :=
  ∀ c p : Nat, p < 8 →
  let applied := fun (x : Content) (ch ch' : Chip) =>
    (ch'.part p).isDefined = true ∧ (ch'.part p).plate = x.plate ∧ (ch'.part p).tables = x.tables ∧ (ch'.part p).jobs = [] ∧
    (ch'.part p).tickIndex = (ch.part p).tickIndex ∧ (ch'.part p).startNow = x.plate.startsAt (ch.part p).plate ch.time ∧
    (ch'.part p).fresh = true ∧ ch'.pendingOf p = none ∧
    (∀ k ∈ ch'.coresOf p, ∀ e, x.tables.code.find? (fun e => e.core == k) = some e →
      (ch'.core k).image = e.image ∧ (ch'.core k).entryPc = e.entryPc ∧ (ch'.core k).hasCode = true) ∧
    (∀ e ∈ x.tables.chans, ∀ y, ch.chans.find? (fun z => z.id == e.id) = some y → e.make p ((y.gen + 1) % 0x10000) ∈ ch'.chans) ∧
    (∀ e ∈ x.tables.syncs, ∀ y, ch.syncs.find? (fun z => z.obj == e.obj) = some y → e.make p ((y.gen + 1) % 0x10000) ∈ ch'.syncs) ∧
    (∀ y ∈ ch'.chans, y.part = p → ∃ e ∈ x.tables.chans, y.id = e.id) ∧
    ∀ q, q ≠ p → (ch'.part q).plate = (ch.part q).plate ∧ (ch'.part q).jobs = (ch.part q).jobs ∧ (ch'.part q).tickIndex = (ch.part q).tickIndex
  let boundary := fun (ch : Chip) => p < ch.parts.length ∧ ch.ticks p = true ∧ ch.startDue p = true ∧ (ch.part p).running = false
  (∀ o : Pending, Makes (.overlayApply c p) c (fun ch => boundary ch ∧ ch.overlayReady p (ch.nextIndex p none) = some o)
    fun ch ch' => applied o.content ch ch' ∧ (ch'.part p).onFallback = false ∧ (ch'.part p).fallback = o.fallback ∧
      ch'.loader.result = 0xFFFF0000 + p * 2 ^ 32) ∧
  Makes (.tickStart c p) c (fun ch => p < ch.parts.length ∧ ch.ticks p = true ∧ ch.startDue p = true ∧ (ch.part p).running = true ∧
      (ch.fallbackReady p (ch.nextIndex p none) = true ∨ (ch.overlayReady p (ch.nextIndex p none)).isSome = true))
    (fun ch ch' => (ch'.part p).applyDue = true ∧ (ch'.part p).running = true ∧ (ch'.part p).plate = (ch.part p).plate ∧
      (ch'.part p).jobs = (ch.part p).jobs) ∧
  (∀ (x : Content) (own : List Content), Makes (.fallbackApply c p) c
    (fun ch => boundary ch ∧ (ch.part p).fallback = x :: own ∧ ch.fallbackReady p (ch.nextIndex p none) = true)
    fun ch ch' => applied x ch ch' ∧ (ch'.part p).onFallback = true ∧ (ch'.part p).fbPending = false ∧ (ch'.part p).fallback = own ∧
      p ∉ ch'.pwr.needFallback)
/-! ## Power and background work -/

/-- A share offer, made while the steward is down, waits for it; it is answered OK and held, BOUNDS outside the table of R881, BUSY while another is held or an entry runs, or FIT with the lowest
RT partition that fails the work test and has no fallback. COMMIT accepts the held share and makes the fallbacks it needs pending; ABANDON and
10 ms drop it. fc rises to the committed value at once, falls when no needed fallback is left, and falls anyway after 2 s; 105 degrees for 10 ms
force 600 MHz until 95 degrees have held for 1 s (R210, R229 to R235, R881 to R885, R889).
Idle begins once its conditions have held and ends with nothing lost; STANDBY and DORMANT are refused BUSY while jobs, overlays, loads, offers
or a pair forbid them, wait for the running ticks, and end in Standby with the outer links down, or, the record sealed, in DORMANT_READY with the
steward held; ACTIVE leaves Standby (R868 to R877). -/
def Obligations.PowerResults : Prop :=
  (let sb := fun (ch : Chip) => ch.takesFrom agSB = true
   let fails := fun (ch : Chip) (f p : Nat) =>
     let q := ch.part p
     q.isDefined = true ∧ q.plate.rt = true ∧ ¬ (q.admUs ≤ q.plate.budget ∧ q.admCycles ≤ (q.plate.budget - q.admUs) * f)
   (Variant.ha720.fcOf 150 = some 1400 ∧ Variant.ha720.fcOf 100 = some 1050 ∧ Variant.ha716.fcOf 130 = some 1400 ∧ Variant.ha708.fcOf 65 = some 700 ∧
     ∀ (v : Variant) (w f : Nat), v.fcOf w = some f → 60 ≤ w ∧ w % 5 = 0 ∧ 600 ≤ f ∧ f ≤ 1400) ∧
   (∀ c w : Nat, w < 256 → Makes (.pwrOffer c w) c (fun ch => sb ch ∧ ch.wdg.steward ≠ .running) fun ch ch' =>
     ch'.decisions = ch.decisions ++ [.offer w] ∧ ch'.pwr = { ch.pwr with offerDone := false }) ∧
   (∀ c w : Nat, w < 256 → Makes (.pwrOffer c w) c (fun ch => sb ch ∧ ch.wdg.steward = .running ∧ ch.decisions = []) fun ch ch' =>
     let r := ch'.pwr
     let busy := ch.pwr.held.isSome = true ∨ ch.pwr.state.entering = true
     r.offerDone = true ∧ r.offerShare = w ∧ r.fc = ch.pwr.fc ∧ r.share = ch.pwr.share ∧ r.state = ch.pwr.state ∧
     match ch.variant.fcOf w with
     | none => r.offerCode = cBOUNDS ∧ r.held = ch.pwr.held
     | some f =>
       let passes := ch.pwr.fc ≤ f ∨ ∀ p, p < 8 → fails ch f p → (ch.part p).fallback ≠ []
       (busy → r.offerCode = cBUSY ∧ r.held = ch.pwr.held) ∧
       (¬ busy → passes → r.offerCode = cOK ∧ r.offerPart = 0xFF ∧ r.held = some (w, f, ch.time)) ∧
       (¬ busy → ¬ passes → r.offerCode = cFIT ∧ r.held = none ∧ r.offerPart < 8 ∧ fails ch f r.offerPart ∧ (ch.part r.offerPart).fallback = [] ∧
         ∀ p, p < r.offerPart → fails ch f p → (ch.part p).fallback ≠ [])) ∧
   (∀ c w f t : Nat, Makes (.pwrCommit c) c (fun ch => sb ch ∧ 8 ≤ ch.parts.length ∧ ch.pwr.held = some (w, f, t)) fun ch ch' =>
     ch'.pwr.held = none ∧ ch'.pwr.share = w ∧ ch'.pwr.target = f ∧ ch'.pwr.fc = ch.pwr.fc ∧ ch'.pwr.acceptedAt = ch.time ∧
     ch'.pwr.state = (if ch.pwr.state = .idle then .active else ch.pwr.state) ∧
     ∀ p, (p ∈ ch'.pwr.needFallback ↔ ch.pwr.fc > f ∧ p < 8 ∧ fails ch f p ∧ (ch.part p).fallback ≠ []) ∧
       (p ∈ ch'.pwr.needFallback → (ch'.part p).fbPending = true)) ∧
   (∀ c : Nat, Makes (.pwrAbandon c) c sb fun ch ch' => ∃ w, ch' = ({ ch with pwr := { ch.pwr with held := none } } : Chip).servedBy agSB w) ∧
   (∀ c w f t : Nat, Acts (.offerExpiry c) c (fun ch => ch.alive = true ∧ ch.pwr.held = some (w, f, t) ∧ t + 10000000 ≤ ch.time)
     fun ch => ({ ch with pwr := { ch.pwr with held := none } } : Chip).ev 0x0B07 warn 0xFF 0xFF cOK 0 w) ∧
   (∀ c : Nat, Acts (.fcChangeDone c) c (fun ch => ch.alive = true ∧ ch.fcRuns = true ∧ ch.pwr.throttled = false ∧
       (ch.pwr.fc ≤ ch.pwr.target ∨ ch.pwr.needFallback = [])) fun ch => { ch with pwr := { ch.pwr with fc := ch.pwr.target } }) ∧
   (∀ c : Nat, Makes (.fallbackTimeout c) c (fun ch => ch.alive = true ∧ ch.pwr.needFallback ≠ [] ∧ ch.pwr.acceptedAt + 2000000000 ≤ ch.time)
     fun ch ch' => ch'.pwr = { ch.pwr with needFallback := [], fc := if ch.pwr.throttled then ch.pwr.fc else ch.pwr.target } ∧
       ch'.mem = ch.mem ∧ ∀ p, (ch'.part p).fbPending = (ch.part p).fbPending) ∧
   (∀ c t : Nat, Acts (.thermalTrip c) c (fun ch => ch.alive = true ∧ ch.pwr.throttled = false ∧ ch.pwr.hotSince = some t ∧ t + 10000000 ≤ ch.time)
     fun ch => ({ ch with pwr := { ch.pwr with fc := 600, throttled := true } } : Chip).ev 0x0B04 err 0xFF 0xFF cOK 0 ch.pwr.dieTemp) ∧
   (∀ c t : Nat, Acts (.thermalClear c) c (fun ch => ch.alive = true ∧ ch.pwr.throttled = true ∧ ch.pwr.coolSince = some t ∧ t + 1000000000 ≤ ch.time)
     fun ch => ({ ch with pwr := { ch.pwr with throttled := false } } : Chip).ev 0x0B05 info)) ∧
  (let keeps := fun (ch ch' : Chip) => ch'.mem = ch.mem ∧ ch'.cores = ch.cores ∧ ch'.chans = ch.chans ∧ ch'.syncs = ch.syncs ∧ ch'.loader = ch.loader
   (∀ c : Nat, Makes (.idleEntry c) c (fun ch => ch.alive = true ∧ ch.pwr.state = .active ∧ ch.pwr.autoIdle = true ∧ ch.idleOk = true ∧
       (ch.pwr.scrubRun = true ∨ ∃ t, ch.pwr.idleSince = some t ∧ t + ch.pwr.idleDelay * 1000000 ≤ ch.time))
     fun ch ch' => ch'.pwr.state = .idle ∧ keeps ch ch') ∧
   (∀ (c : Nat) (scrub : Bool), Makes (.idleExit c scrub) c (fun ch => ch.alive = true ∧ ch.pwr.state = .idle)
     fun ch ch' => ch'.pwr.state = .active ∧ ch'.pwr.scrubRun = scrub ∧ ch'.pwr.idleSince = none ∧ keeps ch ch') ∧
   (∀ c : Nat, SetsSome (.pwrCtrlStandby c ·) c pfOrSb (fun ch => ch.sleepBusy = false ∧ ch.pwr.state ≠ .standby)
     fun _ ch ch' => ch'.pwr.state = .enteringStandby ∧ keeps ch ch') ∧
   (∀ c : Nat, SetsSome (.pwrCtrlStandby c ·) c (· = agSB) (fun ch => ch.sleepBusy = true)
     fun _ ch ch' => ch'.pwr = ch.pwr ∧ ch'.sb.lastError = cBUSY ∧ keeps ch ch') ∧
   (∀ c : Nat, SetsSome (.pwrCtrlActive c ·) c pfOrSb (fun _ => True) fun _ ch ch' =>
     ch'.pwr.state = (if ch.pwr.state = .standby then .exiting else if ch.pwr.state = .idle then .active else ch.pwr.state) ∧ keeps ch ch') ∧
   (∀ c : Nat, SetsSome (.pwrCtrlDormant c ·) c (· = agSB) (fun ch => ch.sleepBusy = false)
     fun _ ch ch' => ch'.pwr.state = .dormantEntry ∧ ch'.pwr.dormSeal = false ∧ keeps ch ch') ∧
   (∀ c : Nat, SetsSome (.pwrCtrlDormant c ·) c (· = agPF) (fun _ => True) fun _ ch ch' => ch'.pwr = ch.pwr ∧ keeps ch ch') ∧
   (∀ c : Nat, Makes (.standbyEntryDone c) c (fun ch => ch.alive = true ∧ ch.pwr.state = .enteringStandby ∧ ch.ticksEnded = true)
     fun ch ch' => ch'.pwr.state = .standby ∧ keeps ch ch' ∧ (∀ n, n ≠ 0 → n < ch.links.length → (ch'.link n).state = .down) ∧
       (ch'.link 0).state = (ch.link 0).state) ∧
   (∀ c : Nat, Makes (.standbyExitDone c) c (fun ch => ch.alive = true ∧ ch.pwr.state = .exiting)
     fun ch ch' => ch'.pwr.state = .active ∧ keeps ch ch' ∧ ∀ n, n ≠ 0 → n < ch.links.length → (ch.link n).state = .down → (ch.link n).forced = false →
       ch.linkGiven n = true → (ch'.link n).state = .training) ∧
   (∀ c : Nat, Makes (.dormantReady c) c (fun ch => ch.alive = true ∧ ch.pwr.state = .dormantEntry ∧ ch.ticksEnded = true)
     fun ch ch' => keeps ch ch' ∧
       if ch.pwr.dormSeal = false then ch'.pwr.dormSeal = true ∧ ch'.pwr.state = .dormantEntry
       else if ch.ler.sealWrites ≠ 0 then ch' = ch
       else ch'.pwr.state = .dormantReady ∧ ch'.wdg.steward = .held))

/-- Background work changes no result: a step changes nothing; the patrol and the scrub report a line that cannot be corrected and leave it, and
correct one that can be; a calibration or an adaptation only notes when it ran; a thermal sample sets the sensors' values (R848, R852 to R858). -/
def Obligations.BackgroundResults : Prop :=
  let keeps := fun (ch ch' : Chip) => ch'.mem = ch.mem ∧ ch'.chans.map Chan.gen = ch.chans.map Chan.gen ∧ ch'.syncs = ch.syncs ∧ ch'.pwr.fc = ch.pwr.fc ∧
    ∀ k, (ch'.core k).s = (ch.core k).s ∧ (ch'.core k).v = (ch.core k).v ∧ (ch'.core k).p = (ch.core k).p ∧ (ch'.core k).pc = (ch.core k).pc ∧
      (ch'.core k).state = (ch.core k).state
  (∀ c : Nat, Acts (.bgStep c) c (fun _ => True) id) ∧
  (∀ (c : Nat) (errs : List (Nat × Bool)), Makes (.dramPatrolLine c errs) c (fun ch => ch.alive = true ∧ ch.pwr.state = .active)
    fun ch ch' =>
      let l := ch.bg.dramPos
      let found := fun (soft : Bool) => ∃ e ∈ errs, e.2 = soft ∧ lineOf e.1 = l
      keeps ch ch' ∧ ch'.bg.dramPos = (if l + 64 < ch.variant.dramBytes then l + 64 else 0) ∧
      (l + 64 < ch.variant.dramBytes → ch'.bg.passes = ch.bg.passes) ∧
      (ch'.badLines.contains l = true ↔ ch.badLines.contains l = true ∨ found false) ∧
      (ch'.badLines.contains l = false → ch'.softLines.contains l = false)) ∧
  (∀ (c kind n line : Nat) (errs : List (Nat × Bool)), Makes (.sramScrubStep c kind n line errs) c
    (fun ch => ch.alive = true ∧ (kind = 2 ∨ kind = 3) ∧ ch.bgPod (if kind = 3 then n else podOf n) = true)
    fun ch ch' =>
      let l := lineOf line
      keeps ch ch' ∧ (ch'.badLines.contains l = true ↔ ch.badLines.contains l = true ∨ ∃ e ∈ errs, e.2 = false ∧ lineOf e.1 = l) ∧
      (ch'.badLines.contains l = false → ch'.softLines.contains l = false)) ∧
  (∀ c die stack power energy : Nat, Makes (.thermalSample c die stack power energy) c (fun ch => ch.stwRuns = true) fun ch ch' =>
    let r := ch'.pwr
    keeps ch ch' ∧ r.dieTemp = die % 0x10000 ∧ r.stackTemp = stack % 0x10000 ∧ r.powerMw = power % 2 ^ 32 ∧ r.energyMj = energy % 2 ^ 64 ∧
    (sgn 16 (die % 0x10000) < 1680 → r.hotSince = none) ∧ (1680 ≤ sgn 16 (die % 0x10000) → r.hotSince = some (ch.pwr.hotSince.getD ch.time)) ∧
    (1520 < sgn 16 (die % 0x10000) → r.coolSince = none) ∧ (sgn 16 (die % 0x10000) ≤ 1520 → r.coolSince = some (ch.pwr.coolSince.getD ch.time)) ∧
    ch'.bg.lastThermal = ch.time) ∧
  (∀ c d : Nat, Makes (.droopCalibration c d) c (fun ch => ch.stwRuns = true ∧ d < ch.pods.length ∧ ch.bgPod d = true)
    fun ch ch' => keeps ch ch' ∧ ch'.pwr = ch.pwr ∧ ch'.bg.lastDroop = ch.bg.lastDroop.set d ch.time) ∧
  (∀ (c n : Nat) (low : Bool), Makes (.serdesAdaptation c n low) c (fun ch => ch.alive = true ∧ n < ch.links.length ∧ (ch.link n).state = .up)
    fun ch ch' => keeps ch ch' ∧ ch'.links = ch.links ∧ ch'.bg.lastSerdes = ch.bg.lastSerdes.set n ch.time) ∧
  (∀ c stack : Nat, Makes (.hbmCalibration c stack) c (fun ch => ch.alive = true ∧ stack < ch.variant.stacks)
    fun ch ch' => keeps ch ch' ∧ ch'.pwr = ch.pwr ∧ ch'.bg.lastHbm = ch.bg.lastHbm.set stack ch.time)
/-! ## The record, the side-band, the registers -/

/-- An event that is raised is never lost: it folds into the newest entry, takes an entry, or is counted in the summary of its class; a FATAL event
takes any free entry and LER_RELEASED always takes one, while any other is counted once 480 entries are occupied or a summary is open (R813,
R817, R823, R825, R836). -/
def Obligations.EventsAreNeverLost : Prop :=
  ∀ (r : Record) (e : Entry), e.cls < 4 → e.reps = 0 → r.sums.length = 4 → (∀ i ∈ r.fifo, i.entry.reps < 0xFFFF) →
    let held := fun (x : Record) => (x.fifo.map fun i => i.entry.reps + 1).sum + (x.sums.map fun o => (o.map Summary.count).getD 0).sum
    held (r.raise e) = held r + 1 ∧
    ((r.raise e).fifo.length = r.fifo.length ∨ ∃ i : FifoItem, i.entry = e ∧ i.recorded = false ∧ i.forwarded = false ∧ (r.raise e).fifo = r.fifo ++ [i]) ∧
    (r.foldable = none → r.sums.all Option.isNone = true → r.fifo.length < (if e.cls = 3 then 512 else 480) →
      ∃ i : FifoItem, i.entry = e ∧ (r.raise e).fifo = r.fifo ++ [i]) ∧
    (e.id = 3 → ∃ i : FifoItem, i.entry = e ∧ (r.raise e).fifo = r.fifo ++ [i]) ∧
    (r.foldable = none → e.id ≠ 3 → e.cls ≠ 3 → 480 ≤ r.fifo.length → (r.raise e).fifo = r.fifo ∧
      ((r.raise e).sums.getD e.cls none).isSome = true)

/-- A buffer that is flushed, by age or by LER_CTRL, is written under the next sequence number to a slot that no held window keeps, or waits for the
write in flight; a write that is done is the newest frame, and its window is held where it carries HOLD. RELEASE lets go every window up to the
newest frame and is recorded. The scan takes up the newest valid frame; the patrol reports a slot that the MRAM cannot correct; the steward forwards
entries oldest first; FATAL_ACK acknowledges the oldest FATAL entry (R808, R809, R819, R820, R822, R830 to R837, R840, R856). -/
def Obligations.RecordResults : Prop :=
  let flushed := fun (ch ch' : Chip) =>
    let r := ch.ler
    (r.writing = none → ∃ slot f, ch'.ler.writing = some (slot, f) ∧ f.entries = r.filling ∧ f.sequence = r.nextSeq ∧ f.bootCount = r.bootCount ∧
      f.time = ch.time ∧ slot = r.findSlot 4096 r.nextSlot ∧ ch'.ler.nextSeq = r.nextSeq + 1 ∧ ch'.ler.mram = r.mram) ∧
    ∀ w, r.writing = some w → ch'.ler.writing = some w ∧ ch'.ler.mram = r.mram ∧ ∃ f, ch'.ler.closed = some f ∧ f.entries = r.filling
  let full := fun (ch : Chip) => ch.ler.filling ≠ [] ∧ ch.ler.closed = none
  (∀ c : Nat, Makes (.lerFlushAge c) c (fun ch => ch.alive = true ∧ full ch ∧ ch.ler.fillSince + bitsOf ch.ler.lerCfg 8 8 * 10000000 ≤ ch.time)
    fun ch ch' => flushed ch ch') ∧
  (∀ c : Nat, SetsSome (.lerCtrlFlush c ·) c pfOrSb full fun _ ch ch' => flushed ch ch') ∧
  (∀ c slot f, Makes (.lerFrameWriteDone c) c (fun ch => ch.ler.writing = some (slot, f) ∧ ch.boot.stage ≠ .reset) fun ch ch' =>
    ch'.ler.mram.lookup slot = some (.frame f) ∧ (∀ j, j ≠ slot → ch'.ler.mram.lookup j = ch.ler.mram.lookup j) ∧
    ch'.ler.newestSeq = f.sequence ∧ ch'.ler.newestSlot = slot ∧
    ch'.ler.held = (if bitOf f.flags 0 = true then ch.ler.held ++ [(f.sequence, slot)] else ch.ler.held) ∧
    (ch'.ler.freezeLost = ch.ler.freezeLost + if (f.entries.any fun e => e.cls == 3) && !bitOf f.flags 0 then 1 else 0) ∧
    (ch.ler.closed = none → ch.ler.filling = [] → ch.ler.fifo = [] → ch.ler.sums.all Option.isNone = true → bitOf f.flags 0 = true → ch'.ler.writing = none)) ∧
  (∀ c : Nat, SetsSome (.lerCtrlRelease c ·) c pfOrSb (fun _ => True) fun a ch ch' =>
    (∀ w ∈ ch'.ler.held, w ∈ ch.ler.held ∧ ch.ler.newestSeq < w.1) ∧ (∀ w ∈ ch.ler.held, ch.ler.newestSeq < w.1 → w ∈ ch'.ler.held) ∧
    ∃ e ∈ ch'.ler.recent, e.id = 3 ∧ e.agent = a ∧ e.arg0 = ch.ler.newestSeq) ∧
  (∀ c e rest, Makes (.fatalAck c) c (fun ch => ch.takesFrom agSB = true ∧ ch.ler.fatals = e :: rest) fun ch ch' =>
    ch'.ler = { ch.ler with fatals := rest } ∧ ch'.out = (if rest = [] then .pin pinAlert true :: ch.out else ch.out)) ∧
  (∀ c i, Makes (.eventForward c) c (fun ch => ch.alive = true ∧ ch.wdg.steward = .running ∧ ch.ler.fifo.findIdx? (fun x => !x.forwarded) = some i)
    fun ch ch' =>
      let left := fun (x : Chip) => (x.ler.fifo.filter fun y => !y.forwarded).map fun y => { y.entry with reps := 0 }
      ∃ new, left ch' = (left ch).tail ++ new) ∧
  (∀ c : Nat, Makes (.lerScan c) c (fun ch => ch.atStage .lerScan = true) fun ch ch' =>
    ch'.boot.stage = .ready ∧ ch'.ler.scanDone = true ∧ ch'.ler.mram = ch.ler.mram ∧
    match ch.ler.frames.getLast? with
    | none => ch'.ler.bootCount = 1
    | some (slot, f) => ch'.ler.bootCount = (f.bootCount + 1) % 2 ^ 32 ∧ ch'.ler.newestSeq = f.sequence ∧ ch'.ler.newestSlot = slot ∧
        ch'.ler.held.length ≤ 4 ∧ (∀ w ∈ ch'.ler.held, ∃ g, (w.2, g) ∈ ch.ler.frames ∧ g.sequence = w.1 ∧ bitOf g.flags 0 = true)) ∧
  (∀ c slot x, Makes (.lerPatrol c slot true) c (fun ch => ch.alive = true ∧ ch.ler.writing = none ∧ ch.ler.sealWrites = 0 ∧ slot < 4096 ∧
      ch.ler.mram.lookup slot = some x) fun ch ch' =>
    ch'.ler.mram.lookup slot = some (.torn true) ∧ ∀ j, j ≠ slot → ch'.ler.mram.lookup j = ch.ler.mram.lookup j) ∧
  ∀ c slot : Nat, Acts (.lerPatrol c slot false) c (fun _ => True) id

/-- The side-band answers while its chip runs, and does not acknowledge otherwise. ADDR, LER_FRAME and LER_RELEASE keep what is in bounds and note
BOUNDS for the rest in STATUS byte 1; DATA32 and DATA64 read and write the register at ADDR, and ADDR moves on; LER_READ gives the frame's next
32 bytes, or BUSY while its slot is written; STATUS gives its nine bytes and clears the error; RESET asks for the reset of its kind; a wrong PEC
performs nothing (R103 to R113, R838, R942).
A register access is checked in the order of R966, and the first check that fails decides: size and alignment ALIGN, a gap BOUNDS, an absent
register ignored, permission PERM (to the side-band, ignored), state BUSY, value BOUNDS. A refused write changes no register; a read-only register
ignores writes. Of the writes of one cycle to a register, the higher agent's comes second (R971), whichever stood first in the queue (DEDUCED, log entry 72). TIME's upper half is latched by a read of the lower; a register access starts fc in Idle; POD.SE_CTX_ARM arms the core's context
(R15, R91, R102, R110, R122, R555, R964 to R968, R973, R978, R982). -/
def Obligations.SideBandAndRegisterResults : Prop :=
  (let on := fun (ch : Chip) => ch.alive = true
   let at' := fun (ch : Chip) => ({ ch with sb := { ch.sb with served := ch.time } } : Chip)
   (∀ c off, AtAddress (.sbAddr c off) c on fun ch ch' =>
     let x := at' ch
     ch' = { x with sb := if off < 0x1000000 then { x.sb with addr := off } else { x.sb with lastError := cBOUNDS } }) ∧
   (∀ c n, AtAddress (.lerFrame c n) c on fun ch ch' =>
     let x := at' ch
     ch' = { x with sb := if n < 4096 then { x.sb with frame := n, pos := 0 } else { x.sb with lastError := cBOUNDS } }) ∧
   (∀ c v, AtAddress (.lerRelease c v) c on fun ch ch' =>
     if v = 1 then ∀ w ∈ ch'.ler.held, w ∈ ch.ler.held ∧ ch.ler.newestSeq < w.1
     else ch' = { at' ch with sb := { (at' ch).sb with lastError := cBOUNDS } }) ∧
   (∀ (i : Nat → Sys2Proof.Instr) (size : Nat), (i = .sbData32Read ∧ size = 4) ∨ (i = .sbData64Read ∧ size = 8) →
     ∀ c, AtAddress (i c) c on fun ch ch' =>
       let r := (at' ch).regRead agSB ch.sb.addr size
       ch'.sb.addr = (ch.sb.addr + size) % 2 ^ 32 ∧ ch'.sb.lastError = r.1.sb.lastError ∧ ch'.mem = r.1.mem ∧ ch'.cores = r.1.cores ∧
       ch'.out.head? = some (.sideBand (r.2.1 :: leBytes size r.2.2))) ∧
   (∀ (i : Nat → Nat → Sys2Proof.Instr) (size : Nat), (i = .sbData32Write ∧ size = 4) ∨ (i = .sbData64Write ∧ size = 8) →
     ∀ c v, AtAddress (i c v) c on fun ch ch' =>
       let r := (at' ch).regWrite agSB ch.sb.addr size v
       (r.2 = cOK → ch' = { r.1 with sb := { r.1.sb with served := r.1.time, addr := (r.1.sb.addr + size) % 2 ^ 32 } }) ∧
       (r.2 ≠ cOK → ch'.sb.lastError = r.2 ∧ ch'.sb.addr = (r.1.sb.addr + size) % 2 ^ 32 ∧ ch'.mem = r.1.mem ∧ ch'.cores = r.1.cores)) ∧
   (∀ c, AtAddress (.lerRead c) c on fun ch ch' =>
     (∀ f, ch.ler.writing = some (ch.sb.frame, f) → ch'.sb = (at' ch).sb ∧ ch'.out = .sideBand (cBUSY :: List.replicate 32 0) :: ch.out) ∧
     (ch.ler.writing = none → ∀ f, ch.ler.mram.lookup ch.sb.frame = some (.frame f) →
       ch'.out = .sideBand (cOK :: sliceB f.bytes (32 * ch.sb.pos) 32) :: ch.out ∧
       (ch.sb.pos + 1 < 128 → ch'.sb.pos = ch.sb.pos + 1 ∧ ch'.sb.frame = ch.sb.frame) ∧
       (128 ≤ ch.sb.pos + 1 → ch'.sb.pos = 0 ∧ ch'.sb.frame = (ch.sb.frame + 1) % 4096)) ∧
     (ch.ler.writing = none → ch.ler.mram.lookup ch.sb.frame = some (.torn true) →
       ch'.out = .sideBand (cECC :: List.replicate 32 0) :: ch.out)) ∧
   (∀ c kind key, AtAddress (.sbReset c kind key) c on fun ch ch' =>
     let ok := key = 0xA5 ∧ (kind = 1 ∨ kind = 2 ∨ kind = 3)
     (ok → ch.boot.pendingReset = none →
       ch'.boot.pendingReset = some (if kind = 1 then .warm else if kind = 2 then .cold else .sideband) ∧ ch'.mem = ch.mem ∧ ch'.cores = ch.cores) ∧
     (¬ ok → ch' = { at' ch with sb := { (at' ch).sb with lastError := cBOUNDS } })) ∧
   (∀ c, AtAddress (.sbStatus c) c on fun ch ch' =>
     ch'.sb.lastError = cOK ∧ ch'.out = .sideBand ([cOK, ch.sb.lastError, ch.stateByte, 0] ++ leBytes 4 ch.wdg.heartbeat ++ [ch.ler.bootCount % 256]) :: ch.out) ∧
   (∀ c code, code ∉ [0x21, 0x40] → AtAddress (.sbBadPec c code) c (fun _ => True) fun ch ch' => ch' = ch.emit .sideBandNack) ∧
   ∀ (i : Nat → Sys2Proof.Instr), (∃ x, i = (.sbAddr · x)) ∨ (∃ x, i = (.lerFrame · x)) ∨ (∃ x, i = (.lerRelease · x)) ∨ i = .sbData32Read ∨ i = .sbData64Read ∨
       (∃ x, i = (.sbData32Write · x)) ∨ (∃ x, i = (.sbData64Write · x)) ∨ i = .lerRead ∨ (∃ x y, i = (.sbReset · x y)) ∨ i = .sbStatus →
     (∀ c, AtAddress (i c) c (fun ch => ch.alive = false) fun ch ch' => ch' = ch.emit .sideBandNack) ∧
     ∀ (s : State) (c : Nat), (∀ ch ∈ s.chips, 0x40 + ch.boot.straps ≠ c) → exec (i c) s = .next s) ∧
  (let kept := fun (ch ch' : Chip) => ch'.mem = ch.mem ∧ ch'.cores = ch.cores ∧ ch'.pods = ch.pods ∧ ch'.loader = ch.loader ∧ ch'.wdg = ch.wdg ∧
     ch'.pwr.fc = ch.pwr.fc ∧ ch'.boot = ch.boot ∧ ch'.twin = ch.twin
   (∀ (ch : Chip) (a off size v : Nat), (isSb a = true → ch.boot.pendingReset = none ∧ ch.boot.stage ≠ .reset) →
       (ch.regLog.all fun w => w.at' != ch.time || regRank w.agent ≤ regRank a) = true →
     let r := ch.regWrite a off size v
     (¬ ((size = 4 ∨ size = 8) ∧ off % size = 0) → r = (ch, cALIGN)) ∧
     ((size = 4 ∨ size = 8) → off % size = 0 → blockOf off = none → r = (ch, cBOUNDS)) ∧
     (∀ b o, (size = 4 ∨ size = 8) → off % size = 0 → blockOf off = some (b, o) →
       (size = 4 → ch.wide b o = true → r = (ch, cALIGN)) ∧
       ((size = 4 → ch.wide b o = false) → ch.absentAll b o size = true → r.2 = cOK ∧ kept ch r.1) ∧
       (r.2 ≠ cOK → kept ch r.1) ∧
       (isSb a = true → a = agSB → r.2 ≠ cPERM))) ∧
   (∀ (ch : Chip) (a off size : Nat), (isSb a = true → ch.boot.pendingReset = none ∧ ch.boot.stage ≠ .reset) →
     (¬ ((size = 4 ∨ size = 8) ∧ off % size = 0) → ch.regRead a off size = (ch, cALIGN, 0)) ∧
     ((size = 4 ∨ size = 8) → off % size = 0 → blockOf off = none → ch.regRead a off size = (ch, cBOUNDS, 0))) ∧
   (∀ (ch : Chip) (d v e f : Nat) (b : Bool), 0 < d → d < 256 → v < 2 ^ 32 → bitsOf v 8 8 ≠ 0 →
       (e = agPF ∧ f = agTAP) ∨ (e = agPF ∧ f = agSB) ∨ (e = agTAP ∧ f = agSB) → ch.boot.pendingReset = none →
       ch.boot.stage ≠ .reset → (ch.regLog.all fun w => w.at' != ch.time) = true →
     let mine := fun (x : Chip) => x.regWrite f 0x60018 4 (256 * d + b2n b)
     let other := fun (x : Chip) => x.regWrite e 0x60018 4 v
     (mine ch).2 = cOK ∧ (other (mine ch).1).2 = cOK ∧
     (other (mine ch).1).1.pwr = { ch.pwr with idleDelay := d, autoIdle := b } ∧
     (mine (other ch).1).1.pwr = { ch.pwr with idleDelay := d, autoIdle := b }) ∧
   (∀ (c a off size v : Nat), Makes (.registerWrite c a off size v) c (fun ch => ch.agentUp a = true)
     fun ch ch' => ch' = (ch.regWrite a off size v).1.reportWrite a off size (ch.regWrite a off size v).2) ∧
   (∀ (c a v : Nat), pfOrSb a → Makes (.registerWrite c a 0x60018 4 v) c (fun ch => ch.takesFrom a = true ∧ v < 2 ^ 32)
     fun ch ch' => if bitsOf v 8 8 = 0 then ch'.pwr = ch.pwr else ch'.pwr = { ch.pwr with idleDelay := bitsOf v 8 8, autoIdle := bitOf v 0 }) ∧
   (∀ (c a v : Nat), Makes (.registerWrite c a 0x60004 4 v) c (fun ch => ch.takesFrom a = true) fun ch ch' => ch'.pwr = ch.pwr ∧ kept ch ch') ∧
   (∀ c a : Nat, Makes (.timeLowRead c a) c (fun ch => ch.takesFrom a = true ∧ (a < 0x40 ∨ pfOrSb a)) fun ch ch' =>
     ch'.out = .value a cOK (ch.time % 2 ^ 32) :: ch.out ∧ ch'.timeLatch.lookup a = some (ch.time / 2 ^ 32 % 2 ^ 32) ∧ ch'.time = ch.time ∧ kept ch ch') ∧
   (∀ c a k, Makes (.unitBlockAccessIdle c a (0x300000 + 0x1000 * k) 4) c (fun ch => k < 64 ∧ isSb a = true ∧ ch.takesFrom a = true ∧
       ch.pwr.state = .idle) fun ch ch' => ch'.pwr.state = .active ∧ ch'.mem = ch.mem ∧ ch'.cores = ch.cores ∧ ∃ v, ch'.out.head? = some (.value a cOK v)) ∧
   ∀ c k d x far : Nat, Makes (.seCtxArmWrite c k d x far) c (fun ch => ch.takesFrom k = true ∧ k < 64 ∧ d < 8 ∧ x < 32 ∧ far < 2 ^ 64 ∧
       ch.regAbsent (.pod d) (0x1010 + 0x20 * x) = false ∧ ch.pwr.state = .active)
     fun ch ch' => ((ch.ctxArm k d x far).1 = cOK → ∃ w, ch' = { (ch.ctxArm k d x far).2 with regLog := w }) ∧
       ((ch.ctxArm k d x far).1 ≠ cOK → kept ch ch' ∧ ch'.out.head? = some (.value k (ch.ctxArm k d x far).1 0)))

/-! ## The host interface -/

/-- A doorbell of partition `p`, written by the function that owns its rings, ends Idle and moves its counter, if the ring is enabled and not in
ERROR. A tail more than N beyond the consumer or behind the previous tail, and a head beyond the producer, put the ring in ERROR with BOUNDS, and
RING_ERROR is raised; room in a completion ring is taken by the completions that wait, in their order. The chip page's EVT_HEAD does the same for
the chip event ring (R871, R899, R909, R910, R912, R922).
A function that does not own a ring is refused its doorbell with PERM, a host access in an enabled BAR is refused with the code of the rule
that forbids it, and then a read gives all ones, a write is discarded, FN_ERR keeps the first refusal's BAR, offset and code, and MULTI
the later ones. An access outside every enabled BAR is an Unsupported Request (R899, R904 to R906, R941). -/
def Obligations.DoorbellAndRefusalResults : Prop :=
  (let rung := fun (fn p : Nat) (ch : Chip) => ch.fnAnswers fn = true ∧ p < 8 ∧ p < ch.variant.maxParts ∧ (fn = 0 ∨ fn = p + 1) ∧ ch.ownerFn p = fn
   let runs := fun (r : Rings) (i : Nat) => r.en.testBit i && !r.err.testBit i
   let gap := fun (x y : Nat) => (x + 2 ^ 32 - y % 2 ^ 32) % 2 ^ 32
   let failed := fun (a : Chip) (fn p i : Nat) =>
     ((a.modRing p fun r => { r with err := r.err ||| 2 ^ i, errCode := cBOUNDS }).ev 0x0C01 warn 0xFF p cBOUNDS 0 (fn * 256 + i)).firePart p 3
   (∀ c fn p v, Acts (.cmdTail c fn p v) c (rung fn p) fun ch =>
     let a := ch.leaveIdle
     let r := a.ring p
     let w := v % 2 ^ 32
     if runs r 0 = false then a
     else if 2 ^ (r.sizes % 16) < gap w r.cmdCons ∨ gap w r.cmdCons < gap r.cmdTail r.cmdCons then failed a fn p 0
     else a.modRing p fun x => { x with cmdTail := w }) ∧
   (∀ c fn p v, Acts (.evtHead c fn p v) c (rung fn p) fun ch =>
     let a := ch.leaveIdle
     let r := a.ring p
     let w := v % 2 ^ 32
     if runs r 2 = false then a else if gap r.evtProd r.evtHead < gap w r.evtHead then failed a fn p 2
     else a.modRing p fun x => { x with evtHead := w }) ∧
   (∀ c fn p v, Acts (.tlmHead c fn p v) c (rung fn p) fun ch =>
     let a := ch.leaveIdle
     let r := a.ring p
     let w := v % 2 ^ 32
     if runs r 3 = false then a else if gap r.tlmProd r.tlmHead < gap w r.tlmHead then failed a fn p 3
     else a.modRing p fun x => { x with tlmHead := w }) ∧
   (∀ c fn p v, Makes (.cplHead c fn p v) c (rung fn p) fun ch ch' =>
     let a := ch.leaveIdle
     let r := a.ring p
     let w := v % 2 ^ 32
     (runs r 1 = false → ch' = a) ∧
     (runs r 1 = true → gap r.cplProd r.cplHead < gap w r.cplHead → ch' = failed a fn p 1) ∧
     (runs r 1 = true → ¬ gap r.cplProd r.cplHead < gap w r.cplHead → r.cplProd < 2 ^ 32 → ∃ n, n ≤ r.waiting.length ∧
       (ch'.ring p).cplHead = w ∧ (ch'.ring p).waiting = r.waiting.drop n ∧ (ch'.ring p).cplProd = (r.cplProd + n) % 2 ^ 32 ∧
       ((ch'.ring p).waiting ≠ [] → r.size 1 ≤ gap (ch'.ring p).cplProd w) ∧ ch'.mem = ch.mem ∧ ch'.cores = ch.cores)) ∧
   ∀ c v, Acts (.evtHead c 0 8 v) c (fun ch => ch.fnAnswers 0 = true) fun ch =>
     let a := ch.leaveIdle
     let h := a.host
     let w := v % 2 ^ 32
     if h.chipEvtCtrl.testBit 0 = false ∨ h.chipEvtErr = true then a
     else if gap h.chipEvtProd h.chipEvtHead < gap w h.chipEvtHead then
       ({ a with host := { h with chipEvtErr := true } } : Chip).ev 0x0C01 warn 0xFF 0xFF cBOUNDS 0 4
     else { a with host := { h with chipEvtHead := w } }) ∧
  (let noted := fun (fn bar off code : Nat) (ch ch' : Chip) =>
     (ch'.host.fnErr = ch.host.fnErr.modify fn fun e => if e.valid then { e with multi := true } else { valid := true, multi := false, offset := off, bar := bar, code := code }) ∧
     ch'.mem = ch.mem ∧ ch'.cores = ch.cores ∧ ch'.host.rings.map Rings.cmdTail = ch.host.rings.map Rings.cmdTail
   (∀ (i : Nat → Nat → Nat → Nat → Sys2Proof.Instr) (o : Nat), (i = .cmdTail ∧ o = 0) ∨ (i = .cplHead ∧ o = 8) ∨ (i = .evtHead ∧ o = 0x10) ∨ (i = .tlmHead ∧ o = 0x18) →
     ∀ c p v, Makes (i c 0 p v) c (fun ch => ch.fnAnswers 0 = true ∧ p < 8 ∧ p < ch.variant.maxParts ∧ ch.ownerFn p ≠ 0)
       fun ch ch' => noted 0 2 (p * 0x1000 + o) cPERM ch ch') ∧
   (∀ c fn bar off len v, Makes (.hostRefusedAccess c fn bar off len false v) c
     (fun ch => ch.fnAnswers fn = true ∧ off + len ≤ ch.barSize fn bar ∧ ch.hostCode fn bar off len false v ≠ cOK)
     fun ch ch' => noted fn bar off (ch.hostCode fn bar off len false v) ch ch' ∧
       ch'.out.head? = some (.hostRead fn (List.replicate len 0xFF) false)) ∧
   (∀ c fn bar off len v, Makes (.hostRefusedAccess c fn bar off len true v) c
     (fun ch => ch.fnAnswers fn = true ∧ off + len ≤ ch.barSize fn bar ∧ ch.hostCode fn bar off len true v ≠ cOK)
     fun ch ch' => noted fn bar off (ch.hostCode fn bar off len true v) ch ch') ∧
   (∀ (ch : Chip) fn off len w v, ¬ (len = 4 ∧ off % 4 = 0) → ch.hostCode fn 2 off len w v = cALIGN) ∧
   (∀ c fn bar off len w v, Acts (.hostRefusedAccess c fn bar off len w v) c (fun ch => ch.fnAnswers fn = true ∧ ch.barSize fn bar < off + len)
     fun ch => ch.emit (.unsupported fn)) ∧
   ∀ (c fn : Nat) (i : Sys2Proof.Instr), (∃ p v, p ≤ 8 ∧ (i = .cmdTail c fn p v ∨ i = .cplHead c fn p v ∨ i = .evtHead c fn p v ∨ i = .tlmHead c fn p v)) ∨
       (∃ off len w d, i = .bar4Access c fn off len w d) ∨ (∃ bar off len w v, i = .hostRefusedAccess c fn bar off len w v) →
     Acts i c (fun ch => ch.fnAnswers fn = false) fun ch => ch.emit (.unsupported fn))

/-- The PF's BAR4 reaches DRAM from BAR4_BASE on, a VF's the DRAM of its partition; what lies beyond the DRAM, in a spill region or in the staging
region is BOUNDS, and everything is BUSY while the DRAM sleeps. A write stores its bytes, a read gives them, or a poisoned answer and a violation
where they cannot be corrected (R901, R903, R906).
A configuration write sets what its field names, of a function that is there. The endpoint comes up once a tick has begun or no plate is awaited.
PERST#, a link down and a hot reset reset every configuration space and HOSTQ register, and leave the plate, the partitions, the stores and the
record; PERST# on the tray's connector does so for every chip. A Function Level Reset does it for one function and its partition, whose jobs are
retired. A completed host request goes to its agent with its code, HOST_MEM_ERROR where it is not OK (R31, R895 to R901, R907, R937, R938, R956).
The fields that a write names are the model's choice (PRESUMED, log entry 32). -/
def Obligations.Bar4AndEndpointResults : Prop :=
  (let answers := fun (fn off len : Nat) (ch : Chip) => ch.fnAnswers fn = true ∧ off + len ≤ 2 ^ (if fn = 0 then ch.host.pfBar4 else ch.host.vfBar4)
   let base := fun (ch : Chip) (fn off : Nat) => (if fn = 0 then ch.host.bar4Base else (ch.part (fn - 1)).plate.dramBase) + off
   let bounds := fun (ch : Chip) (fn off len : Nat) =>
     let a := base ch fn off
     (fn ≠ 0 ∧ ((ch.part (fn - 1)).isDefined = false ∨ (ch.part (fn - 1)).plate.dramSize < off + len)) ∨ ch.variant.dramBytes < a + len ∨
     ch.variant.dramBytes - 0x4000000 < a + len ∨
     ∃ p ∈ ch.defined, let y := (ch.part p).plate
       y.spill ≠ 0 ∧ a < y.dramBase + y.dramSize ∧ y.dramBase + y.dramSize - y.spill < a + len
   (∀ (ch : Chip) (fn off len : Nat), (bounds ch fn off len → ch.bar4Addr fn off len = .error cBOUNDS) ∧
     (¬ bounds ch fn off len → ch.bar4Addr fn off len = if ch.dramAsleep = true then .error cBUSY else .ok (base ch fn off))) ∧
   (∀ c fn off len data a, Makes (.bar4Access c fn off len true data) c (fun ch => answers fn off len ch ∧ ch.leaveIdle.bar4Addr fn off len = .ok a ∧
       ch.leaveIdle.writeCode a len = cOK ∧ data.length = len ∧ Memory.wf ch.mem = true) fun ch ch' =>
     Stored ch.mem ch'.mem a data ∧ ch'.cores = ch.cores ∧ ch'.host = ch.host) ∧
   (∀ c fn off len data a, Makes (.bar4Access c fn off len false data) c (fun ch => answers fn off len ch ∧ ch.leaveIdle.bar4Addr fn off len = .ok a)
     fun ch ch' => ch'.mem = ch.mem ∧ ch'.cores = ch.cores ∧
       ch'.out.head? = some (.hostRead fn (ch.leaveIdle.see none a len) (ch.leaveIdle.bad a len)) ∧
       (ch.leaveIdle.bad a len = true → ch'.rcv.violTotal = ch.rcv.violTotal + 1)) ∧
   ∀ c fn off len data code, Makes (.bar4Access c fn off len false data) c (fun ch => answers fn off len ch ∧ ch.leaveIdle.bar4Addr fn off len = .error code)
     fun ch ch' => ch'.mem = ch.mem ∧ ch'.out.head? = some (.hostRead fn (List.replicate len 0xFF) false)) ∧
  (let there := fun (fn : Nat) (ch : Chip) => ch.alive = true ∧ ch.boot.pcie = .up ∧ (fn = 0 ∨ (ch.host.vfEnable = true ∧ fn ≤ ch.host.numVfs))
   let kept := fun (ch ch' : Chip) => ch'.mem = ch.mem ∧ ch'.cores = ch.cores ∧ ch'.loader = ch.loader ∧ ch'.pwr = ch.pwr ∧
     ch'.ler.mram = ch.ler.mram ∧ ∀ p, (ch'.part p).plate = (ch.part p).plate
   let fresh := fun (h : HostIf) => h.fns = List.replicate 9 {} ∧ h.numVfs = 0 ∧ h.vfEnable = false ∧ h.pfBar4 = 34 ∧ h.vfBar4 = 32 ∧ h.bar4Base = 0 ∧
     h.chipEvtCtrl = 0 ∧ h.chipEvtBase = 0 ∧ h.vectors = [] ∧ h.fnErr = List.replicate 9 {} ∧
     ∀ r ∈ h.rings, r.en = 0 ∧ r.sizes = 0 ∧ r.err = 0 ∧ r.cmdBase = 0 ∧ r.cplBase = 0 ∧ r.waiting = [] ∧ r.fetched = [] ∧ r.live = []
   (∀ c fn v, Makes (.pcieConfigWrite c fn 0 v) c (there fn) fun ch ch' =>
     ch' = { ch with host := { ch.host with fns := ch.host.fns.modify fn fun f => { f with bme := v.testBit 0 } } }) ∧
   (∀ c fn v, Makes (.pcieConfigWrite c fn 1 v) c (there fn) fun ch ch' =>
     ch' = { ch with host := { ch.host with fns := ch.host.fns.modify fn fun f => { f with d3hot := decide (v % 4 = 3) } } } ∧ ch'.pwr = ch.pwr) ∧
   (∀ c v, Makes (.pcieConfigWrite c 0 3 v) c (there 0) fun ch ch' => ch'.host.vfEnable = v.testBit 0 ∧ ch'.host.numVfs = ch.host.numVfs ∧ kept ch ch') ∧
   (∀ c v, Makes (.pcieConfigWrite c 0 2 v) c (there 0) fun ch ch' => kept ch ch' ∧
     ch'.host = (if ch.host.vfEnable = false ∧ v ≤ ch.variant.maxParts then { ch.host with numVfs := v } else ch.host)) ∧
   (∀ c fn v, Makes (.pcieConfigWrite c fn 4 v) c (there fn) fun ch ch' =>
     ch' = { ch with host := { ch.host with fns := ch.host.fns.modify fn fun f => { f with mem := v.testBit 0 } } }) ∧
   (∀ c fn v, Makes (.pcieConfigWrite c fn 5 v) c (there fn) fun ch ch' => ch'.host =
     (if fn = 0 ∧ 30 ≤ v ∧ v ≤ 38 then { ch.host with pfBar4 := v } else if fn ≠ 0 ∧ 30 ≤ v ∧ v ≤ 36 then { ch.host with vfBar4 := v } else ch.host)) ∧
   (∀ (s : State) (c fn v : Nat) (ch : Chip), s.chips[c]? = some ch → there fn ch → exec (.pcieConfigWrite c fn 6 v) s =
     let device := match ch.variant with | .ha720 => 0x0720 | .ha716 => 0x0716 | .ha708 => 0x0708
     .next (s.withChip c (ch.emit (.identity c fn ([0x1F3C, if fn = 0 then device else device + 0x8000, 0x120000, 1, 0x1F3C,
       match s.trayType with | .st4 => 0x0004 | .st2 => 0x0002] ++ if fn = 0 then [ch.variant.maxParts, 1, 1] else []))))) ∧
   (∀ (s : State) (c : Nat) (ch : Chip), s.chips[c]? = some ch → ch.alive = true → ch.boot.pcie = .training →
     (ch.boot.pcieFirst = true → (ch.part 0).ticked = true) → exec (.pcieLinkUp c) s = .next (s.withChip c (if s.port.perst = true then ch
       else ({ ch with boot := { ch.boot with pcie := .up } } : Chip).emit (.pin pinPort true)))) ∧
   (∀ c kind, 1 ≤ kind → kind ≤ 3 → Makes (.hostLinkReset c kind) c (fun ch => ch.alive = true ∧ ch.boot.pcie = .up) fun ch ch' =>
     fresh ch'.host ∧ ch'.boot.pcie = .training ∧ kept ch ch' ∧ ∀ p, (ch'.part p).jobs = (ch.part p).jobs) ∧
   (∀ (s : State) (low a b : Bool), ∃ s' : State, exec (.hostPerst low a b) s = .next s' ∧
     s'.port = { cableA := a, cableB := b, perst := low && a } ∧ s'.port.width = (if a = false then 0 else if b = true then 16 else 8) ∧
     s'.tmc = s.tmc ∧ s'.pending = s.pending ∧ s'.chips.length = s.chips.length ∧
     ∀ (c : Nat) (ch : Chip), s.chips[c]? = some ch →
       (s'.port.perst = true → s.port.perst = false → exec (.hostLinkReset c 1) s = .next (s.withChip c (s'.chips.getD c {}))) ∧
       (s'.port.perst = s.port.perst → s'.chips[c]? = some ch) ∧
       (s'.port.perst = false → s.port.perst = true → s'.chips[c]? = some (if ch.boot.pcie = .training then
         { ch with boot := { ch.boot with pcieSince := ch.time } } else ch))) ∧
   (∀ c, Makes (.flr c 0) c (there 0) fun ch ch' => ch'.host.vfEnable = false ∧ ch'.host.numVfs = 0 ∧ ch'.mem = ch.mem ∧ ch'.loader = ch.loader ∧
     (ch'.pwr.state = ch.pwr.state ∨ (ch.pwr.state = .idle ∧ ch'.pwr.state = .active)) ∧
     (∀ p ∈ ch.defined, if (ch.part p).running = true then (ch'.part p).retireAll = true else (ch'.part p).jobs = []) ∧
     ∀ p, (ch'.part p).plate = (ch.part p).plate) ∧
   (∀ c fn, 1 ≤ fn → fn ≤ 8 → Makes (.flr c fn) c (there fn) fun ch ch' => ch'.host.numVfs = ch.host.numVfs ∧ ch'.host.vfEnable = true ∧ ch'.mem = ch.mem ∧
     (ch'.ring (fn - 1)).en = 0 ∧ (ch'.ring (fn - 1)).waiting = [] ∧ (ch.host.fns.length = 9 → ch'.host.fns.getD fn {} = {}) ∧
     (fn - 1 ∈ ch.defined → if (ch.part (fn - 1)).running = true then (ch'.part (fn - 1)).retireAll = true else (ch'.part (fn - 1)).jobs = []) ∧
     ∀ p, p + 1 ≠ fn → ch'.ring p = ch.ring p ∧ (ch'.part p).jobs = (ch.part p).jobs) ∧
   ∀ c id code data r, Acts (.hostMemCompletion c id code data) c (fun ch => ch.alive = true ∧ ch.remote id = some r ∧ r.link = noLink) fun ch =>
     (if code = cOK then ch else ch.ev 0x0C05 err 0xFF 0xFF code (r.addr - hostBase) (ch.ownerFn r.part)).requestDone r code data)

/-- A burst of commands is read from the ring at the slot of the consumer counter; the counter advances by the entries used, and a read that fails
leaves it and raises HOST_MEM_ERROR. Of the commands fetched, those of a bad form, or of a partition that no plate defines, complete with BOUNDS
as their turn comes (R900, R907, R913).
The next command of a ring: NOP completes; FENCE completes once every earlier command has; SYNC_POST needs an object of its partition and kind,
and gives the object's value before; RETIRE_JOB waits for the end of the tick, and BOUNDS answers a handle of no job; ADMIT_JOB is decided by the
steward, one decision at a time in order of arrival: BUSY outside Active or with 64 jobs, FIT with BUDGET where it does not fit a real-time partition, else a new job in the
lowest free slot (R205, R213 to R218, R873, R914 to R917). -/
def Obligations.CommandRingResults : Prop :=
  (let due := fun (p : Nat) (ch : Chip) =>
     let r := ch.ring p
     ch.alive = true ∧ r.on 0 = true ∧ r.bad 0 = false ∧ r.blocked = false ∧ r.fetched = [] ∧ (r.cmdTail + 2 ^ 32 - r.cmdCons % 2 ^ 32) % 2 ^ 32 ≠ 0
   let addr := fun (ch : Chip) (p : Nat) => (ch.ring p).cmdBase + 64 * ((ch.ring p).cmdCons % 2 ^ ((ch.ring p).sizes % 16) / 8 * 8)
   (∀ c p data, Makes (.cmdFetch c p cOK data) c (fun ch => due p ch ∧ ch.busMaster (ch.ownerFn p) = true) fun ch ch' =>
     let r := ch.ring p
     let k := min ((r.cmdTail + 2 ^ 32 - r.cmdCons % 2 ^ 32) % 2 ^ 32) (8 - r.cmdCons % 2 ^ (r.sizes % 16) % 8)
     let got := (List.range k).map fun i => HostCmd.of ((data.drop (64 * i)).take 64) ((r.cmdCons + i) % 2 ^ 32)
     let taken := (ch.part p).isDefined && !ch.loader.unloading
     .hostFetch (ch.ownerFn p) (addr ch p) 512 ∈ ch'.out ∧ (ch'.ring p).cmdCons = (r.cmdCons + k) % 2 ^ 32 ∧
     ∃ j, (ch'.ring p).fetched = got.drop j ∧ (∀ x ∈ got.take j, x.bad = true ∨ taken = false) ∧
       ((ch'.ring p).blocked = true ∨ ∀ x, (got.drop j).head? = some x → x.bad = false ∧ taken = true)) ∧
   (∀ c p code data, code ≠ cOK → Acts (.cmdFetch c p code data) c (fun ch => due p ch ∧ ch.busMaster (ch.ownerFn p) = true) fun ch =>
     (ch.emit (.hostFetch (ch.ownerFn p) (addr ch p) 512)).ev 0x0C05 err 0xFF 0xFF code (addr ch p) (ch.ownerFn p)) ∧
   (∀ c p code data, Acts (.cmdFetch c p code data) c (fun ch => due p ch ∧ ch.busMaster (ch.ownerFn p) = false) fun ch =>
     ch.ev 0x0C05 err 0xFF 0xFF cPERM (addr ch p) (ch.ownerFn p)) ∧
   ∀ x : HostCmd, (x.bad = false ↔ x.opcode ≤ 4 ∧ (if x.opcode = 1 then x.flags < 4 else x.flags < 2) ∧ leAt x.bytes 2 2 = 0 ∧
       ∀ b, 8 ≤ b → b < 64 → (x.opcode = 1 → 16 ≤ b) → (x.opcode = 2 → 12 ≤ b) → (x.opcode = 3 → b = 11 ∨ 16 ≤ b) → leAt x.bytes b 1 = 0)) ∧
  (let next := fun (p op : Nat) (x : HostCmd) (ch : Chip) => ch.alive = true ∧ ch.frontCmd p = some x ∧ x.opcode = op
   let then' := fun (p : Nat) (ch : Chip) => Chip.dropBad p 8 ch
   (∀ c p x, Acts (.hostNop c p) c (next p 0 x) fun ch => then' p ((ch.acceptCmd p).cmdCpl p x cOK 0 0)) ∧
   (∀ c p x, Acts (.hostFence c p) c (next p 4 x) fun ch =>
     let a := ch.acceptCmd p
     let before := (a.ring p).live.filter (· ≠ x.seq)
     then' p (if before = [] then a.cmdCpl p x cOK 0 0 else a.modRing p fun r => { r with fences := r.fences ++ [(x, before)] })) ∧
   (∀ c p x, Acts (.syncPost c p) c (next p 3 x) fun ch =>
     let a := ch.acceptCmd p
     let op := leAt x.bytes 10 1
     then' p (match a.sync (leAt x.bytes 8 2) with
       | none => a.cmdCpl p x cPERM 0 0
       | some o =>
         if o.part ≠ p then a.cmdCpl p x cPERM 0 0
         else if ¬ ((op = 1 ∧ o.kind = kCOUNTER) ∨ (op = 2 ∧ o.kind = kEVENT)) then a.cmdCpl p x cBOUNDS 0 0
         else match a.postTo (leAt x.bytes 8 2) 0 (leAt x.bytes 12 4) with
           | .error e => a.cmdCpl p x e 0 0
           | .ok b => b.cmdCpl p x cOK 0 o.value)) ∧
   (∀ c p x, Acts (.retireJob c p) c (fun ch => next p 2 x ch ∧ ch.wdg.steward ≠ .running) fun ch =>
     then' p { ch.acceptCmd p with decisions := ch.decisions ++ [.retire p x] }) ∧
   (∀ c p x, Acts (.retireJob c p) c (fun ch => next p 2 x ch ∧ ch.wdg.steward = .running ∧ ch.decisions = []) fun ch =>
     let a := ch.acceptCmd p
     let h := leAt x.bytes 8 4
     then' p (if ∃ j ∈ (a.part p).jobs, j.handle = h then
         a.modPart p fun q => { q with jobs := q.jobs.map fun j => if j.handle = h then { j with retire := j.retire ++ [x] } else j }
       else a.cmdCpl p x cBOUNDS 0 0)) ∧
   (∀ c p x, Acts (.admitJob c p) c (fun ch => next p 1 x ch ∧ ch.wdg.steward ≠ .running) fun ch =>
     then' p { ch.acceptCmd p with decisions := ch.decisions ++ [.admission p x] }) ∧
   (∀ c p x, Acts (.admitJob c p) c (fun ch => next p 1 x ch ∧ ch.wdg.steward = .running ∧ ch.decisions = [] ∧ ch.takesCmds p = false)
     fun ch => then' p ((ch.acceptCmd p).cmdCpl p x cBOUNDS 0 0)) ∧
   (∀ (ch : Chip) (d : Decision) (l : List Decision), ch.decisions = d :: l →
     ch.decideAll = l.foldl (fun a e => a.decideOne e) (({ ch with decisions := [] } : Chip).decideOne d)) ∧
   ∀ c p x, Makes (.admitJob c p) c (fun ch => next p 1 x ch ∧ ch.wdg.steward = .running ∧ ch.decisions = [] ∧
       ch.takesCmds p = true ∧ p < ch.parts.length) fun ch0 ch' =>
     let ch : Chip := ch0.acceptCmd p
     let q := ch.part p
     let cyc := leAt x.bytes 8 4
     let us := leAt x.bytes 12 4
     let n := (q.admissions + 1) % 0x10000
     let slot := q.freeSlot
     let fits := q.admCycles + cyc ≤ q.plate.workCycles ∧ q.admUs + us ≤ q.plate.fixedUs ∧
       workTest q.plate.budget (q.admCycles + cyc) (q.admUs + us) ch.leaveIdle.fcAdm = true
     let a := ch.leaveIdle
     if (ch.pwr.state ≠ .active ∧ ch.pwr.state ≠ .idle) ∨ 64 ≤ q.jobs.length then ch' = then' p (a.cmdCpl p x cBUSY 0 0)
     else if q.plate.rt = true ∧ ¬ fits then ch' = then' p (a.cmdCpl p x cFIT sFITBUDGET 0)
     else ch' = then' p ((a.modPart p fun y => { y with admissions := n, jobs := y.jobs ++
         [{ slot := slot, handle := n * 0x10000 + slot, cycles := cyc, us := us, tickCpl := x.flags.testBit 1, cmdId := x.cmdId }] }).cmdCpl p x cOK 0 (n * 0x10000 + slot)) ∧
       slot < 64 ∧ (∀ j ∈ q.jobs, j.slot ≠ slot) ∧ ∀ i, i < slot → ∃ j ∈ q.jobs, j.slot = i)

/-- A completion that finds its ring enabled, with space and nothing before it, is written as 32 bytes in the slot of the producer counter, PHASE
inverting with each pass, and fires vector 0 where it asks or is unsolicited; otherwise it waits its turn, a disabled ring drops and counts it, and so
does a tick completion once 64 wait. A vector fires again only after CPL_MOD has passed; a held-back firing is delivered at the end (R919 to R923,
R926, R927). -/
def Obligations.CompletionResults : Prop :=
  (∀ (ch : Chip) (p : Nat) (x : Cpl), (ch.ring p).on 1 = true → (ch.ring p).waiting = [] → (ch.ring p).cplSpace = true →
      ch.busMaster (ch.ownerFn p) = true → ch.time < 2 ^ 64 →
    let r := ch.ring p
    let n := r.size 1
    let ch' := ch.postCpl p x
    (ch'.ring p).cplProd = (r.cplProd + 1) % 2 ^ 32 ∧ (ch'.ring p).waiting = [] ∧
    (let asks := x.irq || x.flags.testBit 1
     (asks = false → ch'.host.vectors = ch.host.vectors) ∧
     (asks = true → ∃ v ∈ ch'.host.vectors, v.fn = ch.ownerFn p ∧ v.vec = if ch.ownerFn p = 0 then 4 * p else 0)) ∧
    ∃ b : List Nat, b.length = 32 ∧ .hostWrite (ch.ownerFn p) (r.cplBase + 32 * (r.cplProd % n)) b ∈ ch'.out ∧
      leAt b 0 4 = x.cmdId % 2 ^ 32 ∧ leAt b 8 8 = x.value % 2 ^ 64 ∧ leAt b 16 4 = (ch.part p).tickIndex % 2 ^ 32 ∧ leAt b 20 4 = 0 ∧ leAt b 24 8 = ch.time ∧
      (x.opcode < 256 → leAt b 4 1 = x.opcode) ∧ (x.code < 256 → leAt b 5 1 = x.code) ∧ (x.sub < 256 → leAt b 6 1 = x.sub) ∧
      (x.flags < 8 → x.flags % 2 = 0 → leAt b 7 1 = x.flags + if r.cplProd / n % 2 = 0 then 1 else 0)) ∧
  (∀ (ch : Chip) (p : Nat) (x : Cpl), (ch.ring p).on 1 = false → p < ch.host.rings.length →
    ((ch.postCpl p x).ring p).droppedCpl = min ((ch.ring p).droppedCpl + 1) 0xFFFF ∧ (ch.postCpl p x).out = ch.out ∧
    ((ch.postCpl p x).ring p).waiting = (ch.ring p).waiting) ∧
  (∀ (ch : Chip) (p : Nat) (x : Cpl), (ch.ring p).on 1 = true → ((ch.ring p).waiting ≠ [] ∨ (ch.ring p).cplSpace = false) →
    let late := x.flags.testBit 2 && decide (64 ≤ ((ch.ring p).waiting.filter fun y => y.flags.testBit 2).length)
    ((ch.postCpl p x).ring p).waiting = (ch.ring p).waiting ++
      if late then [] else [{ x with tick := (ch.part p).tickIndex, time := ch.time }]) ∧
  (∀ (ch : Chip) (fn vec us : Nat),
    let held := ch.host.vectors.find? fun v => v.fn == fn && v.vec == vec
    ((∀ v, held = some v → v.last + 1000 * us ≤ ch.time) → (ch.fireOf fn vec us).out = .msix fn vec :: ch.out) ∧
    (∀ v, held = some v → ch.time < v.last + 1000 * us → (ch.fireOf fn vec us).out = ch.out ∧
      ∃ w ∈ (ch.fireOf fn vec us).host.vectors, w.fn = fn ∧ w.vec = vec ∧ w.deferred = true ∧ w.last = v.last)) ∧
  ∀ c fn vec v, Makes (.msixDeferred c fn vec) c (fun ch => ch.alive = true ∧
      (ch.host.vectors.find? fun w => w.fn == fn && w.vec == vec && w.deferred) = some v ∧
      v.last + 1000 * (ch.ring (if fn = 0 then vec / 4 else fn - 1)).cplMod ≤ ch.time)
    fun ch ch' => ch'.out = .msix fn vec :: ch.out ∧ ch'.mem = ch.mem ∧ ch'.cores = ch.cores ∧
      ∀ w ∈ ch'.host.vectors, w.fn = fn → w.vec = vec → w.deferred = false ∧ w.last = ch.time

/-- A GO, while BUSY is 0 and the steward runs, is served: GET_INFO and LER_RELEASE answer at once, LER_READ writes the frames to host memory, a TMC
service is placed in TMC_REQ until the TMC answers or 1 s has passed, and a request that breaks the table is a violation answered with BOUNDS. A GO
while BUSY is discarded and sets OVERRUN (R836, R929 to R936, R983, R984). -/
def Obligations.MailboxResults : Prop :=
  let can := fun (ch : Chip) => ch.takesFrom agPF = true ∧ ch.wdg.steward = .running ∧ ch.mbox.busy = false
  let asks := fun (service : Nat) (ch : Chip) => can ch ∧ ch.mbox.valid = true ∧ ch.mbox.service = service
  let answered := fun (code sub : Nat) (payload : List Nat) (m m' : Mailbox) =>
    m'.busy = false ∧ m'.done = true ∧ m'.code = code ∧ m'.seq = m.field 4 1 ∧ m'.req = m.req ∧
    m'.rsp = Memory.write m.rsp 0 (leBytes 2 m.service ++ leBytes 2 payload.length ++ leBytes 4 (m.field 4 4) ++ [code, sub, 0, 0, 0, 0, 0, 0] ++ payload)
  let placed := fun (service arg : Nat) (ch ch' : Chip) =>
    ch'.mbox = { ch.mbox with busy := true, tmcValid := true, tmcService := service, tmcSeq := ch.mbox.field 4 2, tmcArg := arg, tmcSince := ch.time }
  (∀ c, Makes (.getInfo c) c (asks 1) fun ch ch' =>
    answered cOK 0 (leBytes 4 ch.boot.fwVersion ++ leBytes 4 ch.ler.bootCount ++ [ch.tray.value, ch.boot.straps, ch.stateByte]) ch.mbox ch'.mbox) ∧
  (∀ c, Makes (.mbLerRelease c) c (asks 0x11) fun ch ch' =>
    answered cOK 0 (leBytes 8 ch.ler.newestSeq) ch.mbox ch'.mbox ∧ ∀ w ∈ ch'.ler.held, w ∈ ch.ler.held ∧ ch.ler.newestSeq < w.1) ∧
  (∀ c, Makes (.mbLerRead c) c (asks 0x10) fun ch ch' =>
    let m := ch.mbox
    let r := Chip.mbFrames (m.field 18 1) (m.field 16 2) (m.field 24 8) 0 { ch with mbox := { m with busy := true } }
    answered r.2.1 0 ([r.1, 0] ++ leBytes 2 ch.ler.newestSlot ++ leBytes 8 ch.ler.newestSeq) m ch'.mbox ∧
    r.1 ≤ m.field 18 1 ∧ (r.1 = m.field 18 1 ↔ r.2.1 = cOK) ∧
    ∀ j, j < r.1 → ∀ f, ch.ler.mram.lookup ((m.field 16 2 + j) % 4096) = some (.frame f) →
      .hostWrite 0 (m.field 24 8 + 4096 * j) f.bytes ∈ ch'.out) ∧
  (∀ c, Makes (.setHostCap c) c (asks 0x20) fun ch ch' => placed 0x20 (ch.mbox.field 16 2) ch ch') ∧
  (∀ c, Makes (.mbGetTrayCap c) c (asks 0x21) fun ch ch' => placed 0x21 0 ch ch') ∧
  (∀ c, Makes (.reqDormant c) c (asks 0x30) fun ch ch' => placed 0x30 0 ch ch') ∧
  (∀ c, Makes (.mbUnknownService c) c (fun ch => can ch ∧ ch.mbox.valid = false) fun ch ch' =>
    answered cBOUNDS 0 [] ch.mbox ch'.mbox ∧ ch'.rcv.violTotal = ch.rcv.violTotal + 1) ∧
  (∀ c, Makes (.mbUnknownService c) c (fun ch => ch.takesFrom agPF = true ∧ ch.mbox.busy = true) fun ch ch' =>
    ∃ w, ch' = ({ ch with mbox := { ch.mbox with overrun := true } } : Chip).servedBy agPF w) ∧
  (∀ c i v, i % 8 ≠ 0 → v < 2 ^ 64 → Makes (.tmcRspWrite c i v) c (fun ch => ch.takesFrom agSB = true) fun ch ch' =>
    ch'.mbox = { ch.mbox with tmcRsp := ch.mbox.tmcRsp.set (i % 8) v }) ∧
  (∀ c i v, i % 8 = 0 → v < 2 ^ 64 → Makes (.tmcRspWrite c i v) c (fun ch => ch.takesFrom agSB = true) fun ch ch' =>
    let m := ch.mbox
    let matches' := m.tmcValid = true ∧ v % 2 ^ 16 = m.tmcService ∧ v / 2 ^ 16 % 2 ^ 16 = m.tmcSeq
    let code := v / 2 ^ 32 % 256
    let len := if m.tmcService = 0x20 ∧ (code = cOK ∨ code = cFIT) then 3 else if m.tmcService = 0x21 ∧ code = cOK then 20 else 0
    (matches' → answered code (v / 2 ^ 40 % 256) (((m.tmcRsp.drop 1).flatMap (leBytes 8)).take len) m ch'.mbox ∧ ch'.mbox.tmcValid = false) ∧
    (¬ matches' → ch'.mbox = m ∧ ch'.sb.lastError = cBOUNDS)) ∧
  ∀ c, Makes (.tmcReqTimeout c) c (fun ch => ch.stwRuns = true ∧ ch.mbox.tmcValid = true ∧ ch.mbox.tmcSince + 1000000000 ≤ ch.time)
    fun ch ch' => answered cTIMEOUT 0 [] ch.mbox ch'.mbox ∧ ch'.mbox.tmcValid = false

/-! ## Start-up and reset, the debugger -/

/-- The stages of the boot: RESET ends in FW_READ; a valid firmware image leads to WAIT_RELEASE, and on at once where the release is held; the other
slot is read once where it is not valid, and the chip fails where neither is; the release, or 500 ms without it, leads to HBM_TRAIN with the plate
slot that it carries, and then come SELF_TEST, LER_SCAN and, at READY_FOR_PLATE, the boot-time plate or the endpoint's training; a stack or a unit
that fails ends the boot. Each stage kicks the chip watchdog (R83, R787, R946 to R956, R962). -/
def Obligations.BootResults : Prop :=
  let at' := fun (st : Stage) (ch : Chip) => ch.atStage st = true
  let moved := fun (st : Stage) (ch ch' : Chip) => ch'.boot.stage = st ∧ ch'.boot.since = ch.time ∧ ch'.wdg.left = ch.wdg.full ∧ ch'.wdg.stage2 = false
  let failed := fun (ch' : Chip) => ch'.boot.stage = .failed ∧ ch'.wdg.fatalHalt = true
  let base := fun (slot : Nat) => 0x0900000 + slot * 0x400000
  (∀ c, Makes (.bootResetDone c) c (fun ch => at' .reset ch ∧ ch.ler.writing = none) fun ch ch' => moved .fwRead ch ch' ∧ ch'.boot.resetEnd = ch.time ∧ ch'.mem = ch.mem) ∧
  (∀ (t : Tmc) (slot : Nat), t.fwOk slot = true →
    t.flashBytes (base slot) 4 = [0x41, 0x4D, 0x5A, 0x53] ∧ leNat (t.flashBytes (base slot + 4) 2) = 1 ∧
    let len := leNat (t.flashBytes (base slot + 12) 4)
    64 + len + 200 ≤ 0x400000 ∧ leNat (t.flashBytes (base slot + 16) 4) < len ∧ crc32c (t.flashBytes (base slot) 60) = leNat (t.flashBytes (base slot + 60) 4)) ∧
  (∀ (s : State) (c : Nat) (ch : Chip), s.chips[c]? = some ch → ch.atStage .fwRead = true → ch.boot.granted = true →
    let slot := if ch.boot.triedOther then 1 - s.tmc.fwSlot else s.tmc.fwSlot
    ∃ ch', exec (.fwReadDone c) s = .next ((s.dropSwitch c).withChip c ch') ∧ ch'.boot.granted = false ∧
      if s.tmc.fwOk slot = true then
        moved (if ch.boot.released then .hbmTrain else .waitRelease) ch ch' ∧ ch'.boot.fwSlot = slot ∧
        ch'.boot.fwVersion = leNat (s.tmc.flashBytes (base slot + 8) 4) ∧
        ch'.boot.fwDigest = sha384 (s.tmc.flashBytes (base slot) (64 + leNat (s.tmc.flashBytes (base slot + 12) 4)))
      else if ch.boot.triedOther = false then ch'.boot.triedOther = true ∧ ch'.boot.stage = .fwRead
      else failed ch') ∧
  (∀ c v, Makes (.bootRelease c v) c (fun ch => ch.takesFrom agSB = true ∧ v / 16 % 16 ≠ 12 ∧ v / 16 % 16 ≠ 13 ∧ v / 16 % 16 ≠ 14) fun ch ch' =>
    ch'.boot.plateSlot = v / 16 % 16 ∧ ch'.boot.released = (ch.boot.released || v.testBit 0) ∧
    (ch'.boot.released = true → at' .waitRelease ch → moved .hbmTrain ch ch' ∧ ch'.boot.bootSlot = v / 16 % 16) ∧
    (ch'.boot.released = false ∨ ¬ at' .waitRelease ch → ch'.boot.stage = ch.boot.stage ∧ ch'.boot.bootSlot = ch.boot.bootSlot)) ∧
  (∀ c v, v / 16 % 16 = 12 ∨ v / 16 % 16 = 13 ∨ v / 16 % 16 = 14 → Makes (.bootRelease c v) c (fun ch => ch.takesFrom agSB = true)
    fun ch ch' => ch'.boot = ch.boot ∧ ch'.sb.lastError = cBOUNDS) ∧
  (∀ c, Makes (.releaseTimeout c) c (fun ch => at' .waitRelease ch ∧ ch.boot.since + 500000000 ≤ ch.time) fun ch ch' =>
    moved .hbmTrain ch ch' ∧ ch'.boot.bootSlot = 0xF) ∧
  (∀ c, Makes (.hbmTrainDone c []) c (at' .hbmTrain) fun ch ch' => moved .selfTest ch ch' ∧ ch'.mem = ch.mem) ∧
  (∀ c l, l ≠ [] → Makes (.hbmTrainDone c l) c (at' .hbmTrain) fun _ ch' => failed ch') ∧
  (∀ c, Makes (.selfTestDone c []) c (at' .selfTest) fun ch ch' => moved .lerScan ch ch' ∧ ch'.mem = ch.mem) ∧
  (∀ c l, l ≠ [] → Makes (.selfTestDone c l) c (at' .selfTest) fun _ ch' => failed ch') ∧
  (∀ c, Makes (.bootPlateLoad c) c (fun ch => at' .ready ch ∧ ch.boot.raised = false) fun ch ch' =>
    ch'.boot.raised = true ∧ ch'.mem = ch.mem ∧
    if ch.boot.bootSlot ≤ 11 ∧ ch.loader.state = .empty then ch'.boot.stage = .plateLoad ∧ ch'.loader.state = .copying ∧ ch'.loader.kind = .boot ∧
      ch'.boot.pcie = ch.boot.pcie
    else ch'.boot.stage = .ready ∧ ch'.loader = ch.loader ∧ (ch.boot.pcie = .down → ch'.boot.pcie = .training ∧ ch'.boot.pcieFirst = false))

/-- A reset that waits is performed once the record is sealed as its kind asks. The record's frames survive every kind; DRAM, the watchdog period
and the listed settings survive WARM, TWIN and WATCHDOG; TIME and the side-band target survive those and SIDEBAND; everything else is at its reset
value, and the grant of the flash switch ends. RST_N resets the chip at once, whatever waits; a frame write in flight goes on, and only then does
the chip leave reset (R118, R123, R828, R943 to R945). DRAM that is lost reads 0 (the model's choice, DESIGN CHOICE, log entry 29). -/
def Obligations.ResetResults : Prop :=
  let keeps := fun (k : ResetKind) => k = .warm ∨ k = .twin ∨ k = .watchdog
  let fresh := fun (ch ch' : Chip) =>
    ch'.loader = {} ∧ ch'.host = {} ∧ ch'.mbox = {} ∧ ch'.remotes = [] ∧ ch'.arriving = [] ∧ ch'.chans = [] ∧ ch'.twin = {} ∧
    ch'.parts = List.replicate 8 {} ∧ (∀ x ∈ ch'.cores, { x with sfuFenced := false, sfuKept := false } = ({} : Core)) ∧
    ch'.boot.stage = .reset ∧ ch'.boot.released = false ∧ ch'.boot.plateSlot = 0xF ∧ ch'.boot.pendingReset = none ∧
    ch'.ler.mram = ch.ler.mram ∧ ch'.ler.scanDone = false ∧ ch'.wdg.fatalHalt = false ∧ ch'.wdg.steward = ({} : Watchdogs).steward
  (∀ (s : State) (c : Nat) (ch : Chip) (k : ResetKind), s.chips[c]? = some ch → ch.alive = true → ch.boot.pendingReset = some k → ch.sealed k = true →
    ∃ ch', exec (.chipResetPerform c) s = .next ((s.dropSwitch c).withChip c ch') ∧ fresh ch ch' ∧ ch'.boot.cause = k ∧ ch'.boot.straps = ch.boot.straps ∧
      (keeps k ∨ k = .sideband → ch'.time = ch.time ∧ ch'.sb = ch.sb) ∧ (¬ keeps k → k ≠ .sideband → ch'.time = 0 ∧ ch'.sb = {}) ∧
      (keeps k → (∀ a, a < ch.variant.dramBytes → Memory.get ch'.mem a = Memory.get ch.mem a) ∧
        ch'.wdg.periodMs = ch.wdg.periodMs ∧ ch'.wdg.locked = ch.wdg.locked ∧ ch'.ler.lerCfg = ch.ler.lerCfg ∧ ch'.bg.cfg = ch.bg.cfg ∧
        ch'.bg.cfg2 = ch.bg.cfg2 ∧ ch'.bg.dramPos = ch.bg.dramPos ∧ ch'.pwr.autoIdle = ch.pwr.autoIdle ∧ ch'.pwr.idleDelay = ch.pwr.idleDelay ∧
        ch'.rcv.stwRestarts = ch.rcv.stwRestarts ∧ ch'.boot.retrain = true) ∧
      (¬ keeps k → ch'.mem = [] ∧ ch'.wdg.periodMs = ({} : Watchdogs).periodMs ∧ ch'.wdg.locked = ({} : Watchdogs).locked ∧
        ch'.ler.lerCfg = ({} : Record).lerCfg ∧ ch'.bg.cfg = ({} : Background).cfg ∧ ch'.bg.dramPos = 0 ∧ ch'.rcv.stwRestarts = 0 ∧ ch'.boot.retrain = false) ∧
      ∀ a, ch.variant.dramBytes ≤ a → Memory.get ch'.mem a = 0) ∧
  (∀ (s : State) (c : Nat) (ch : Chip), s.chips[c]? = some ch → ch.alive = true →
    ∃ ch', exec (.rstNLow c) s = .next ((s.dropSwitch c).withChip c ch') ∧ fresh ch ch' ∧ ch'.boot.cause = .pin ∧ ch'.boot.straps = ch.boot.straps ∧
      ch'.time = 0 ∧ ch'.mem = [] ∧ ch'.sb = {} ∧ ch'.ler.writing = ch.ler.writing) ∧
  (∀ c slot f, Makes (.lerFrameWriteDone c) c (fun ch => ch.alive = true ∧ ch.boot.stage = .reset ∧ ch.ler.writing = some (slot, f)) fun ch ch' =>
    ch' = { ch with ler := { ch.ler with writing := none, mram := ch'.ler.mram } } ∧ ch'.ler.mram.lookup slot = some (.frame f) ∧
    ∀ j, j ≠ slot → ch'.ler.mram.lookup j = ch.ler.mram.lookup j) ∧
  (∀ c, Acts (.bootResetDone c) c (fun ch => ch.ler.writing.isSome = true) id) ∧
  (∀ c, Makes (.powerOnReset c) c (fun ch => ch.pwr.powerGood = true ∧ ch.pwr.armed = true) fun ch ch' =>
    ch'.boot.cause = (if ch.pwr.latched then .wake else .powerOn) ∧ ch'.boot.straps = ch.strapPins % 4 ∧ ch'.boot.stage = .reset ∧ ch'.time = 0 ∧
    ch'.mem = [] ∧ ch'.pwr.armed = false ∧ ch'.pwr.latched = false ∧ ch'.loader = {} ∧ ch'.parts = List.replicate 8 {} ∧
    ((ch.ler.writing = none → ch'.ler.mram = ch.ler.mram) ∧ ∀ slot f, ch.ler.writing = some (slot, f) →
      ch'.ler.mram.lookup slot = some (.torn false) ∧ ∀ j, j ≠ slot → ch'.ler.mram.lookup j = ch.ler.mram.lookup j)) ∧
  (∀ c ns, Makes (.wakeNPulse c ns) c (fun ch => ch.alive = false ∧ ch.pwr.armed = true) fun ch ch' =>
    (10000 ≤ ns → ch' = { ch with pwr := { ch.pwr with latched := true } }) ∧ (ns < 2000 → ch' = ch) ∧
    (ch.pwr.latched = true → ch'.pwr.latched = true) ∧ ch'.ler = ch.ler ∧ ch'.boot = ch.boot) ∧
  (∀ c ns, Acts (.wakeNPulse c ns) c (fun ch => ch.alive = true) fun ch => ch.ev 0x0902 info) ∧
  (∀ c, Makes (.pwrFailNFall c) c (fun ch => ch.alive = true ∧ ch.pwr.pwrFail = false) fun ch ch' =>
    ch'.pwr.pwrFail = true ∧ ch'.mem = ch.mem ∧ ch'.cores = ch.cores ∧ ch'.ler.mram = ch.ler.mram ∧
    (ch.loader.state = .copying ∨ ch.loader.state = .validating → ch'.loader.state = ch.loader.back ∧ ch'.loader.result % 0x10000 = cBUSY + sPOWER * 0x100)) ∧
  ∀ c, Makes (.pwrFailNRise c) c (fun ch => ch.pwr.pwrFail = true) fun ch ch' =>
    ch'.pwr.pwrFail = false ∧ ch'.mem = ch.mem ∧ ch'.cores = ch.cores ∧
    if ch.alive = true ∧ ch.loader.retry = true ∧ ch.loader.state = .empty ∧ ch.boot.stage = .ready then
      ch'.boot.stage = .plateLoad ∧ ch'.loader.kind = .boot ∧ ch'.loader.state = .copying ∧ ch'.loader.retried = true
    else ch'.boot = ch.boot ∧ ch'.loader = ch.loader

/-- HALT halts a running or waiting core, and under PART_STOP its partition's; RESUME and STEP let a halted core go on, its limits shifted by the
time it was held; HALT_PART and RESUME_PART do so for a partition. Registers and the core's store are read and written only while the core neither
runs nor waits, and BUSY answers otherwise (R381 to R388, R396, R397).
The DEBUG chain: a scan passes through the TAPs of the chips that are switched in, in ascending index, and no other chip takes part. A TAP's
instruction is the listed one whose value was loaded, else BYPASS, which captures 0 and does nothing; IDCODE captures the variant's identification;
EXTEST and SAMPLE/PRELOAD capture the pins and load the cells; DBG_ADDR takes an offset and a write flag; DBG_DATA captures the last access and makes
one register access of 8 bytes. TRST_N selects IDCODE (R59, R389 to R392). -/
def Obligations.DebugResults : Prop :=
  (let who := fun (a : Nat) => isPfSb a = true
   let there := fun (k : Nat) (ch : Chip) => k < ch.cores.length ∧ ch.regAbsent (.core k) 0x100 = false ∧ ch.unitAsleep (.core k) = false
   let active := fun (x : Core) => x.state = .running ∨ x.state = .waiting
   let halted := fun (reason : Nat) (x y : Core) => ∃ t, y = { x with state := .debug, dbg := { x.dbg with
     reason := reason, index := 0, resumeTo := x.state, request := false, stepping := false, skip := false, since := t } }
   let mates := fun (ch : Chip) (k : Nat) => ch.coresOf (ch.partNo k)
   let resumed := fun (step : Bool) (ch : Chip) (k : Nat) =>
     let x := ch.core k
     let go := x.dbg.resumeTo == .running || x.dbg.resumeTo == .waiting
     let held := (ch.heldSince (ch.partNo k)).getD ch.time - x.dbg.since
     (ch.modCore k fun y => { y with
       state := x.dbg.resumeTo, wait := x.wait.map (Wait.shift held), dbg := { y.dbg with skip := go, stepping := step && go } }).poke k
   (∀ c k, SetsSome (.dbgHalt c · k) c who (there k) fun _ ch ch' =>
     let x := ch.core k
     ch'.mem = ch.mem ∧
     (active x → halted 1 x (ch'.core k) ∧ ∀ j, j ≠ k → if x.dbg.partStop = true ∧ j ∈ mates ch k ∧ active (ch.core j) then halted 2 (ch.core j) (ch'.core j)
       else ch'.core j = ch.core j) ∧
     (x.state = .debug → ch'.cores = ch.cores) ∧
     (¬ active x → x.state ≠ .debug → ch'.core k = { x with dbg := { x.dbg with request := true } } ∧ ∀ j, j ≠ k → ch'.core j = ch.core j)) ∧
   (∀ c k, SetsSome (.dbgResume c · k) c who (there k) fun _ ch ch' =>
     ch'.cores = if (ch.core k).state = .debug then (resumed false ch.leaveIdle k).cores else ch.cores) ∧
   (∀ c k, SetsSome (.dbgStep c · k) c who (there k) fun _ ch ch' =>
     ch'.cores = if (ch.core k).state = .debug then (resumed true ch.leaveIdle k).cores else ch.cores) ∧
   (∀ c k, SetsSome (.dbgHaltPart c · k) c who (there k) fun _ ch ch' => ch'.mem = ch.mem ∧
     ∀ j, if j ∈ mates ch k ∧ active (ch.core j) then halted 2 (ch.core j) (ch'.core j) else ch'.core j = ch.core j) ∧
   (∀ c k, SetsSome (.dbgResumePart c · k) c who (there k) fun _ ch ch' =>
     let l := (mates ch k).filter fun j => j = k ∨ (ch.core j).dbg.reason = 2
     ch'.cores = (l.foldl (fun a j => if (a.core j).state = .debug then resumed false a j else a) ch.leaveIdle).cores) ∧
   (∀ c k v, SetsSome (.dbgRegdataAccess c · k true v) c who (fun ch => there k ch ∧ ¬ active (ch.core k)) fun _ ch ch' =>
     let x := ch.core k
     let y := ch'.core k
     let r := x.dbg.regsel % 256
     let i := x.dbg.regsel / 256 % 8
     ch'.mem = ch.mem ∧ (∀ j, j ≠ k → ch'.core j = ch.core j) ∧
     (r < 0x20 → y = x.setS r (BitVec.ofNat 64 v)) ∧
     (0x20 ≤ r → r < 0x40 → ∃ n, y = x.setV (r - 0x20) n ∧ ∀ b, b < 512 → n.getLsbD b =
       if 64 * i ≤ b ∧ b < 64 * (i + 1) then v.testBit (b - 64 * i) else (x.getV (r - 0x20)).getLsbD b) ∧
     (0x40 ≤ r → r < 0x48 → y = x.setP (r - 0x40) (BitVec.ofNat 64 v)) ∧
     (r = 0x50 → y = { x with pc := v % 2 ^ 18 }) ∧
     (r = 0x51 → v % 8 = 0 ∨ v % 8 = 7 → y = x) ∧
     (r = 0x51 → v % 8 ≠ 0 → v % 8 ≠ 7 → y = { x with acw := y.acw, late := 0 } ∧ ∀ b, b < 32 → y.acw.getLsbD b =
       if b < 5 then v.testBit b else decide (8 ≤ b ∧ b < 13) && x.acw.getLsbD b && !v.testBit b)) ∧
   (∀ c k a v, isSb a = true → Makes (.dbgRegdataAccess c a k false v) c (fun ch => ch.takesFrom a = true ∧ there k ch ∧ ¬ active (ch.core k)) fun ch ch' =>
     let x := ch.core k
     let r := x.dbg.regsel % 256
     ch'.cores = ch.cores ∧ ch'.mem = ch.mem ∧
     (r < 0x20 → ch'.out.head? = some (.value a cOK (x.getS r).toNat)) ∧
     (0x20 ≤ r → r < 0x40 → ch'.out.head? = some (.value a cOK ((x.getV (r - 0x20)).toNat / 2 ^ (64 * (x.dbg.regsel / 256 % 8)) % 2 ^ 64))) ∧
     (0x40 ≤ r → r < 0x48 → ch'.out.head? = some (.value a cOK (x.getP (r - 0x40)).toNat)) ∧
     (r = 0x50 → x.pc < 2 ^ 18 → ch'.out.head? = some (.value a cOK x.pc)) ∧ (r = 0x51 → ch'.out.head? = some (.value a cOK x.acw.toNat))) ∧
   (∀ c k v, SetsSome (.dbgMdataAccess c · k true v) c who (fun ch => there k ch ∧ ¬ active (ch.core k) ∧ Memory.wf ch.mem = true ∧
       coreBase k ≤ (ch.core k).dbg.maddr ∧ (ch.core k).dbg.maddr + 8 ≤ coreBase (k + 1) ∧ ch.leaveIdle.writeCode (ch.core k).dbg.maddr 8 = cOK ∧
       ch.clash (ch.core k).dbg.maddr 8 = none) fun _ ch ch' => Stored ch.mem ch'.mem (ch.core k).dbg.maddr (leBytes 8 v) ∧ ch'.cores = ch.cores) ∧
   (∀ c k a v, isSb a = true → Makes (.dbgMdataAccess c a k false v) c (fun ch => ch.takesFrom a = true ∧ there k ch ∧ ¬ active (ch.core k) ∧
       coreBase k ≤ (ch.core k).dbg.maddr ∧ (ch.core k).dbg.maddr + 8 ≤ coreBase (k + 1) ∧ ch.leaveIdle.readCode (ch.core k).dbg.maddr 8 = cOK)
     fun ch ch' => ch'.cores = ch.cores ∧ ch'.mem = ch.mem ∧
       ch'.out.head? = some (.value a cOK (leNat (ch.see none (ch.core k).dbg.maddr 8)))) ∧
   ∀ (i : Nat → Nat → Nat → Bool → Nat → Sys2Proof.Instr), (i = .dbgRegdataAccess ∨ i = .dbgMdataAccess) → ∀ c k w v,
     SetsSome (i c · k w v) c who (fun ch => there k ch ∧ active (ch.core k)) fun _ ch ch' => ch'.cores = ch.cores ∧ ch'.mem = ch.mem) ∧
  (∀ (s : State) (irs drs pins : List Nat), ∃ s' : State, exec (.tapDbgDataUpdate irs drs pins) s = .next s' ∧ s' = { s with chips := s'.chips } ∧
    s'.chips.length = s.chips.length ∧ ∀ (c : Nat) (ch : Chip), s.chips[c]? = some ch →
      let j := ((s.chips.take c).filter Chip.tapIn).length
      s'.chips[c]? = some (if ch.tapIn = true then ch.tapScan irs[j]? (drs.getD j 0) (pins.getD j 0) else ch)) ∧
  (∀ (ch : Chip) (ir : Option Nat) (v pins : Nat),
    let ch' := ch.tapScan ir v pins
    let listed := fun (i : Nat) => i ∈ [0x00, 0x01, 0x02, 0x03, 0x10, 0x11]
    let now := (ir.map fun i => if listed (i % 256) then i % 256 else 0xFF).getD ch.tap.ir
    let a : Chip := { ch with tap := { ch.tap with ir := now } }
    ch'.tap.ir = now ∧
    (now = 0x02 → ch' = a.emit (.tap (match ch.variant with | .ha720 => 0x107205A9 | .ha716 => 0x107165A9 | .ha708 => 0x107085A9))) ∧
    (now = 0x03 ∨ now = 0xFF → ch' = a.emit (.tap 0)) ∧
    (now = 0x00 ∨ now = 0x01 → ∃ w, ch' = ({ a with tap := { a.tap with cells := v % 2 ^ 10 } } : Chip).emit (.tap w) ∧
      (w.testBit 2 = !ch.pwr.pwrFail) ∧ (w.testBit 5 = ch.strapPins.testBit 0) ∧ (w.testBit 6 = ch.strapPins.testBit 1) ∧
      (w.testBit 9 = ch.ler.fatals.isEmpty)) ∧
    (now = 0x10 → ch'.tap = { a.tap with dbgAddr := v % 2 ^ 24, dbgWrite := v.testBit 32 } ∧ ch'.mem = ch.mem ∧ ch'.cores = ch.cores) ∧
    (now = 0x11 →
      let x := a.emit (.tap (ch.tap.data + ch.tap.code * 2 ^ 64))
      (ch.tap.dbgWrite = true →
        let r := x.regWrite agTAP ch.tap.dbgAddr 8 (v % 2 ^ 64)
        ch'.tap = { a.tap with data := v % 2 ^ 64, code := r.2 } ∧ ch'.mem = r.1.mem ∧ ch'.cores = r.1.cores ∧ ch'.pwr = r.1.pwr) ∧
      (ch.tap.dbgWrite = false →
        let r := x.regRead agTAP ch.tap.dbgAddr 8
        ch'.tap = { a.tap with data := r.2.2, code := r.2.1 } ∧ ch'.mem = ch.mem ∧ ch'.cores = ch.cores))) ∧
  ∀ s : State, ∃ s' : State, exec .tapReset s = .next s' ∧ s' = { s with chips := s'.chips } ∧ ∀ (c : Nat) (ch : Chip), s.chips[c]? = some ch →
    s'.chips[c]? = some (if ch.tapIn = true then { ch with tap := { ch.tap with ir := 0x02 } } else ch)

/-! ## The management protocol and the TMC -/

/-- A connection takes the lowest free session, a fifth is closed; a bad frame and 30 s of silence close a session, which frees its lease. HELLO gives
a new challenge; AUTH uses it up, verifies the signature with the key of its index, gives the key's role and, to the first OPERATOR, the write
lease; a third failure closes the session. A HEARTBEAT goes to each authenticated session every 5 s; a type that is not listed is answered with
BOUNDS (R60 to R68, R71). -/
def Obligations.SessionResults : Prop :=
  let opened := fun (n : Nat) (s : State) => s.up ∧ (s.session n).isOpen = true
  let closed := fun (n : Nat) (s s' : State) =>
    s'.tmc.sessions = s.tmc.sessions.modify n (fun _ => {}) ∧ s'.tmc.lease = (if s.tmc.lease = some n then none else s.tmc.lease) ∧
    s'.tmc.out = .mgmtClose n :: s.tmc.out ∧ s'.chips = s.chips
  (∀ s : State, s.up → (∀ n, n < 4 → (s.session n).isOpen = true) → exec .mgmtConnect s = .next (s.emit (.mgmtClose 4)).trayWork) ∧
  (∀ (s : State) (n : Nat), s.up → n < 4 → (s.session n).isOpen = false → (∀ m, m < n → (s.session m).isOpen = true) →
    exec .mgmtConnect s = .next (s.modSession n fun _ => { isOpen := true, last := s.tmc.uptime }).trayWork) ∧
  (∀ n b, ∃ f : State → State, Does (.mgmtBadFrame n b) (fun s => opened n s ∧ (b.take 4 ≠ [0x53, 0x54, 0x4D, 0x50] ∨ b.getD 4 0 ≠ 1 ∨
      65536 < leAt b 12 4 ∨ b.length ≠ 20 + leAt b 12 4 ∨ crc32c (b.take (16 + leAt b 12 4)) ≠ leAt b (16 + leAt b 12 4) 4)) f ∧ ∀ s, closed n s (f s)) ∧
  (∀ n b, frameBad b = false → Does (.mgmtBadFrame n b) (opened n) id) ∧
  (∀ n, ∃ f : State → State, Does (.mgmtSessionTimeout n) (fun s => opened n s ∧ (s.session n).last + 30000000000 ≤ s.tmc.uptime) f ∧ ∀ s, closed n s (f s)) ∧
  (∀ n seq p, p.length ≤ 65536 → Does (.hello n seq p) (fun s => opened n s ∧ (s.session n).role ≠ 0) fun s => (s.heard n).reply n 1 cBUSY seq []) ∧
  (∀ n seq p, 65536 < p.length → Does (.hello n seq p) (opened n) (fun s => s.closeSession n) ∧ Does (.auth n seq p) (opened n) fun s => s.closeSession n) ∧
  (∀ n seq p, p ≠ [] → p.length ≤ 65536 → Does (.hello n seq p) (fun s => opened n s ∧ (s.session n).role = 0) fun s => (s.heard n).reply n 1 cBOUNDS seq []) ∧
  (∀ n seq, Does (.hello n seq []) (fun s => opened n s ∧ (s.session n).role = 0) fun s =>
    (((s.heard n).modSession n fun e => { e with challenge := some s.tmc.challenges }).modTmc fun t => { t with challenges := s.tmc.challenges + 1 }).reply
      n 1 cOK seq (leBytes 48 (Config.challenge s.tmc.challenges))) ∧
  (∀ n seq p, p.length ≤ 65536 → Does (.auth n seq p) (fun s => opened n s ∧ (s.session n).role ≠ 0) fun s => (s.heard n).reply n 2 cBUSY seq []) ∧
  (∀ n seq p, p.length ≤ 65536 → ∃ f : State → State, Does (.auth n seq p) (fun s => opened n s ∧ (s.session n).role = 0) f ∧ ∀ s : State, opened n s → (s.session n).role = 0 →
    s.tmc.sessions.length = 4 →
    let k := p.getD 0 0
    let role := s.cfg (112 + 104 * k) 1
    let good := ∃ i, (s.session n).challenge = some i ∧ p.length = 97 ∧ k < 8 ∧ role ≠ 0 ∧
      ecdsaOk (sliceB s.tmc.config (116 + 104 * k) 97) (sha384 (leBytes 48 (Config.challenge i))) (p.drop 1) = true
    let code := if (s.session n).challenge = none then cPERM else if p.length ≠ 97 ∨ 8 ≤ k then cBOUNDS else cPERM
    let s' := f s
    (good → s'.tmc.out = .mgmt n (mgmtFrame 2 1 cOK seq []) :: s.tmc.out ∧
      s'.session n = { s.session n with last := s.tmc.uptime, challenge := none, role := role } ∧
      s'.tmc.lease = (if role = 2 ∧ s.tmc.lease = none then some n else s.tmc.lease)) ∧
    (¬ good → (s.session n).fails < 2 → s'.tmc.out = .mgmt n (mgmtFrame 2 1 code seq []) :: s.tmc.out ∧
      s'.session n = { s.session n with last := s.tmc.uptime, challenge := none, fails := (s.session n).fails + 1 } ∧ s'.tmc.lease = s.tmc.lease) ∧
    (¬ good → 2 ≤ (s.session n).fails → s'.tmc.out = .mgmtClose n :: .mgmt n (mgmtFrame 2 1 code seq []) :: s.tmc.out ∧ s'.session n = {})) ∧
  (∀ n seq typ len, mgmtTypes.contains typ = false → 65536 < len → Does (.mgmtUnknownType n seq typ len) (opened n) fun s => s.closeSession n) ∧
  (∀ n seq typ len, mgmtTypes.contains typ = false → len ≤ 65536 → Does (.mgmtUnknownType n seq typ len) (fun s => opened n s ∧ (s.session n).role ≠ 0)
    fun s => (s.heard n).reply n typ cBOUNDS seq []) ∧
  ∃ f : State → State, Does .mgmtHeartbeat (fun s => s.up ∧ s.tmc.beatAt + 5000000000 ≤ s.tmc.uptime) f ∧
    ∀ s : State, (f s).tmc.beatAt = s.tmc.uptime ∧ (f s).chips = s.chips ∧ ∃ new, (f s).tmc.out = new ++ s.tmc.out ∧
      new.length = s.authSessions.length ∧ ∀ n ∈ s.authSessions, ∃ q, .mgmt n (mgmtFrame 0x7F 2 0 q
        (leBytes 8 (if (s.chip 0).alive then (s.chip 0).time else 0) ++ leBytes 8 (s.tmc.uptime / 1000000))) ∈ new

/-- A request is refused with PERM before AUTH has succeeded or where it needs OPERATOR on another session, with BUSY while another session holds
the write lease, and with BOUNDS where its payload breaks the table; what the others do is their request's: the answers of the reading requests are
those of the tables, and the writing ones begin their action, whose end is their answer (R36, R46, R64 to R66, R69 to R75, R111, R750, R836, R839). -/
def Obligations.RequestResults : Prop :=
  (∀ (i : Nat → Nat → List Nat → Sys2Proof.Instr) (typ : Nat) (op : Bool),
    (op = false ∧ ((i = .getStatus ∧ typ = 0x10) ∨ (i = .getTelemetry ∧ typ = 0x11) ∨ (i = .getTrayCap ∧ typ = 0x21) ∨ (i = .readLer ∧ typ = 0x40) ∨
      (i = .configRead ∧ typ = 0x53))) ∨
    (op = true ∧ ((i = .setTrayCap ∧ typ = 0x20) ∨ (i = .chipPower ∧ typ = 0x30) ∨ (i = .chipReset ∧ typ = 0x31) ∨ (i = .releaseLer ∧ typ = 0x41) ∨
      (i = .flashWrite ∧ typ = 0x50) ∨ (i = .flashCommit ∧ typ = 0x51) ∨ (i = .plateSelect ∧ typ = 0x52) ∨ (i = .configWrite ∧ typ = 0x54) ∨
      (i = .twinControl ∧ typ = 0x60))) → ∀ n seq p, p.length ≤ 65536 →
    Does (i n seq p) (fun s => s.up ∧ (s.session n).isOpen = true ∧ ((s.session n).role = 0 ∨ (op = true ∧ (s.session n).role ≠ 2)))
      (fun s => (s.heard n).reply n typ cPERM seq []) ∧
    Does (i n seq p) (fun s => s.up ∧ (s.session n).isOpen = true ∧ op = true ∧ (s.session n).role = 2 ∧ ∃ m, m ≠ n ∧ s.tmc.lease = some m)
      (fun s => (s.heard n).reply n typ cBUSY seq []) ∧
    Does (i n seq p) (fun s => ¬ s.up ∨ (s.session n).isOpen = false) id) ∧
  Serves .getStatus 0x10 false (fun _ p => p = []) (fun n seq _ s =>
    (s.modTmc fun t => { t with free := t.free + 9 }).reply n 0x10 cOK seq (s.statusBytes (s.tmc.free * 8 + 7))) ∧
  Serves .getTelemetry 0x11 false (fun s p => p.length = 2 ∧ p.getD 0 0 < s.chips.length ∧ p.getD 1 0 < 8) (fun n seq p s =>
    let ch := s.chip (p.getD 0 0)
    let b := ch.bg.telemetry.getD (p.getD 1 0) []
    if ch.alive = false ∨ b = [] then s.reply n 0x11 cBOUNDS seq [] else (s.sbSeen (p.getD 0 0)).reply n 0x11 cOK seq b) ∧
  Serves .getTrayCap 0x21 false (fun _ p => p = []) (fun n seq _ s => s.reply n 0x21 cOK seq
    ([s.tmc.hostCap, s.tmc.mgmtCap, s.tmc.thermal, s.fanLimit s.live.length, s.tmc.cap, 0].flatMap (leBytes 2) ++
      (List.range 4).flatMap fun c => leBytes 2 (if (s.chip c).pwr.rails then (s.chip c).pwr.share else 0))) ∧
  Serves .configRead 0x53 false (fun _ p => p = []) (fun n seq _ s => s.reply n 0x53 cOK seq (sliceB s.tmc.config 0 4096)) ∧
  Serves .readLer 0x40 false (fun s p => p.length = 4 ∧ p.getD 0 0 < s.chips.length ∧ 1 ≤ p.getD 1 0 ∧ p.getD 1 0 ≤ 15 ∧ leAt p 2 2 < 4096) (fun n seq p s =>
    let c := p.getD 0 0
    let r := Chip.lerFrames (p.getD 1 0) (leAt p 2 2) (s.chip c)
    if (s.chip c).alive = false then s.replyFree n 0x40 seq
    else ((s.modChip c fun _ => { r.2.2.2 with sb := { r.2.2.2.sb with frame := (leAt p 2 2 + r.1) % 4096, pos := 0 } }).sbSeen c).reply n 0x40 r.2.2.1 seq
      ([r.1, 0, 0, 0] ++ r.2.1)) ∧
  (∀ k slot (ch : Chip), ch.ler.writing = none → (∀ j, j < k → ∃ f, ch.ler.mram.lookup ((slot + j) % 4096) = some (.frame f)) → slot < 4096 →
    Chip.lerFrames k slot ch = (k, (List.range k).flatMap (fun j => match ch.ler.mram.lookup ((slot + j) % 4096) with | some (.frame f) => f.bytes | _ => []),
      cOK, ch)) ∧
  Serves .setTrayCap 0x20 true (fun _ p => p.length = 2) (fun n seq p s =>
    s.modTmc fun t => { t with caps := t.caps ++ [{ source := 1, cap := leAt p 0 2, dest := n, seq := seq }] }) ∧
  Serves .chipPower 0x30 true (fun s p => p.length = 2 ∧ p.getD 0 0 < s.chips.length ∧ 1 ≤ p.getD 1 0 ∧ p.getD 1 0 ≤ 3) (fun n seq p s =>
    let c := p.getD 0 0
    let begun := fun (r : State × Option Nat) => match r with
      | (a, some 0) => a.await n seq 0x30 c p
      | (a, some code) => a.reply n 0x30 code seq []
      | (a, none) => a.replyFree n 0x30 seq
    let stays := (s.chip c).pwr.rails && !s.leaving c
    let a := (s.awaitFrom n seq 0x30 c p (if stays then some (s.tmc.railsAt.getD c 0) else none)).modWatch c fun w => { w with failed := false }
    if p.getD 1 0 = 1 then (if stays then (a.sbPut c 0x60014 4 1).1 else a.wake (2 ^ c))
    else if p.getD 1 0 = 2 then (if (s.chip c).bound = true then s.reply n 0x30 cBUSY seq [] else begun (s.sbPut c 0x60014 4 2))
    else if (s.chip c).pwr.rails = false then s.reply n 0x30 cOK seq []
    else if (s.chip c).bound = true then s.reply n 0x30 cBUSY seq [] else begun (s.toDormant c)) ∧
  Serves .chipReset 0x31 true (fun s p => p.length = 2 ∧ p.getD 0 0 < s.chips.length ∧ 1 ≤ p.getD 1 0 ∧ p.getD 1 0 ≤ 3) (fun n seq p s =>
    let c := p.getD 0 0
    if (s.chip c).alive = true then
      ((s.modChip c fun ch => ({ ch with sb := { ch.sb with served := ch.time } } : Chip).askReset
        (if p.getD 1 0 = 1 then .warm else if p.getD 1 0 = 2 then .cold else .sideband)).modTmc fun t => { t with sets := t.sets ++ [[c]] }).await n seq 0x31 c p
    else s.replyFree n 0x31 seq) ∧
  Serves .releaseLer 0x41 true (fun s p => p.length = 1 ∧ p.getD 0 0 < s.chips.length) (fun n seq p s =>
    let c := p.getD 0 0
    if (s.chip c).alive = true then
      ((s.modChip c fun ch => ch.lerRelease agSB).sbSeen c).reply n 0x41 cOK seq (leBytes 8 (s.chip c).ler.newestSeq)
    else s.replyFree n 0x41 seq) ∧
  (let slots := fun (r : Nat) => if r = 1 ∨ r = 2 then 2 else if r = 3 then 12 else 0
   let size := fun (r : Nat) => if r = 3 then 0x800000 else 0x400000
   let recovery := fun (p : List Nat) => p ≠ [] ∧ p.getD 0 0 = 0
   Serves .flashWrite 0x50 true (fun _ p => recovery p ∨ (9 ≤ p.length ∧ p.length ≤ 65536 ∧ p.getD 1 0 < slots (p.getD 0 0) ∧
      leAt p 4 4 + (p.length - 8) ≤ size (p.getD 0 0))) (fun n seq p s => s.await n seq 0x50 0 p) ∧
   Serves .flashCommit 0x51 true (fun _ p => recovery p ∨ (p.length = 2 ∧ p.getD 1 0 < slots (p.getD 0 0))) (fun n seq p s => s.await n seq 0x51 0 p) ∧
   Serves .plateSelect 0x52 true (fun s p => p.length = 2 ∧ p.getD 0 0 < s.chips.length ∧ (p.getD 1 0 < 12 ∨ p.getD 1 0 = 0xFF))
     (fun n seq p s => s.await n seq 0x52 0 p) ∧
   Serves .configWrite 0x54 true (fun _ p => p.length = 4096) (fun n seq p s => s.await n seq 0x54 0 p)) ∧
  Serves .twinControl 0x60 true (fun s p => p.length = 2 ∧ 2 * p.getD 0 0 < s.chips.length ∧ (p.getD 1 0 = 1 ∨ p.getD 1 0 = 2)) (fun n seq p s =>
    let a := 2 * p.getD 0 0
    let c := if (s.chip a).alive then a else a + 1
    match s.sbPut c 0x70004 4 (p.getD 1 0) with
    | (b, some 0) => b.await n seq 0x60 c p
    | (b, some code) => b.reply n 0x60 code seq []
    | (b, none) => b.replyFree n 0x60 seq)

/-- A cap that is no multiple of 5 W or above the tray maximum is BOUNDS, one below the floor FIT, and neither changes anything; otherwise each running
chip is offered its share, and all take it or none does: then the answer is FIT with the lowest chip that refused (R45 to R49). A flash request is
carried out while no chip holds the switch: an active slot and region 0 are PERM, a commit marks the slot once its image verifies, and a
configuration goes, under the next sequence, into the other copy's place and into force (R33, R36, R38, R39, R69). -/
def Obligations.TrayWorkResults : Prop :=
  (∀ (s : State) (r : CapReq), r.source = 0 ∨ r.source = 1 → let n := s.live.length
    let host := if r.source = 0 then r.cap else s.tmc.hostCap
    let mgmt := if r.source = 1 then r.cap else s.tmc.mgmtCap
    let floor := (match s.trayType with | .st4 => 160 | .st2 => 80) + 60 * n
    let top := match s.trayType with | .st4 => 760 | .st2 => 340
    let cap := min (min host mgmt) (min s.tmc.thermal (s.fanLimit n))
    (r.cap % 5 ≠ 0 ∨ top < r.cap → s.capTry r = some (s.capAnswer r cBOUNDS 0xFF)) ∧
    (r.cap % 5 = 0 → r.cap ≤ top → r.cap < floor → s.capTry r = some (s.capAnswer r cFIT 0xFF)) ∧
    (r.cap % 5 = 0 → r.cap ≤ top → floor ≤ r.cap → s.raiseWaits (s.targets cap n) = true → s.capTry r = none) ∧
    (r.cap % 5 = 0 → r.cap ≤ top → floor ≤ r.cap → s.raiseWaits (s.targets cap n) = false →
      (∀ a c, s.divide cap n = (a, some c) → s.capTry r = some (a.capAnswer r cFIT c)) ∧
      ∀ a, s.divide cap n = (a, none) → s.capTry r = some ((a.modTmc fun t => { t with hostCap := host, mgmtCap := mgmt, cap := cap }).capAnswer r cOK 0xFF))) ∧
  (∀ (s : State) (cap n c : Nat), s.shareOf cap n c =
    min (max ((cap - (match s.trayType with | .st4 => 160 | .st2 => 80)) / n / 5 * 5) 60) (s.chip c).variant.maxShare) ∧
  (∀ (s a : State) (l : List (Nat × Nat)) (c : Nat), s.offerAll l = (a, some c) → (∀ x ∈ l, x.2 < 256) →
    (∃ w, (c, w) ∈ l) ∧ ∀ x ∈ l, (a.chip x.1).pwr.share = (s.chip x.1).pwr.share) ∧
  (∀ (s a : State) (l : List (Nat × Nat)), s.offerAll l = (a, none) → (l.map Prod.fst).Nodup → (∀ x ∈ l, x.1 < s.chips.length ∧ (s.chip x.1).offerable = true ∧ x.2 < 256) →
    ∀ x ∈ l, (a.chip x.1).pwr.share = x.2) ∧
  (∀ (s : State) (p : List Nat), let region := p.getD 0 0
    let slot := p.getD 1 0
    let base := if region = 1 then 0x0100000 + slot * 0x400000 else if region = 2 then 0x0900000 + slot * 0x400000 else 0x1100000 + slot * 0x800000
    let active := if region = 1 then s.tmc.tmcSlot = slot else if region = 2 then s.tmc.fwSlot = slot else s.tmc.plates.testBit slot = true
    (region = 0 ∨ active → s.flashAct 0x50 p = (s, cPERM)) ∧
    (region ≠ 0 → ¬ active → Memory.wf s.tmc.flash = true → let r := s.flashAct 0x50 p
      r.2 = cOK ∧ r.1.chips = s.chips ∧ Stored s.tmc.flash r.1.tmc.flash (base + leAt p 4 4) (p.drop 8)) ∧
    (region = 0 → s.flashAct 0x51 p = (s, cPERM)) ∧
    (region = 2 → s.flashAct 0x51 p = if s.tmc.fwOk slot = true then (s.modTmc fun t => { t with fwSlot := slot }, cOK) else (s, cPLATEBAD)) ∧
    (region = 3 → s.flashAct 0x51 p = if s.plateOk slot = true then (s.modTmc fun t => { t with plates := t.plates ||| 2 ^ slot }, cOK) else (s, cPLATEBAD))) ∧
  (∀ (s : State) (p : List Nat), let r := s.flashAct 0x54 p
    let same := sliceB p 16 8 = sliceB s.tmc.config 16 8
    let good := s.cfgValid p = true ∧ (∃ k, k < 8 ∧ leAt p (112 + 104 * k) 1 = 2) ∧ ∀ k, k < 8 → keyPointOk p k = true
    (¬ same → r = (s, cPERM)) ∧ (same → ¬ good → r = (s, cBOUNDS)) ∧
    (same → good → r.2 = cOK ∧ r.1.chips = s.chips ∧ r.1.tmc.copyNo = (if s.tmc.copyNo = 0 then 1 else 0) ∧
      leAt r.1.tmc.config 8 4 = (leAt s.tmc.config 8 4 + 1) % 2 ^ 32 ∧ r.1.tmc.config.take 8 = p.take 8 ∧
      (r.1.tmc.config.drop 12).take 4080 = (p.drop 12).take 4080 ∧ r.1.tmc.sessions = s.tmc.sessions)) ∧
  ∀ (s : State) (b : List Nat), s.cfgValid b = true → b.length = 4096 ∧ b.take 4 = [0x53, 0x54, 0x43, 0x46] ∧ leAt b 4 2 = 1 ∧
    crc32c (b.take 4092) = leAt b 4092 4 ∧ leAt b 24 1 < 2 ^ s.chips.length ∧ leAt b 25 1 < 2 ^ s.chips.length ∧ leAt b 26 1 < s.chips.length ∧
    leAt b 36 2 ≤ 12000 ∧ ∀ i, 1328 ≤ i → i < 4092 → b.getD i 0 = 0

/-- A wake enables the rails of the chips of its set in ascending index, each only where the floor and the lowered shares of the others allow it
(else WAKE_REFUSED or FIT); power good gives the chip its WAKE_N pulse; while PWR_FAIL_N is low wakes are held, up to 60 s; rails that have fallen
leave the chip Dormant, divide the cap anew and let a wake that waited proceed. A start of the TMC closes every session and repeats no challenge. The TMC switches off a chip that is ready for Dormant, grants the
flash switch in order, releases start sets, and serves the requests it finds in TMC_REQ (R35, R38, R42, R43, R52 to R57, R63, R74, R877 to R879, R934,
R935, R952, R984, R999). -/
def Obligations.TmcOperationResults : Prop :=
  let chipOf := fun (c : Nat) (s : State) => s.up ∧ c < s.chips.length
  (∃ f : State → State, Does .tmcStart (fun _ => True) (fun s => (f s).wake ((f s).cfg 25 1)) ∧ ∀ s : State,
    (f s).tmc.up = true ∧ (f s).tmc.uptime = 0 ∧ (f s).tmc.flash = s.tmc.flash ∧ (f s).tmc.sessions = List.replicate 4 {} ∧ (f s).tmc.lease = none ∧
    (f s).tmc.challenges = s.tmc.challenges ∧
    (f s).tmc.hostCap = s.trayType.maxCap ∧ (f s).tmc.thermal = s.trayType.maxCap ∧ (f s).tmc.mgmtCap = (f s).cfgCap ∧
    (f s).chips.length = s.chips.length ∧ (∀ ch ∈ (f s).chips, ch.pwr.rails = false ∧ ch.pwr.powerGood = false) ∧
    (∀ i, i < 2 → s.cfgValid (s.tmc.copy i) = true → s.cfgValid (s.tmc.copy (1 - i)) = false → (f s).tmc.config = s.tmc.copy i ∧ (f s).tmc.copyNo = i) ∧
    (s.cfgValid (s.tmc.copy 0) = false → s.cfgValid (s.tmc.copy 1) = false → (f s).tmc.copyNo = 2) ∧
    (s.cfgValid (s.tmc.copy 0) = true → s.cfgValid (s.tmc.copy 1) = true → (f s).tmc.copyNo =
      if seqHigher (leAt (s.tmc.copy 1) 8 4) (leAt (s.tmc.copy 0) 8 4) = true then 1 else 0)) ∧
  Does .wakeAssert State.up (fun s => s.wake (s.cfg 24 1)) ∧
  Does .wakeTimer (fun s => s.up ∧ s.tmc.sleeping = true ∧ s.tmc.timerDone = false ∧ s.cfg 32 4 ≠ 0 ∧ s.tmc.sleepAt + s.cfg 32 4 * 1000000000 ≤ s.tmc.uptime)
    (fun s => (s.modTmc fun t => { t with timerDone := true }).wake (s.cfg 24 1)) ∧
  Does .traySleepEnter (fun s => s.up ∧ s.live = [] ∧ (∀ ch ∈ s.chips, ch.pwr.powerGood = false) ∧ s.tmc.sleeping = false)
    (fun s => s.modTmc fun t => { t with sleeping := true, sleepAt := t.uptime, timerDone := false }) ∧
  (∀ (s : State) (mask : Nat), s.maskChips mask ≠ [] → s.tmc.pwrFail = true →
    s.wake mask = s.modTmc fun t => { t with held := t.held ++ [{ mask := mask, since := t.uptime }] }) ∧
  (∀ (s : State) (c : Nat), c < s.chips.length → s.tmc.pwrFail = false → s.leaving c = false → (s.chip c).pwr.rails = false →
      (s.tmc.watch.getD c {}).failed = false →
    let n := s.live.length + 1
    let cap := min (min s.tmc.hostCap s.tmc.mgmtCap) (min s.tmc.thermal (s.fanLimit n))
    (cap < s.trayType.allowance + 60 * n → (s.wake (2 ^ c)).chips = s.chips ∧ (s.tmc.waits.all (fun w => !w.active c) = true → s.wake (2 ^ c) = s.trayEvent 0x0E07 warn c)) ∧
    (s.trayType.allowance + 60 * n ≤ cap → ((s.targets cap n).all fun x => !(x.2 < (s.chip x.1).pwr.share)) = true →
      ((s.wake (2 ^ c)).chip c).pwr.rails = true ∧ (s.wake (2 ^ c)).tmc.cap = cap ∧ (s.wake (2 ^ c)).tmc.sleeping = false ∧
      (c, s.shareOf cap n c) ∈ (s.wake (2 ^ c)).tmc.wakeShare ∧ [c] ∈ (s.wake (2 ^ c)).tmc.sets)) ∧
  (∀ (s : State) (c : Nat), s.tmc.pwrFail = false → c < s.chips.length → s.leaving c = true →
    s.wake (2 ^ c) = s.modTmc fun t => { t with afterOff := t.afterOff ||| 2 ^ c }) ∧
  (∀ c, Does (.railsPowerGood c) (fun s => chipOf c s ∧ (s.chip c).pwr.rails = true ∧ (s.chip c).pwr.powerGood = false) fun s =>
    (s.modChip c fun ch => ({ ch with pwr := { ch.pwr with powerGood := true } } : Chip).wakePulse 20000).emit (.pin (pinWake + 16 * c) false)) ∧
  (∀ c, ∃ f : State → State, Does (.railsOff c) (fun s => chipOf c s ∧ ((s.chip c).pwr.rails = true ∨ (s.chip c).pwr.powerGood = true))
      (fun s => if s.tmc.afterOff.testBit c then ((f s).wake (2 ^ c)).redivide else (f s).redivide) ∧ ∀ s : State, c < s.chips.length →
    (f s).chip c = (s.chip c).powerOff ∧ ((f s).chip c).pwr.rails = false ∧ ((f s).chip c).pwr.powerGood = false ∧ ((f s).chip c).mem = [] ∧
    ((f s).chip c).ler.mram = (s.chip c).ler.mram ∧ (f s).tmc.dormant.testBit c = false ∧ (f s).tmc.holder ≠ some c ∧ (f s).tmc.flash = s.tmc.flash) ∧
  (∀ c, Does (.tmcDormantPoll c) (fun s => chipOf c s ∧ s.tmc.dormant.testBit c = true ∧ (s.chip c).alive = true) fun s =>
    if (s.chip c).pwr.state = .dormantReady then
      ((s.sbSeen c).modChip c fun ch => { ch with pwr := { ch.pwr with rails := false } }).emit (.pmbus (0x50 + c) false)
    else s.sbSeen c) ∧
  (∀ mask, ∃ f : State → State, Does (.flashSwitchRequest mask) State.up f ∧ ∀ s : State,
    let l := (List.range s.chips.length).filter fun c => mask.testBit c && (s.chip c).wantsFlash && s.tmc.holder != some c && !s.tmc.asking.contains c
    (s.tmc.holder ≠ none → (f s).tmc.holder = s.tmc.holder ∧ (f s).tmc.asking = s.tmc.asking ++ l ∧ (f s).chips = s.chips) ∧
    (s.tmc.holder = none → (f s).tmc.holder = (s.tmc.asking ++ l).head? ∧ (f s).tmc.asking = (s.tmc.asking ++ l).tail ∧
      ∀ c, some c = (f s).tmc.holder → c < s.chips.length → ((f s).chip c).boot.granted = true)) ∧
  (∀ c, ∃ f : State → State, Does (.flashSwitchEnd c) (fun s => chipOf c s ∧ s.tmc.holder = some c) f ∧ ∀ s : State, s.tmc.holder = some c →
    (f s).tmc.holder = (s.tmc.asking.filter (· ≠ c)).head? ∧ (f s).tmc.asking = (s.tmc.asking.filter (· ≠ c)).tail ∧ (f s).tmc.flash = s.tmc.flash) ∧
  (∃ f : State → State, Does .tmcBootPoll State.up f ∧ ∀ s : State, (f s).tmc.flash = s.tmc.flash ∧ (f s).chips.length = s.chips.length ∧
    ∀ l ∈ (f s).tmc.sets, l ≠ [] ∧ ∃ c ∈ l, (s.chip c).atGate = false) ∧
  (∀ (s : State) (c : Nat), c < s.chips.length → (s.chip c).takesFrom agSB = true → (s.chip c).stageNow = 3 →
    let slot := s.cfg (28 + c) 1
    ((s.releaseChip c).chip c).boot.stage = .hbmTrain ∧ ((s.releaseChip c).chip c).boot.bootSlot = if slot < 12 then slot else 0xF) ∧
  ∀ c, Does (.tmcReqPoll c) (fun s => chipOf c s ∧ (s.chip c).alive = true) fun s =>
    let m := (s.chip c).mbox
    let a := s.sbSeen c
    if m.tmcValid = false then a
    else if m.tmcService = 0x20 then
      (if ∃ r ∈ s.tmc.caps, r.source = 0 ∧ r.dest = c ∧ r.seq = m.tmcSeq then a
       else a.modTmc fun t => { t with caps := t.caps ++ [{ source := 0, cap := m.tmcArg, dest := c, seq := m.tmcSeq }] })
    else if m.tmcService = 0x21 then a.answerChip c 0x21 m.tmcSeq cOK a.capBytes
    else match a.toDormant c with
      | (b, some code) => b.answerChip c m.tmcService m.tmcSeq code []
      | (b, none) => b

/-- What the TMC watches: heartbeats, and a recovery that goes from a side-band reset to cold resets to switching the chip off; FATAL entries, which it
relays and acknowledges; the input, with PWR_FAIL_N falling at every chip and rising 100 ms after the input is good; fans, dies, the inlet and the
filter, with their limits and events; the cages (R40, R41, R44, R58, R73, R794, R795, R840, R888, R958, R995 to R999, R1007, R1011 to R1015). -/
def Obligations.TmcWatchResults : Prop :=
  let chipOf := fun (c : Nat) (s : State) => s.up ∧ c < s.chips.length
  (∀ c, ∃ f : State → State, Does (.tmcHeartbeatCheck c) (fun s => chipOf c s ∧ s.tmc.dormant.testBit c = false) f ∧ ∀ s : State, c < s.chips.length → c < s.tmc.watch.length →
    let ch := s.chip c
    let w := s.tmc.watch.getD c {}
    let w' := (f s).tmc.watch.getD c {}
    (ch.alive = false ∨ ch.stageNow < 4 → w' = { w with beat := none }) ∧
    (ch.alive = true → 4 ≤ ch.stageNow → ch.stageNow ≠ 0x0F →
      (w.beat = none → w' = { w with beat := some (ch.wdg.heartbeat, s.tmc.uptime) }) ∧
      ∀ v t, w.beat = some (v, t) →
        (v ≠ ch.wdg.heartbeat → w'.beat = some (ch.wdg.heartbeat, s.tmc.uptime) ∧ (w.stepAt < s.tmc.uptime → w'.step = 0)) ∧
        (v = ch.wdg.heartbeat → w' = { w with step := if t + 5000000000 ≤ s.tmc.uptime then max w.step 1 else w.step }))) ∧
  (∀ c, ∃ f : State → State, Does (.tmcRecoveryStep c) (fun s => chipOf c s ∧ s.tmc.dormant.testBit c = false) f ∧ ∀ s : State, c < s.chips.length →
    let x := s.readBeat c
    let w := x.tmc.watch.getD c {}
    let up := s.tmc.uptime
    let recent := w.cold.filter fun t => up < t + 3600000000000
    let stepped := fun (k : Nat) (y : ChipWatch) => ({ y with step := k, stepAt := up, beat := none } : ChipWatch)
    (w.step = 0 ∨ (s.chip c).pwr.rails = false → f s = x) ∧
    (w.step = 1 → (s.chip c).pwr.rails = true → w.stepAt = 0 ∨ w.stepAt + 5000000000 ≤ up →
      f s = if (s.chip c).wdg.frozen = true then x.modWatch c fun y => { y with stepAt := up } else (x.resetChip c 3).modWatch c (stepped 2)) ∧
    (2 ≤ w.step → (s.chip c).pwr.rails = true → w.stepAt + 5000000000 ≤ up → recent.length < 3 →
      f s = (x.resetChip c 2).modWatch c fun y => { stepped 3 y with cold := up :: recent }) ∧
    (2 ≤ w.step → (s.chip c).pwr.rails = true → w.stepAt + 5000000000 ≤ up → 3 ≤ recent.length → c < x.tmc.watch.length →
      ((f s).chip c).pwr.rails = false ∧ ((f s).tmc.watch.getD c {}).failed = true)) ∧
  (∀ c e rest, ∃ f : State → State, Does (.smbAlertN c) (fun s => chipOf c s ∧ (s.chip c).takesFrom agSB = true ∧ (s.chip c).ler.fatals = e :: rest) f ∧
    ∀ s : State, c < s.chips.length → (s.chip c).takesFrom agSB = true → (s.chip c).ler.fatals = e :: rest → ((f s).chip c).ler.fatals = rest ∧
      ∀ n ∈ s.authSessions, ∃ q, .mgmt n (mgmtFrame 0x70 2 0 q ([e.cls, c, 0, 0] ++ e.bytes)) ∈ (f s).tmc.out) ∧
  (∀ pin mv, ∃ f : State → State, Does (.pwrFailAssert pin mv) (fun _ => True) f ∧ ∀ s : State,
    let bad := pin = true ∨ mv < 38000 ∨ 64000 < mv
    (f s).tmc.pinFail = pin ∧ (f s).tmc.inputMv = mv ∧ ((f s).tmc.pwrFail = true ↔ s.tmc.pwrFail = true ∨ bad) ∧
    (f s).chips = if bad ∧ s.tmc.pwrFail = false then s.chips.map Chip.pwrFall else s.chips) ∧
  (∀ mv, ∃ f : State → State, Does (.pwrFailRelease mv) (fun s => s.tmc.pwrFail = true) f ∧ ∀ s : State, s.tmc.pwrFail = true →
    let good := 40000 ≤ mv ∧ mv ≤ 60000
    let since := s.tmc.goodSince.getD s.tmc.uptime
    (¬ good → (f s).tmc.pwrFail = true ∧ (f s).chips = s.chips ∧ (f s).tmc.goodSince = none) ∧
    (good → s.tmc.uptime < since + 100000000 → (f s).tmc.pwrFail = true ∧ (f s).chips = s.chips ∧ (f s).tmc.goodSince = some since) ∧
    (good → since + 100000000 ≤ s.tmc.uptime → s.tmc.held = [] → (f s).tmc.pwrFail = false ∧ (f s).chips = s.chips.map Chip.pwrRise)) ∧
  (∃ f : State → State, Does .wakeHoldDiscard State.up f ∧ ∀ s : State,
    (f s).tmc.held = s.tmc.held.filter (fun h => s.tmc.uptime < h.since + 60000000000) ∧ (f s).chips = s.chips) ∧
  (∀ k, Does (.fanFail k) (fun s => s.up ∧ k < s.trayType.fans ∧ s.tmc.fanFault.testBit k = false) fun s =>
    let a := s.modTmc fun t => { t with fanFault := t.fanFault ||| 2 ^ k, fanDuty := 100 }
    if s.tmc.fanFault = 0 then a.trayEvent 0x0E01 warn k else (a.trayEvent 0x0E02 err (s.tmc.fanFault ||| 2 ^ k)).redivide) ∧
  (∀ s : State, ∀ n, s.fanLimit n = if 2 ≤ ((List.range 8).filter s.tmc.fanFault.testBit).length then s.trayType.allowance + 60 * n else s.trayType.maxCap) ∧
  (let hot := fun (s : State) => ∃ c ∈ s.live, (s.chip c).alive = true ∧ 95 * 16 ≤ sgn 16 (s.chip c).pwr.dieTemp
   let cool := fun (s : State) => ∀ c ∈ s.live, (s.chip c).alive = true → sgn 16 (s.chip c).pwr.dieTemp ≤ 85 * 16
   Does .thermalLimitStep (fun s => s.up ∧ hot s ∧ s.tmc.thermalAt + 1000000000 ≤ s.tmc.uptime)
     (fun s => (s.modTmc fun t => { t with thermalAt := t.uptime }).setThermal (s.tmc.thermal - 10)) ∧
   Does .thermalLimitStep (fun s => s.up ∧ cool s ∧ s.tmc.thermalAt + 10000000000 ≤ s.tmc.uptime)
     (fun s => (s.modTmc fun t => { t with thermalAt := t.uptime }).setThermal (s.tmc.thermal + 5)) ∧
   Does .thermalLimitStep (fun s => ¬ hot s ∧ ¬ cool s) id) ∧
  (∀ x : Int, ∃ f : State → State, Does (.inletDerate x) State.up f ∧ ∀ s : State, (f s).tmc.inlet = x ∧
    (f s).tmc.thermal = max (s.trayType.allowance + 60 * s.live.length) (min s.tmc.thermal (min (s.seeInlet x).derated s.trayType.maxCap)) ∧ (f s).chips = s.chips) ∧
  (∀ s : State, s.derated = s.trayType.maxCap - s.trayType.derate * ((s.tmc.inlet - (40 - s.altitudeShift) * 16) / 16).toNat) ∧
  (∃ f : State → State, Does .inletShutdown (fun s => s.up ∧ ∃ g, s.tmc.hotSince = some g ∧ g + 10000000000 ≤ s.tmc.uptime) f ∧ ∀ s : State,
    (∃ g, s.tmc.hotSince = some g ∧ g + 10000000000 ≤ s.tmc.uptime) → ∀ c ∈ s.live, s.tmc.dormant.testBit c = false → (f s).tmc.inletDown.testBit c = true) ∧
  Does .inletShutdown (fun s => s.up ∧ s.tmc.hotSince = none ∧ (∃ g, s.tmc.coolSince = some g ∧ g + 300000000000 ≤ s.tmc.uptime) ∧ s.tmc.inletDown ≠ 0)
    (fun s => (s.modTmc fun t => { t with inletDown := 0 }).wake s.tmc.inletDown) ∧
  (let duty := fun (asked : Nat) (s : State) => if s.tmc.fanFault = 0 then asked else 100
   (∀ asked draw, Does (.filterWarning asked draw) (fun s => s.up ∧ ¬ (80 < duty asked s ∧ s.tmc.inlet ≤ 25 * 16 ∧ 2 * draw ≤ s.trayType.maxCap))
    fun s => s.modTmc fun t => { t with fanDuty := duty asked s, filterSince := none, filter := false }) ∧
   (∀ asked draw, Does (.filterWarning asked draw) (fun s => s.up ∧ 80 < duty asked s ∧ s.tmc.inlet ≤ 25 * 16 ∧ 2 * draw ≤ s.trayType.maxCap) fun s =>
    let g := s.tmc.filterSince.getD s.tmc.uptime
    let a := s.modTmc fun t => { t with fanDuty := duty asked s, filterSince := some g }
    if g + 600000000000 ≤ s.tmc.uptime ∧ s.tmc.filter = false then (a.modTmc fun t => { t with filter := true }).trayEvent 0x0E06 warn 0 else a)) ∧
  ∀ k present passive mw, Does (.linkOutModuleInsert k present passive mw) State.up fun s => s.modTmc fun t => { t with
    ports := t.ports.set k (if present = false then 0 else if passive = true ∨ mw ≤ 3500 then 1 else 2) }
/-! ## The machine as a whole -/

/-- s0 reads 0 and p0 reads all ones whatever is written to them; any other register that is written holds what was written, and no other register
changes (R303). -/
def Obligations.HardwiredRegisters : Prop :=
  (∀ (x : Core) (r d : Nat) (v : W64), (x.setS d v).getS r = if r = 0 then 0 else if r = d ∧ d < x.s.length then v else x.getS r) ∧
  (∀ (x : Core) (r d : Nat) (v : W64), (x.setP d v).getP r = if r = 0 then BitVec.allOnes 64 else if r = d ∧ d < x.p.length then v else x.getP r) ∧
  (∀ (x : Core) (v : W64), x.setS 0 v = x ∧ x.setP 0 v = x) ∧
  ∀ (x : Core) (r d : Nat) (v : V512), (x.setV d v).getV r = if r = d ∧ d < x.v.length then v else x.getV r

/-- The frame of the instructions that compute in registers: one that retires changes no memory, no unit, no other core's registers, no other chip
and nothing of the tray; of its own core it changes the destination register alone, the PC and the counts, and a floating-point one also the flags
of ACW bits 12:8 (R302, R303, R310, R312, R331, R353). -/
def Obligations.RegisterInstructionFrame : Prop :=
  ∀ (i : Nat → Nat → W64 → Sys2Proof.Instr) (s s' : State) (c k : Nat) (w : W64) (ch ch' : Chip),
    writesS i ∨ writesP i ∨ writesV i → s.chips[c]? = some ch → exec (i c k w) s = .next s' → s'.chips[c]? = some ch' →
    (ch'.core k).retired ≠ (ch.core k).retired →
    let x := ch.core k
    let y := ch'.core k
    s'.tmc = s.tmc ∧ s'.pending = s.pending ∧ s'.trayType = s.trayType ∧ (∀ d, d ≠ c → s'.chips[d]? = s.chips[d]?) ∧ Chip.agreeBut k ch ch' ∧
    (y.acw &&& ~~~0x1F00#32 = x.acw &&& ~~~0x1F00#32) ∧ y.cq = x.cq ∧ y.outst = x.outst ∧ y.posted = x.posted ∧ y.fault = x.fault ∧
    y.image = x.image ∧ y.epochOrder = x.epochOrder ∧ y.retired = (x.retired + 1) % 2 ^ 64 ∧
    (writesS i → y.v = x.v ∧ y.p = x.p ∧ y.acw = x.acw ∧ ∀ r, r ≠ fD w → y.getS r = x.getS r) ∧
    (writesP i → y.v = x.v ∧ y.s = x.s ∧ ∀ r, r ≠ fD w → y.getP r = x.getP r) ∧
    (writesV i → y.s = x.s ∧ y.p = x.p ∧ ∀ r, r ≠ fD w → y.getV r = x.getV r)

/-- The machine right after reset: an ST4 of four HA720, each with 64 cores, 8 pods, 4 coder units, 2 tree engines and 6 links, off, with the
reset values of its registers and an empty memory; the TMC has not started, and no command waits. It meets the invariants (R1, R3, R4, R901,
R928, R929, R940, R962). Which tray and variant the model starts with is its choice (DESIGN CHOICE, log entry 1). -/
def Obligations.ResetState : Prop :=
  State.reset.trayType = .st4 ∧ State.reset.pending = [] ∧ State.reset.chips.length = 4 ∧ State.reset.tmc = {} ∧ State.reset.inv = true ∧
  ∀ c, c < 4 → ∃ ch, State.reset.chips[c]? = some ch ∧ ch.variant = .ha720 ∧ ch.alive = false ∧ ch.boot.straps = c ∧ ch.boot.stage = .reset ∧
    ch.boot.plateSlot = 0xF ∧ ch.boot.released = false ∧ ch.pods.length = 8 ∧ ch.cores.length = 64 ∧ ch.links.length = 6 ∧ ch.cus.length = 4 ∧ ch.tes.length = 2 ∧ ch.mem = [] ∧ Memory.wf ch.mem = true ∧
    ch.time = 0 ∧ ch.mbox.busy = false ∧ ch.mbox.done = false ∧ ch.mbox.overrun = false ∧ ch.host.pfBar4 = 34 ∧ ch.host.vfBar4 = 32 ∧
    (∀ r ∈ ch.host.rings, r = ({} : Rings)) ∧ (∀ q ∈ ch.parts, q.isDefined = false) ∧ ∀ x ∈ ch.cores, x = ({} : Core)

/-- Every command completes: it is never refused, and its only fault names a chip that the tray does not hold. It leaves the queue, the tray's type
and the number of its chips as they are (R1). -/
def Obligations.EveryCommandCompletes : Prop :=
  ∀ (i : Sys2Proof.Instr) (s : State),
    (∃ s', exec i s = .next s' ∧ s'.pending = s.pending ∧ s'.trayType = s.trayType ∧ s'.chips.length = s.chips.length) ∨
    ∃ c, s.chips.length ≤ c ∧ exec i s = .fault (.noSuchChip c)

/-- Every step keeps the invariant of the tray: the chips of its type; the write lease held by an open OPERATOR session; the flash switch held by one
chip of the tray and waited for by others, each once; the tray flash in its canonical form (R1, R35, R64, R66). -/
def Obligations.StepKeepsTrayInvariant : Prop :=
  ∀ s s' : State, s.inv = true → step s = .next s' → s'.inv = true

/-- Every step keeps the memory of every chip in its canonical form: addresses rising, no listed byte 0. -/
def Obligations.StepKeepsMemoryCanonical : Prop :=
  ∀ s s' : State, (∀ ch ∈ s.chips, Memory.wf ch.mem = true) → step s = .next s' → ∀ ch ∈ s'.chips, Memory.wf ch.mem = true
end

