-- ==== Sys2Proof/Laws/Issue.lean ====
section
/-! SUPPORT. What `onChip` and the issue of an instruction can answer, said once. -/
namespace Sys2Proof.Machine

/-- A command to a chip that is there changes that chip. -/
theorem onChip_some {s : State} {c : Nat} {ch : Chip} (h : s.chips[c]? = some ch) (f : Chip → Chip) :
    onChip c f s = .next (s.withChip c (f ch)) := by
  simp [onChip, h, State.withChip]

/-- A command to a chip that is not there is a fault. -/
theorem onChip_none {s : State} {c : Nat} (h : s.chips[c]? = none) (f : Chip → Chip) : onChip c f s = .fault (.noSuchChip c) := by
  simp [onChip, h]

/-- Everything a command to one chip can answer. -/
theorem onChip_cases (c : Nat) (f : Chip → Chip) (s : State) :
    (∃ ch, s.chips[c]? = some ch ∧ onChip c f s = .next (s.withChip c (f ch))) ∨
    (s.chips[c]? = none ∧ onChip c f s = .fault (.noSuchChip c)) := by
  cases h : s.chips[c]? with
  | none => exact .inr ⟨rfl, onChip_none h f⟩
  | some ch => exact .inl ⟨ch, rfl, onChip_some h f⟩

/-- An instruction that its core executes: its own effect, on the chip after the fetch. -/
theorem issue_ready {ch : Chip} {k : Nat} {w : W64} {op used : Nat} (hr : ch.ready k w op used = true) (ho : opcodeListed op = true)
    (body : Chip → Core → Res) : ch.issue k w used body = (ch.fetched k).settleRes k (body (ch.fetched k) (ch.core k)) := by
  simp only [Chip.ready, Bool.and_eq_true, Bool.not_eq_true', beq_iff_eq, decide_eq_true_eq, Option.isNone_iff_eq_none] at hr
  obtain ⟨⟨⟨⟨⟨⟨⟨⟨⟨h1, h2⟩, h3⟩, h4⟩, h5⟩, h6⟩, h7⟩, h8⟩, h9⟩, h10⟩ := hr
  have hn : ¬ (8 * (ch.core k).image.length ≤ (ch.core k).pc) := by omega
  simp only [Chip.issue, h1, h2, h3, h4, hn, h6, h7, h8, ho, h9, h10, Chip.fetched]
  simp

/-- The meaning of an instruction that its core executes. -/
theorem issueOn_ready {s : State} {c k : Nat} {w : W64} {op used : Nat} {ch : Chip} (hc : s.chips[c]? = some ch)
    (hr : ch.ready k w op used = true) (ho : opcodeListed op = true) (body : Chip → Core → Res) :
    issueOn c k w used body s = .next (s.withChip c ((ch.fetched k).settleRes k (body (ch.fetched k) (ch.core k)))) := by
  rw [issueOn, onChip_some hc, issue_ready hr ho]

end Sys2Proof.Machine
end

