-- ==== Sys2Proof/Laws/Lanes.lean ====
section
/-! SUPPORT. What the lane operations of vectors and predicates do, lane by lane. -/
namespace Sys2Proof.Machine

/-- A bit field is below its width's power. -/
theorem bitsOf_lt (n lo len : Nat) : bitsOf n lo len < 2 ^ len := Nat.mod_lt _ (Nat.two_pow_pos _)

/-- A lane is below its width's power. -/
theorem lane_lt (v : V512) (w i : Nat) : lane v w i < 2 ^ w := bitsOf_lt _ _ _

/-- The number that lanes spell: lane `i` of it. -/
theorem spell_bits (w : Nat) (l : List Nat) (i : Nat) (h : i < l.length) :
    bitsOf (l.reverse.foldl (fun a x => a * 2 ^ w + x % 2 ^ w) 0) (i * w) w = l[i] % 2 ^ w := by
  induction l generalizing i with
  | nil => simp at h
  | cons x r ih =>
    have hx : x % 2 ^ w < 2 ^ w := Nat.mod_lt _ (Nat.two_pow_pos _)
    simp only [List.reverse_cons, List.foldl_append, List.foldl_cons, List.foldl_nil]
    cases i with
    | zero => simp [bitsOf, Nat.add_mod]
    | succ j =>
      have hj : j < r.length := by simpa using h
      rw [List.getElem_cons_succ, ← ih j hj]
      simp only [bitsOf, Nat.shiftRight_eq_div_pow]
      rw [show (j + 1) * w = w + j * w by rw [Nat.succ_mul, Nat.add_comm], Nat.pow_add, ← Nat.div_div_eq_div_mul]
      rw [show ∀ t : Nat, (t * 2 ^ w + x % 2 ^ w) / 2 ^ w = t from fun t => by
        rw [Nat.add_comm, Nat.add_mul_div_right _ _ (Nat.two_pow_pos _), Nat.div_eq_of_lt hx, Nat.zero_add]]

/-- The number that lanes spell stays below 2 to the sum of the widths. -/
theorem spell_lt (w : Nat) (l : List Nat) : l.reverse.foldl (fun a x => a * 2 ^ w + x % 2 ^ w) 0 < 2 ^ (l.length * w) := by
  induction l with
  | nil => simp
  | cons x r ih =>
    simp only [List.reverse_cons, List.foldl_append, List.foldl_cons, List.foldl_nil, List.length_cons]
    have hx : x % 2 ^ w < 2 ^ w := Nat.mod_lt _ (Nat.two_pow_pos _)
    have : 2 ^ ((r.length + 1) * w) = 2 ^ (r.length * w) * 2 ^ w := by rw [← Nat.pow_add, Nat.succ_mul]
    rw [this]
    refine Nat.lt_of_lt_of_le (Nat.add_lt_add_left hx _) ?_
    rw [← Nat.succ_mul]
    exact Nat.mul_le_mul_right _ ih

/-- Lane `i` of a vector made from lanes. -/
theorem lane_fromLanes (w : Nat) (l : List Nat) (i : Nat) (h : i < l.length) (hl : l.length * w ≤ 512) :
    lane (fromLanes w l) w i = l[i] % 2 ^ w := by
  have := spell_lt w l
  have h2 : 2 ^ (l.length * w) ≤ 2 ^ 512 := Nat.pow_le_pow_right (by decide) hl
  rw [lane, fromLanes, BitVec.toNat_ofNat, Nat.mod_eq_of_lt (by omega), spell_bits w l i h]

/-- Lane `j` of a lane-wise result: the function of an active lane, what stood there otherwise (R312). -/
theorem lane_mapLanes (w : Nat) (pred : W64) (old : V512) (f : Nat → Nat) (j : Nat) (h : j < 512 / w) :
    lane (mapLanes w pred old f) w j = if pred.getLsbD j then f j % 2 ^ w else lane old w j := by
  have hl : 512 / w * w ≤ 512 := Nat.div_mul_le_self _ _
  rw [mapLanes, lane_fromLanes _ _ _ (by simpa using h) (by simpa using hl)]
  simp only [List.getElem_map, List.getElem_range]
  split
  · rfl
  · exact Nat.mod_eq_of_lt (lane_lt _ _ _)

/-- The number that truth values spell: its bit `i`. -/
theorem spell_testBit (l : List Bool) (i : Nat) :
    (l.reverse.foldl (fun a b => a * 2 + b2n b) 0).testBit i = l.getD i false := by
  induction l generalizing i with
  | nil => simp
  | cons x r ih =>
    simp only [List.reverse_cons, List.foldl_append, List.foldl_cons, List.foldl_nil]
    cases i with
    | zero => cases x <;> simp [b2n, Nat.testBit_zero]
    | succ j =>
      rw [List.getD_cons_succ, ← ih j, Nat.testBit_succ]
      congr 1
      cases x <;> simp [b2n] <;> omega

/-- Bit `j` of a predicate made from a truth per lane (R328). -/
theorem predOf_bit (n : Nat) (f : Nat → Bool) (j : Nat) (h : j < 64) : (predOf n f).getLsbD j = (decide (j < n) && f j) := by
  have := spell_testBit ((List.range n).map f) j
  rw [← List.map_reverse, List.foldl_map] at this
  rw [predOf, BitVec.getLsbD_ofNat, this]
  by_cases hj : j < n <;> simp [hj, h]

/-- Bit `j` of a predicate that only active lanes change (R312). -/
theorem predLanes_bit (n : Nat) (pred old : W64) (f : Nat → Bool) (j : Nat) (h : j < 64) :
    (predLanes n pred old f).getLsbD j = if j < n && pred.getLsbD j then f j else old.getLsbD j := by
  have := spell_testBit ((List.range 64).map fun i => if i < n && pred.getLsbD i then f i else old.getLsbD i) j
  rw [← List.map_reverse, List.foldl_map] at this
  rw [predLanes, BitVec.getLsbD_ofNat, this]
  simp [h]

/-- Flags gathered from a list of lanes. -/
theorem gathered_bit (l : List Nat) (act : Nat → Bool) (g : Nat → Nat) (z b : Nat) :
    (l.foldl (fun a i => if act i then a ||| g i else a) z).testBit b = true ↔
      z.testBit b = true ∨ ∃ j ∈ l, act j = true ∧ (g j).testBit b = true := by
  induction l generalizing z with
  | nil => simp
  | cons x r ih =>
    rw [List.foldl_cons, ih]
    by_cases hx : act x = true
    · simp [hx, or_assoc]
    · simp [hx]

/-- The flags of the active lanes (R331). -/
theorem laneFlags_bit (w : Nat) (pred : W64) (f : Nat → Nat × Nat) (b : Nat) :
    (laneFlags w pred f).testBit b = true ↔ ∃ j, j < 512 / w ∧ pred.getLsbD j = true ∧ (f j).2.testBit b = true := by
  rw [laneFlags, gathered_bit _ (fun i => pred.getLsbD i) (fun i => (f i).2)]
  simp

end Sys2Proof.Machine
end

