-- ==== Sys2Proof/Laws/Memory.lean ====
section
/-! SUPPORT. Memory keeps its canonical form under every operation, and a byte reads as it was last written. -/
namespace Sys2Proof.Machine

/-- The canonical form, cell by cell: addresses rise and no listed byte is 0. -/
theorem Memory.wf_iff (m : List Host.Cell) :
    Memory.wf m = true ↔ m.Pairwise (fun c d => c.1 < d.1) ∧ ∀ c ∈ m, c.2 ≠ 0 := by
  induction m with
  | nil => simp [Memory.wf]
  | cons c r ih =>
    cases r with
    | nil => simp [Memory.wf]
    | cons d r =>
      simp only [Memory.wf, Bool.and_eq_true, bne_iff_ne, decide_eq_true_eq, ih, List.pairwise_cons, List.mem_cons, forall_eq_or_imp]
      constructor
      · rintro ⟨⟨hc, hcd⟩, ⟨hd, hr⟩, hz⟩
        exact ⟨⟨⟨hcd, fun e he => Nat.lt_trans hcd (hd e he)⟩, hd, hr⟩, hc, hz⟩
      · rintro ⟨⟨⟨hcd, -⟩, hd, hr⟩, hc, hz⟩
        exact ⟨⟨hc, hcd⟩, ⟨hd, hr⟩, hz⟩

/-- The cells of a memory after one byte is written: those at other addresses, and the written one where it is not 0. -/
theorem Memory.mem_put {m : List Host.Cell} {a : Nat} {b : Byte} (h : m.Pairwise fun c d => c.1 < d.1) (e : Host.Cell) :
    e ∈ Memory.put m a b ↔ (e ∈ m ∧ e.1 ≠ a) ∨ (e = (a, b) ∧ b ≠ 0) := by
  induction m with
  | nil =>
    by_cases hb : b = 0
    · simp [Memory.put, hb]
    · simp only [Memory.put, hb, if_false, List.mem_singleton, List.not_mem_nil, false_and, false_or, not_false_eq_true, and_true, ne_eq]
  | cons c r ih =>
    have hr := (List.pairwise_cons.1 h).2
    have hc := (List.pairwise_cons.1 h).1
    simp only [Memory.put]
    by_cases h1 : a < c.1
    · have hne : ∀ f ∈ c :: r, f.1 ≠ a := by
        intro f hf
        rcases List.mem_cons.1 hf with rfl | hf
        · omega
        · have := hc f hf; omega
      by_cases hb : b = 0
      · simp only [h1, hb, if_true]
        exact ⟨fun he => .inl ⟨he, hne e he⟩, fun he => he.elim And.left (fun x => absurd rfl x.2)⟩
      · simp only [h1, hb, if_true, if_false]
        constructor
        · intro he
          rcases List.mem_cons.1 he with rfl | he
          · exact .inr ⟨rfl, hb⟩
          · exact .inl ⟨he, hne e he⟩
        · rintro (⟨he, -⟩ | ⟨rfl, -⟩)
          · exact List.mem_cons_of_mem _ he
          · exact List.mem_cons_self
    · by_cases h2 : c.1 = a
      · have hne : ∀ f ∈ r, f.1 ≠ a := fun f hf => by have := hc f hf; omega
        simp only [h2, Nat.lt_irrefl, if_false, if_true]
        by_cases hb : b = 0
        · simp only [hb, if_true, List.mem_cons]
          constructor
          · exact fun he => .inl ⟨.inr he, hne e he⟩
          · rintro (⟨rfl | he, hn⟩ | ⟨-, hn⟩)
            · exact absurd h2 hn
            · exact he
            · exact absurd rfl hn
        · simp only [hb, if_false, List.mem_cons]
          constructor
          · rintro (rfl | he)
            · exact .inr ⟨rfl, hb⟩
            · exact .inl ⟨.inr he, hne e he⟩
          · rintro (⟨rfl | he, hn⟩ | ⟨he, -⟩)
            · exact absurd h2 hn
            · exact .inr he
            · exact .inl he
      · simp only [h1, h2, if_false, List.mem_cons, ih hr]
        constructor
        · rintro (rfl | ⟨he, hn⟩ | he)
          · exact .inl ⟨.inl rfl, h2⟩
          · exact .inl ⟨.inr he, hn⟩
          · exact .inr he
        · rintro (⟨rfl | he, hn⟩ | he)
          · exact .inl rfl
          · exact .inr (.inl ⟨he, hn⟩)
          · exact .inr (.inr he)

/-- Writing a byte keeps the canonical form. -/
theorem Memory.put_wf {m : List Host.Cell} (h : Memory.wf m = true) (a : Nat) (b : Byte) : Memory.wf (Memory.put m a b) = true := by
  rw [Memory.wf_iff] at h ⊢
  obtain ⟨hs, hz⟩ := h
  refine ⟨?_, fun e he => ?_⟩
  · clear hz
    induction m with
    | nil =>
      simp only [Memory.put]
      split
      · exact List.Pairwise.nil
      · exact List.pairwise_singleton _ _
    | cons c r ih =>
      have hr := (List.pairwise_cons.1 hs).2
      have hc := (List.pairwise_cons.1 hs).1
      simp only [Memory.put]
      split
      · rename_i h1
        split
        · exact hs
        · refine List.pairwise_cons.2 ⟨fun f hf => ?_, hs⟩
          rcases List.mem_cons.1 hf with rfl | hf
          · exact h1
          · exact Nat.lt_trans h1 (hc f hf)
      · rename_i h1
        split
        · rename_i h2
          split
          · exact hr
          · exact List.pairwise_cons.2 ⟨fun f hf => h2 ▸ hc f hf, hr⟩
        · rename_i h2
          refine List.pairwise_cons.2 ⟨fun f hf => ?_, ih hr⟩
          rcases (Memory.mem_put hr f).1 hf with ⟨hf, -⟩ | ⟨rfl, -⟩
          · exact hc f hf
          · show c.1 < a
            omega
  · rcases (Memory.mem_put hs e).1 he with ⟨he, -⟩ | ⟨rfl, hb⟩
    · exact hz e he
    · exact hb

/-- The byte at an address after one byte is written. -/
theorem Memory.get_put (m : List Host.Cell) (a : Nat) (b : Byte) (i : Nat) (h : m.Pairwise fun c d => c.1 < d.1) :
    Memory.get (Memory.put m a b) i = if i = a then b else Memory.get m i := by
  have absent : ∀ (r : List Host.Cell) (j : Nat), (∀ f ∈ r, f.1 ≠ j) → Memory.get r j = 0 := by
    intro r j hr
    induction r with
    | nil => rfl
    | cons c r ih => simp only [Memory.get, hr c List.mem_cons_self, if_false]; exact ih fun f hf => hr f (List.mem_cons_of_mem _ hf)
  induction m with
  | nil =>
    by_cases hb : b = 0
    · simp only [Memory.put, hb, if_true, Memory.get]
      split <;> rfl
    · simp only [Memory.put, hb, if_false, Memory.get, eq_comm (a := a)]
  | cons c r ih =>
    have hr := (List.pairwise_cons.1 h).2
    have hc := (List.pairwise_cons.1 h).1
    simp only [Memory.put]
    by_cases h1 : a < c.1
    · have hz : Memory.get (c :: r) a = 0 := absent _ _ fun f hf => by
        rcases List.mem_cons.1 hf with rfl | hf
        · omega
        · have := hc f hf; omega
      by_cases hb : b = 0
      · simp only [h1, hb, if_true]
        split
        · rename_i hi; rw [hi, hz]
        · rfl
      · simp only [h1, hb, if_true, if_false, Memory.get, eq_comm (a := a)]
    · by_cases h2 : c.1 = a
      · have hz : Memory.get r a = 0 := absent _ _ fun f hf => by have := hc f hf; omega
        simp only [h2, Nat.lt_irrefl, if_false, if_true]
        by_cases hb : b = 0
        · simp only [hb, if_true, Memory.get, h2]
          by_cases hi : i = a
          · simp [hi, hz]
          · simp [hi, Ne.symm hi]
        · simp only [hb, if_false, Memory.get, h2, eq_comm (a := a)]
          split <;> simp_all
      · simp only [h1, h2, if_false, Memory.get, ih hr]
        by_cases hi : i = a
        · subst hi; simp [h2]
        · simp [hi]

/-- Writing bytes keeps the canonical form. -/
theorem Memory.write_wf {m : List Host.Cell} (h : Memory.wf m = true) (a : Nat) (l : List Nat) : Memory.wf (Memory.write m a l) = true := by
  induction l generalizing m a with
  | nil => exact h
  | cons b r ih => exact ih (Memory.put_wf h a _) (a + 1)

/-- A byte after bytes are written: the written one, or what was there. -/
theorem Memory.get_write {m : List Host.Cell} (h : Memory.wf m = true) (a : Nat) (l : List Nat) (i : Nat) :
    Memory.get (Memory.write m a l) i = if a ≤ i ∧ i < a + l.length then BitVec.ofNat 8 (l.getD (i - a) 0) else Memory.get m i := by
  induction l generalizing m a with
  | nil => have : ¬ (a ≤ i ∧ i < a) := by omega
           simp [Memory.write, this]
  | cons b r ih =>
    rw [Memory.write, ih (Memory.put_wf h a _), Memory.get_put _ _ _ _ ((Memory.wf_iff m).1 h).1, List.length_cons]
    by_cases h1 : i = a
    · subst h1
      have : ¬ (i + 1 ≤ i ∧ i < i + 1 + r.length) := by omega
      have h3 : i ≤ i ∧ i < i + (r.length + 1) := by omega
      simp [this, h3]
    · by_cases h2 : a + 1 ≤ i ∧ i < a + 1 + r.length
      · have h3 : a ≤ i ∧ i < a + (r.length + 1) := by omega
        rw [if_pos h2, if_pos h3, show i - a = (i - (a + 1)) + 1 by omega, List.getD_cons_succ]
      · have h3 : ¬ (a ≤ i ∧ i < a + (r.length + 1)) := by omega
        rw [if_neg h2, if_neg h1, if_neg h3]

/-- Taking cells out keeps the canonical form. -/
theorem Memory.filter_wf {m : List Host.Cell} (h : Memory.wf m = true) (f : Host.Cell → Bool) : Memory.wf (m.filter f) = true := by
  rw [Memory.wf_iff] at h ⊢
  exact ⟨h.1.filter f, fun c hc => h.2 c (List.mem_filter.1 hc).1⟩

/-- Clearing a range keeps the canonical form. -/
theorem Memory.clear_wf {m : List Host.Cell} (h : Memory.wf m = true) (a n : Nat) : Memory.wf (Memory.clear m a n) = true :=
  Memory.filter_wf h _

/-- A byte after a range is cleared. -/
theorem Memory.get_clear (m : List Host.Cell) (a n i : Nat) :
    Memory.get (Memory.clear m a n) i = if a ≤ i ∧ i < a + n then 0 else Memory.get m i := by
  induction m with
  | nil => simp [Memory.clear, Memory.get]
  | cons c r ih =>
    simp only [Memory.clear] at ih ⊢
    rw [List.filter_cons]
    by_cases h1 : c.1 < a ∨ a + n ≤ c.1
    · simp only [h1, if_true, Bool.or_eq_true, decide_eq_true_eq, Memory.get, ih]
      by_cases h2 : c.1 = i
      · have : ¬ (a ≤ i ∧ i < a + n) := by omega
        simp [h2, this]
      · simp [h2]
    · simp only [Bool.or_eq_true, decide_eq_true_eq, h1, if_false, ih, Memory.get]
      by_cases h2 : c.1 = i
      · have : a ≤ i ∧ i < a + n := by omega
        simp [this]
      · simp [h2]

/-- Reading bytes gives as many as were asked for. -/
@[simp] theorem Memory.bytes_length (m : List Host.Cell) (a n : Nat) : (Memory.bytes m a n).length = n := by
  induction n generalizing a with
  | zero => rfl
  | succ n ih => simp [Memory.bytes, ih]

/-- Byte `i` of the bytes read. -/
theorem Memory.bytes_getD (m : List Host.Cell) (a n i : Nat) (h : i < n) : (Memory.bytes m a n).getD i 0 = (Memory.get m (a + i)).toNat := by
  induction n generalizing a i with
  | zero => omega
  | succ n ih =>
    cases i with
    | zero => simp [Memory.bytes]
    | succ i => rw [Memory.bytes, List.getD_cons_succ, ih (a + 1) i (by omega), show a + 1 + i = a + (i + 1) by omega]

@[simp] theorem leBytes_length (n v : Nat) : (leBytes n v).length = n := by
  induction n generalizing v with
  | zero => rfl
  | succ n ih => simp [leBytes, ih]

/-- The bytes of a number spell it again. -/
theorem leNat_leBytes (n v : Nat) : leNat (leBytes n v) = v % 2 ^ (8 * n) := by
  induction n generalizing v with
  | zero => simp [leNat, leBytes, Nat.mod_one]
  | succ n ih =>
    rw [leBytes, leNat, ih, Nat.mod_mod, show 8 * (n + 1) = 8 + 8 * n by omega, Nat.pow_add, show (2 ^ 8 : Nat) = 256 from rfl, Nat.mod_mul]

/-- The memory of every chip right after reset is in its canonical form. -/
theorem reset_mem_wf : ∀ ch ∈ State.reset.chips, Memory.wf ch.mem = true := by decide +kernel

end Sys2Proof.Machine
end

