-- ==== Sys2Proof/Laws/State.lean ====
section
/-! SUPPORT. What each update of the state leaves as it was: one lemma per field and update, so that no proof unfolds a record
update; and what the operations that every command shares can answer. -/
namespace Sys2Proof.Machine

/-! ### Chip.modCore -/

@[simp] theorem Chip.modCore_variant (ch : Chip) (k : Nat) (f : Core → Core) : (ch.modCore k f).variant = ch.variant := rfl
@[simp] theorem Chip.modCore_tray (ch : Chip) (k : Nat) (f : Core → Core) : (ch.modCore k f).tray = ch.tray := rfl
@[simp] theorem Chip.modCore_time (ch : Chip) (k : Nat) (f : Core → Core) : (ch.modCore k f).time = ch.time := rfl
@[simp] theorem Chip.modCore_strapPins (ch : Chip) (k : Nat) (f : Core → Core) : (ch.modCore k f).strapPins = ch.strapPins := rfl
@[simp] theorem Chip.modCore_tickOutUntil (ch : Chip) (k : Nat) (f : Core → Core) : (ch.modCore k f).tickOutUntil = ch.tickOutUntil := rfl
@[simp] theorem Chip.modCore_decisions (ch : Chip) (k : Nat) (f : Core → Core) : (ch.modCore k f).decisions = ch.decisions := rfl
@[simp] theorem Chip.modCore_phase (ch : Chip) (k : Nat) (f : Core → Core) : (ch.modCore k f).phase = ch.phase := rfl
@[simp] theorem Chip.modCore_timeLatch (ch : Chip) (k : Nat) (f : Core → Core) : (ch.modCore k f).timeLatch = ch.timeLatch := rfl
@[simp] theorem Chip.modCore_regLog (ch : Chip) (k : Nat) (f : Core → Core) : (ch.modCore k f).regLog = ch.regLog := rfl
@[simp] theorem Chip.modCore_mem (ch : Chip) (k : Nat) (f : Core → Core) : (ch.modCore k f).mem = ch.mem := rfl
@[simp] theorem Chip.modCore_badLines (ch : Chip) (k : Nat) (f : Core → Core) : (ch.modCore k f).badLines = ch.badLines := rfl
@[simp] theorem Chip.modCore_softLines (ch : Chip) (k : Nat) (f : Core → Core) : (ch.modCore k f).softLines = ch.softLines := rfl
@[simp] theorem Chip.modCore_pods (ch : Chip) (k : Nat) (f : Core → Core) : (ch.modCore k f).pods = ch.pods := rfl
@[simp] theorem Chip.modCore_cus (ch : Chip) (k : Nat) (f : Core → Core) : (ch.modCore k f).cus = ch.cus := rfl
@[simp] theorem Chip.modCore_tes (ch : Chip) (k : Nat) (f : Core → Core) : (ch.modCore k f).tes = ch.tes := rfl
@[simp] theorem Chip.modCore_links (ch : Chip) (k : Nat) (f : Core → Core) : (ch.modCore k f).links = ch.links := rfl
@[simp] theorem Chip.modCore_parts (ch : Chip) (k : Nat) (f : Core → Core) : (ch.modCore k f).parts = ch.parts := rfl
@[simp] theorem Chip.modCore_chans (ch : Chip) (k : Nat) (f : Core → Core) : (ch.modCore k f).chans = ch.chans := rfl
@[simp] theorem Chip.modCore_syncs (ch : Chip) (k : Nat) (f : Core → Core) : (ch.modCore k f).syncs = ch.syncs := rfl
@[simp] theorem Chip.modCore_regions (ch : Chip) (k : Nat) (f : Core → Core) : (ch.modCore k f).regions = ch.regions := rfl
@[simp] theorem Chip.modCore_oldGens (ch : Chip) (k : Nat) (f : Core → Core) : (ch.modCore k f).oldGens = ch.oldGens := rfl
@[simp] theorem Chip.modCore_arriving (ch : Chip) (k : Nat) (f : Core → Core) : (ch.modCore k f).arriving = ch.arriving := rfl
@[simp] theorem Chip.modCore_remotes (ch : Chip) (k : Nat) (f : Core → Core) : (ch.modCore k f).remotes = ch.remotes := rfl
@[simp] theorem Chip.modCore_nextReq (ch : Chip) (k : Nat) (f : Core → Core) : (ch.modCore k f).nextReq = ch.nextReq := rfl
@[simp] theorem Chip.modCore_loader (ch : Chip) (k : Nat) (f : Core → Core) : (ch.modCore k f).loader = ch.loader := rfl
@[simp] theorem Chip.modCore_ler (ch : Chip) (k : Nat) (f : Core → Core) : (ch.modCore k f).ler = ch.ler := rfl
@[simp] theorem Chip.modCore_rcv (ch : Chip) (k : Nat) (f : Core → Core) : (ch.modCore k f).rcv = ch.rcv := rfl
@[simp] theorem Chip.modCore_wdg (ch : Chip) (k : Nat) (f : Core → Core) : (ch.modCore k f).wdg = ch.wdg := rfl
@[simp] theorem Chip.modCore_pwr (ch : Chip) (k : Nat) (f : Core → Core) : (ch.modCore k f).pwr = ch.pwr := rfl
@[simp] theorem Chip.modCore_boot (ch : Chip) (k : Nat) (f : Core → Core) : (ch.modCore k f).boot = ch.boot := rfl
@[simp] theorem Chip.modCore_host (ch : Chip) (k : Nat) (f : Core → Core) : (ch.modCore k f).host = ch.host := rfl
@[simp] theorem Chip.modCore_mbox (ch : Chip) (k : Nat) (f : Core → Core) : (ch.modCore k f).mbox = ch.mbox := rfl
@[simp] theorem Chip.modCore_sb (ch : Chip) (k : Nat) (f : Core → Core) : (ch.modCore k f).sb = ch.sb := rfl
@[simp] theorem Chip.modCore_tap (ch : Chip) (k : Nat) (f : Core → Core) : (ch.modCore k f).tap = ch.tap := rfl
@[simp] theorem Chip.modCore_twin (ch : Chip) (k : Nat) (f : Core → Core) : (ch.modCore k f).twin = ch.twin := rfl
@[simp] theorem Chip.modCore_bg (ch : Chip) (k : Nat) (f : Core → Core) : (ch.modCore k f).bg = ch.bg := rfl
@[simp] theorem Chip.modCore_free (ch : Chip) (k : Nat) (f : Core → Core) : (ch.modCore k f).free = ch.free := rfl
@[simp] theorem Chip.modCore_out (ch : Chip) (k : Nat) (f : Core → Core) : (ch.modCore k f).out = ch.out := rfl

/-! ### Chip.modPart -/

@[simp] theorem Chip.modPart_variant (ch : Chip) (p : Nat) (f : Part → Part) : (ch.modPart p f).variant = ch.variant := rfl
@[simp] theorem Chip.modPart_tray (ch : Chip) (p : Nat) (f : Part → Part) : (ch.modPart p f).tray = ch.tray := rfl
@[simp] theorem Chip.modPart_time (ch : Chip) (p : Nat) (f : Part → Part) : (ch.modPart p f).time = ch.time := rfl
@[simp] theorem Chip.modPart_strapPins (ch : Chip) (p : Nat) (f : Part → Part) : (ch.modPart p f).strapPins = ch.strapPins := rfl
@[simp] theorem Chip.modPart_tickOutUntil (ch : Chip) (p : Nat) (f : Part → Part) : (ch.modPart p f).tickOutUntil = ch.tickOutUntil := rfl
@[simp] theorem Chip.modPart_decisions (ch : Chip) (p : Nat) (f : Part → Part) : (ch.modPart p f).decisions = ch.decisions := rfl
@[simp] theorem Chip.modPart_phase (ch : Chip) (p : Nat) (f : Part → Part) : (ch.modPart p f).phase = ch.phase := rfl
@[simp] theorem Chip.modPart_timeLatch (ch : Chip) (p : Nat) (f : Part → Part) : (ch.modPart p f).timeLatch = ch.timeLatch := rfl
@[simp] theorem Chip.modPart_regLog (ch : Chip) (p : Nat) (f : Part → Part) : (ch.modPart p f).regLog = ch.regLog := rfl
@[simp] theorem Chip.modPart_mem (ch : Chip) (p : Nat) (f : Part → Part) : (ch.modPart p f).mem = ch.mem := rfl
@[simp] theorem Chip.modPart_badLines (ch : Chip) (p : Nat) (f : Part → Part) : (ch.modPart p f).badLines = ch.badLines := rfl
@[simp] theorem Chip.modPart_softLines (ch : Chip) (p : Nat) (f : Part → Part) : (ch.modPart p f).softLines = ch.softLines := rfl
@[simp] theorem Chip.modPart_cores (ch : Chip) (p : Nat) (f : Part → Part) : (ch.modPart p f).cores = ch.cores := rfl
@[simp] theorem Chip.modPart_pods (ch : Chip) (p : Nat) (f : Part → Part) : (ch.modPart p f).pods = ch.pods := rfl
@[simp] theorem Chip.modPart_cus (ch : Chip) (p : Nat) (f : Part → Part) : (ch.modPart p f).cus = ch.cus := rfl
@[simp] theorem Chip.modPart_tes (ch : Chip) (p : Nat) (f : Part → Part) : (ch.modPart p f).tes = ch.tes := rfl
@[simp] theorem Chip.modPart_links (ch : Chip) (p : Nat) (f : Part → Part) : (ch.modPart p f).links = ch.links := rfl
@[simp] theorem Chip.modPart_chans (ch : Chip) (p : Nat) (f : Part → Part) : (ch.modPart p f).chans = ch.chans := rfl
@[simp] theorem Chip.modPart_syncs (ch : Chip) (p : Nat) (f : Part → Part) : (ch.modPart p f).syncs = ch.syncs := rfl
@[simp] theorem Chip.modPart_regions (ch : Chip) (p : Nat) (f : Part → Part) : (ch.modPart p f).regions = ch.regions := rfl
@[simp] theorem Chip.modPart_oldGens (ch : Chip) (p : Nat) (f : Part → Part) : (ch.modPart p f).oldGens = ch.oldGens := rfl
@[simp] theorem Chip.modPart_arriving (ch : Chip) (p : Nat) (f : Part → Part) : (ch.modPart p f).arriving = ch.arriving := rfl
@[simp] theorem Chip.modPart_remotes (ch : Chip) (p : Nat) (f : Part → Part) : (ch.modPart p f).remotes = ch.remotes := rfl
@[simp] theorem Chip.modPart_nextReq (ch : Chip) (p : Nat) (f : Part → Part) : (ch.modPart p f).nextReq = ch.nextReq := rfl
@[simp] theorem Chip.modPart_loader (ch : Chip) (p : Nat) (f : Part → Part) : (ch.modPart p f).loader = ch.loader := rfl
@[simp] theorem Chip.modPart_ler (ch : Chip) (p : Nat) (f : Part → Part) : (ch.modPart p f).ler = ch.ler := rfl
@[simp] theorem Chip.modPart_rcv (ch : Chip) (p : Nat) (f : Part → Part) : (ch.modPart p f).rcv = ch.rcv := rfl
@[simp] theorem Chip.modPart_wdg (ch : Chip) (p : Nat) (f : Part → Part) : (ch.modPart p f).wdg = ch.wdg := rfl
@[simp] theorem Chip.modPart_pwr (ch : Chip) (p : Nat) (f : Part → Part) : (ch.modPart p f).pwr = ch.pwr := rfl
@[simp] theorem Chip.modPart_boot (ch : Chip) (p : Nat) (f : Part → Part) : (ch.modPart p f).boot = ch.boot := rfl
@[simp] theorem Chip.modPart_host (ch : Chip) (p : Nat) (f : Part → Part) : (ch.modPart p f).host = ch.host := rfl
@[simp] theorem Chip.modPart_mbox (ch : Chip) (p : Nat) (f : Part → Part) : (ch.modPart p f).mbox = ch.mbox := rfl
@[simp] theorem Chip.modPart_sb (ch : Chip) (p : Nat) (f : Part → Part) : (ch.modPart p f).sb = ch.sb := rfl
@[simp] theorem Chip.modPart_tap (ch : Chip) (p : Nat) (f : Part → Part) : (ch.modPart p f).tap = ch.tap := rfl
@[simp] theorem Chip.modPart_twin (ch : Chip) (p : Nat) (f : Part → Part) : (ch.modPart p f).twin = ch.twin := rfl
@[simp] theorem Chip.modPart_bg (ch : Chip) (p : Nat) (f : Part → Part) : (ch.modPart p f).bg = ch.bg := rfl
@[simp] theorem Chip.modPart_free (ch : Chip) (p : Nat) (f : Part → Part) : (ch.modPart p f).free = ch.free := rfl
@[simp] theorem Chip.modPart_out (ch : Chip) (p : Nat) (f : Part → Part) : (ch.modPart p f).out = ch.out := rfl

/-! ### Chip.modPod -/

@[simp] theorem Chip.modPod_variant (ch : Chip) (p : Nat) (f : Pod → Pod) : (ch.modPod p f).variant = ch.variant := rfl
@[simp] theorem Chip.modPod_tray (ch : Chip) (p : Nat) (f : Pod → Pod) : (ch.modPod p f).tray = ch.tray := rfl
@[simp] theorem Chip.modPod_time (ch : Chip) (p : Nat) (f : Pod → Pod) : (ch.modPod p f).time = ch.time := rfl
@[simp] theorem Chip.modPod_strapPins (ch : Chip) (p : Nat) (f : Pod → Pod) : (ch.modPod p f).strapPins = ch.strapPins := rfl
@[simp] theorem Chip.modPod_tickOutUntil (ch : Chip) (p : Nat) (f : Pod → Pod) : (ch.modPod p f).tickOutUntil = ch.tickOutUntil := rfl
@[simp] theorem Chip.modPod_decisions (ch : Chip) (p : Nat) (f : Pod → Pod) : (ch.modPod p f).decisions = ch.decisions := rfl
@[simp] theorem Chip.modPod_phase (ch : Chip) (p : Nat) (f : Pod → Pod) : (ch.modPod p f).phase = ch.phase := rfl
@[simp] theorem Chip.modPod_timeLatch (ch : Chip) (p : Nat) (f : Pod → Pod) : (ch.modPod p f).timeLatch = ch.timeLatch := rfl
@[simp] theorem Chip.modPod_regLog (ch : Chip) (p : Nat) (f : Pod → Pod) : (ch.modPod p f).regLog = ch.regLog := rfl
@[simp] theorem Chip.modPod_mem (ch : Chip) (p : Nat) (f : Pod → Pod) : (ch.modPod p f).mem = ch.mem := rfl
@[simp] theorem Chip.modPod_badLines (ch : Chip) (p : Nat) (f : Pod → Pod) : (ch.modPod p f).badLines = ch.badLines := rfl
@[simp] theorem Chip.modPod_softLines (ch : Chip) (p : Nat) (f : Pod → Pod) : (ch.modPod p f).softLines = ch.softLines := rfl
@[simp] theorem Chip.modPod_cores (ch : Chip) (p : Nat) (f : Pod → Pod) : (ch.modPod p f).cores = ch.cores := rfl
@[simp] theorem Chip.modPod_cus (ch : Chip) (p : Nat) (f : Pod → Pod) : (ch.modPod p f).cus = ch.cus := rfl
@[simp] theorem Chip.modPod_tes (ch : Chip) (p : Nat) (f : Pod → Pod) : (ch.modPod p f).tes = ch.tes := rfl
@[simp] theorem Chip.modPod_links (ch : Chip) (p : Nat) (f : Pod → Pod) : (ch.modPod p f).links = ch.links := rfl
@[simp] theorem Chip.modPod_parts (ch : Chip) (p : Nat) (f : Pod → Pod) : (ch.modPod p f).parts = ch.parts := rfl
@[simp] theorem Chip.modPod_chans (ch : Chip) (p : Nat) (f : Pod → Pod) : (ch.modPod p f).chans = ch.chans := rfl
@[simp] theorem Chip.modPod_syncs (ch : Chip) (p : Nat) (f : Pod → Pod) : (ch.modPod p f).syncs = ch.syncs := rfl
@[simp] theorem Chip.modPod_regions (ch : Chip) (p : Nat) (f : Pod → Pod) : (ch.modPod p f).regions = ch.regions := rfl
@[simp] theorem Chip.modPod_oldGens (ch : Chip) (p : Nat) (f : Pod → Pod) : (ch.modPod p f).oldGens = ch.oldGens := rfl
@[simp] theorem Chip.modPod_arriving (ch : Chip) (p : Nat) (f : Pod → Pod) : (ch.modPod p f).arriving = ch.arriving := rfl
@[simp] theorem Chip.modPod_remotes (ch : Chip) (p : Nat) (f : Pod → Pod) : (ch.modPod p f).remotes = ch.remotes := rfl
@[simp] theorem Chip.modPod_nextReq (ch : Chip) (p : Nat) (f : Pod → Pod) : (ch.modPod p f).nextReq = ch.nextReq := rfl
@[simp] theorem Chip.modPod_loader (ch : Chip) (p : Nat) (f : Pod → Pod) : (ch.modPod p f).loader = ch.loader := rfl
@[simp] theorem Chip.modPod_ler (ch : Chip) (p : Nat) (f : Pod → Pod) : (ch.modPod p f).ler = ch.ler := rfl
@[simp] theorem Chip.modPod_rcv (ch : Chip) (p : Nat) (f : Pod → Pod) : (ch.modPod p f).rcv = ch.rcv := rfl
@[simp] theorem Chip.modPod_wdg (ch : Chip) (p : Nat) (f : Pod → Pod) : (ch.modPod p f).wdg = ch.wdg := rfl
@[simp] theorem Chip.modPod_pwr (ch : Chip) (p : Nat) (f : Pod → Pod) : (ch.modPod p f).pwr = ch.pwr := rfl
@[simp] theorem Chip.modPod_boot (ch : Chip) (p : Nat) (f : Pod → Pod) : (ch.modPod p f).boot = ch.boot := rfl
@[simp] theorem Chip.modPod_host (ch : Chip) (p : Nat) (f : Pod → Pod) : (ch.modPod p f).host = ch.host := rfl
@[simp] theorem Chip.modPod_mbox (ch : Chip) (p : Nat) (f : Pod → Pod) : (ch.modPod p f).mbox = ch.mbox := rfl
@[simp] theorem Chip.modPod_sb (ch : Chip) (p : Nat) (f : Pod → Pod) : (ch.modPod p f).sb = ch.sb := rfl
@[simp] theorem Chip.modPod_tap (ch : Chip) (p : Nat) (f : Pod → Pod) : (ch.modPod p f).tap = ch.tap := rfl
@[simp] theorem Chip.modPod_twin (ch : Chip) (p : Nat) (f : Pod → Pod) : (ch.modPod p f).twin = ch.twin := rfl
@[simp] theorem Chip.modPod_bg (ch : Chip) (p : Nat) (f : Pod → Pod) : (ch.modPod p f).bg = ch.bg := rfl
@[simp] theorem Chip.modPod_free (ch : Chip) (p : Nat) (f : Pod → Pod) : (ch.modPod p f).free = ch.free := rfl
@[simp] theorem Chip.modPod_out (ch : Chip) (p : Nat) (f : Pod → Pod) : (ch.modPod p f).out = ch.out := rfl

/-! ### Chip.modCu -/

@[simp] theorem Chip.modCu_variant (ch : Chip) (u : Nat) (f : CoderUnit → CoderUnit) : (ch.modCu u f).variant = ch.variant := rfl
@[simp] theorem Chip.modCu_tray (ch : Chip) (u : Nat) (f : CoderUnit → CoderUnit) : (ch.modCu u f).tray = ch.tray := rfl
@[simp] theorem Chip.modCu_time (ch : Chip) (u : Nat) (f : CoderUnit → CoderUnit) : (ch.modCu u f).time = ch.time := rfl
@[simp] theorem Chip.modCu_strapPins (ch : Chip) (u : Nat) (f : CoderUnit → CoderUnit) : (ch.modCu u f).strapPins = ch.strapPins := rfl
@[simp] theorem Chip.modCu_tickOutUntil (ch : Chip) (u : Nat) (f : CoderUnit → CoderUnit) : (ch.modCu u f).tickOutUntil = ch.tickOutUntil := rfl
@[simp] theorem Chip.modCu_decisions (ch : Chip) (u : Nat) (f : CoderUnit → CoderUnit) : (ch.modCu u f).decisions = ch.decisions := rfl
@[simp] theorem Chip.modCu_phase (ch : Chip) (u : Nat) (f : CoderUnit → CoderUnit) : (ch.modCu u f).phase = ch.phase := rfl
@[simp] theorem Chip.modCu_timeLatch (ch : Chip) (u : Nat) (f : CoderUnit → CoderUnit) : (ch.modCu u f).timeLatch = ch.timeLatch := rfl
@[simp] theorem Chip.modCu_regLog (ch : Chip) (u : Nat) (f : CoderUnit → CoderUnit) : (ch.modCu u f).regLog = ch.regLog := rfl
@[simp] theorem Chip.modCu_mem (ch : Chip) (u : Nat) (f : CoderUnit → CoderUnit) : (ch.modCu u f).mem = ch.mem := rfl
@[simp] theorem Chip.modCu_badLines (ch : Chip) (u : Nat) (f : CoderUnit → CoderUnit) : (ch.modCu u f).badLines = ch.badLines := rfl
@[simp] theorem Chip.modCu_softLines (ch : Chip) (u : Nat) (f : CoderUnit → CoderUnit) : (ch.modCu u f).softLines = ch.softLines := rfl
@[simp] theorem Chip.modCu_cores (ch : Chip) (u : Nat) (f : CoderUnit → CoderUnit) : (ch.modCu u f).cores = ch.cores := rfl
@[simp] theorem Chip.modCu_pods (ch : Chip) (u : Nat) (f : CoderUnit → CoderUnit) : (ch.modCu u f).pods = ch.pods := rfl
@[simp] theorem Chip.modCu_tes (ch : Chip) (u : Nat) (f : CoderUnit → CoderUnit) : (ch.modCu u f).tes = ch.tes := rfl
@[simp] theorem Chip.modCu_links (ch : Chip) (u : Nat) (f : CoderUnit → CoderUnit) : (ch.modCu u f).links = ch.links := rfl
@[simp] theorem Chip.modCu_parts (ch : Chip) (u : Nat) (f : CoderUnit → CoderUnit) : (ch.modCu u f).parts = ch.parts := rfl
@[simp] theorem Chip.modCu_chans (ch : Chip) (u : Nat) (f : CoderUnit → CoderUnit) : (ch.modCu u f).chans = ch.chans := rfl
@[simp] theorem Chip.modCu_syncs (ch : Chip) (u : Nat) (f : CoderUnit → CoderUnit) : (ch.modCu u f).syncs = ch.syncs := rfl
@[simp] theorem Chip.modCu_regions (ch : Chip) (u : Nat) (f : CoderUnit → CoderUnit) : (ch.modCu u f).regions = ch.regions := rfl
@[simp] theorem Chip.modCu_oldGens (ch : Chip) (u : Nat) (f : CoderUnit → CoderUnit) : (ch.modCu u f).oldGens = ch.oldGens := rfl
@[simp] theorem Chip.modCu_arriving (ch : Chip) (u : Nat) (f : CoderUnit → CoderUnit) : (ch.modCu u f).arriving = ch.arriving := rfl
@[simp] theorem Chip.modCu_remotes (ch : Chip) (u : Nat) (f : CoderUnit → CoderUnit) : (ch.modCu u f).remotes = ch.remotes := rfl
@[simp] theorem Chip.modCu_nextReq (ch : Chip) (u : Nat) (f : CoderUnit → CoderUnit) : (ch.modCu u f).nextReq = ch.nextReq := rfl
@[simp] theorem Chip.modCu_loader (ch : Chip) (u : Nat) (f : CoderUnit → CoderUnit) : (ch.modCu u f).loader = ch.loader := rfl
@[simp] theorem Chip.modCu_ler (ch : Chip) (u : Nat) (f : CoderUnit → CoderUnit) : (ch.modCu u f).ler = ch.ler := rfl
@[simp] theorem Chip.modCu_rcv (ch : Chip) (u : Nat) (f : CoderUnit → CoderUnit) : (ch.modCu u f).rcv = ch.rcv := rfl
@[simp] theorem Chip.modCu_wdg (ch : Chip) (u : Nat) (f : CoderUnit → CoderUnit) : (ch.modCu u f).wdg = ch.wdg := rfl
@[simp] theorem Chip.modCu_pwr (ch : Chip) (u : Nat) (f : CoderUnit → CoderUnit) : (ch.modCu u f).pwr = ch.pwr := rfl
@[simp] theorem Chip.modCu_boot (ch : Chip) (u : Nat) (f : CoderUnit → CoderUnit) : (ch.modCu u f).boot = ch.boot := rfl
@[simp] theorem Chip.modCu_host (ch : Chip) (u : Nat) (f : CoderUnit → CoderUnit) : (ch.modCu u f).host = ch.host := rfl
@[simp] theorem Chip.modCu_mbox (ch : Chip) (u : Nat) (f : CoderUnit → CoderUnit) : (ch.modCu u f).mbox = ch.mbox := rfl
@[simp] theorem Chip.modCu_sb (ch : Chip) (u : Nat) (f : CoderUnit → CoderUnit) : (ch.modCu u f).sb = ch.sb := rfl
@[simp] theorem Chip.modCu_tap (ch : Chip) (u : Nat) (f : CoderUnit → CoderUnit) : (ch.modCu u f).tap = ch.tap := rfl
@[simp] theorem Chip.modCu_twin (ch : Chip) (u : Nat) (f : CoderUnit → CoderUnit) : (ch.modCu u f).twin = ch.twin := rfl
@[simp] theorem Chip.modCu_bg (ch : Chip) (u : Nat) (f : CoderUnit → CoderUnit) : (ch.modCu u f).bg = ch.bg := rfl
@[simp] theorem Chip.modCu_free (ch : Chip) (u : Nat) (f : CoderUnit → CoderUnit) : (ch.modCu u f).free = ch.free := rfl
@[simp] theorem Chip.modCu_out (ch : Chip) (u : Nat) (f : CoderUnit → CoderUnit) : (ch.modCu u f).out = ch.out := rfl

/-! ### Chip.modTe -/

@[simp] theorem Chip.modTe_variant (ch : Chip) (u : Nat) (f : TreeEngine → TreeEngine) : (ch.modTe u f).variant = ch.variant := rfl
@[simp] theorem Chip.modTe_tray (ch : Chip) (u : Nat) (f : TreeEngine → TreeEngine) : (ch.modTe u f).tray = ch.tray := rfl
@[simp] theorem Chip.modTe_time (ch : Chip) (u : Nat) (f : TreeEngine → TreeEngine) : (ch.modTe u f).time = ch.time := rfl
@[simp] theorem Chip.modTe_strapPins (ch : Chip) (u : Nat) (f : TreeEngine → TreeEngine) : (ch.modTe u f).strapPins = ch.strapPins := rfl
@[simp] theorem Chip.modTe_tickOutUntil (ch : Chip) (u : Nat) (f : TreeEngine → TreeEngine) : (ch.modTe u f).tickOutUntil = ch.tickOutUntil := rfl
@[simp] theorem Chip.modTe_decisions (ch : Chip) (u : Nat) (f : TreeEngine → TreeEngine) : (ch.modTe u f).decisions = ch.decisions := rfl
@[simp] theorem Chip.modTe_phase (ch : Chip) (u : Nat) (f : TreeEngine → TreeEngine) : (ch.modTe u f).phase = ch.phase := rfl
@[simp] theorem Chip.modTe_timeLatch (ch : Chip) (u : Nat) (f : TreeEngine → TreeEngine) : (ch.modTe u f).timeLatch = ch.timeLatch := rfl
@[simp] theorem Chip.modTe_regLog (ch : Chip) (u : Nat) (f : TreeEngine → TreeEngine) : (ch.modTe u f).regLog = ch.regLog := rfl
@[simp] theorem Chip.modTe_mem (ch : Chip) (u : Nat) (f : TreeEngine → TreeEngine) : (ch.modTe u f).mem = ch.mem := rfl
@[simp] theorem Chip.modTe_badLines (ch : Chip) (u : Nat) (f : TreeEngine → TreeEngine) : (ch.modTe u f).badLines = ch.badLines := rfl
@[simp] theorem Chip.modTe_softLines (ch : Chip) (u : Nat) (f : TreeEngine → TreeEngine) : (ch.modTe u f).softLines = ch.softLines := rfl
@[simp] theorem Chip.modTe_cores (ch : Chip) (u : Nat) (f : TreeEngine → TreeEngine) : (ch.modTe u f).cores = ch.cores := rfl
@[simp] theorem Chip.modTe_pods (ch : Chip) (u : Nat) (f : TreeEngine → TreeEngine) : (ch.modTe u f).pods = ch.pods := rfl
@[simp] theorem Chip.modTe_cus (ch : Chip) (u : Nat) (f : TreeEngine → TreeEngine) : (ch.modTe u f).cus = ch.cus := rfl
@[simp] theorem Chip.modTe_links (ch : Chip) (u : Nat) (f : TreeEngine → TreeEngine) : (ch.modTe u f).links = ch.links := rfl
@[simp] theorem Chip.modTe_parts (ch : Chip) (u : Nat) (f : TreeEngine → TreeEngine) : (ch.modTe u f).parts = ch.parts := rfl
@[simp] theorem Chip.modTe_chans (ch : Chip) (u : Nat) (f : TreeEngine → TreeEngine) : (ch.modTe u f).chans = ch.chans := rfl
@[simp] theorem Chip.modTe_syncs (ch : Chip) (u : Nat) (f : TreeEngine → TreeEngine) : (ch.modTe u f).syncs = ch.syncs := rfl
@[simp] theorem Chip.modTe_regions (ch : Chip) (u : Nat) (f : TreeEngine → TreeEngine) : (ch.modTe u f).regions = ch.regions := rfl
@[simp] theorem Chip.modTe_oldGens (ch : Chip) (u : Nat) (f : TreeEngine → TreeEngine) : (ch.modTe u f).oldGens = ch.oldGens := rfl
@[simp] theorem Chip.modTe_arriving (ch : Chip) (u : Nat) (f : TreeEngine → TreeEngine) : (ch.modTe u f).arriving = ch.arriving := rfl
@[simp] theorem Chip.modTe_remotes (ch : Chip) (u : Nat) (f : TreeEngine → TreeEngine) : (ch.modTe u f).remotes = ch.remotes := rfl
@[simp] theorem Chip.modTe_nextReq (ch : Chip) (u : Nat) (f : TreeEngine → TreeEngine) : (ch.modTe u f).nextReq = ch.nextReq := rfl
@[simp] theorem Chip.modTe_loader (ch : Chip) (u : Nat) (f : TreeEngine → TreeEngine) : (ch.modTe u f).loader = ch.loader := rfl
@[simp] theorem Chip.modTe_ler (ch : Chip) (u : Nat) (f : TreeEngine → TreeEngine) : (ch.modTe u f).ler = ch.ler := rfl
@[simp] theorem Chip.modTe_rcv (ch : Chip) (u : Nat) (f : TreeEngine → TreeEngine) : (ch.modTe u f).rcv = ch.rcv := rfl
@[simp] theorem Chip.modTe_wdg (ch : Chip) (u : Nat) (f : TreeEngine → TreeEngine) : (ch.modTe u f).wdg = ch.wdg := rfl
@[simp] theorem Chip.modTe_pwr (ch : Chip) (u : Nat) (f : TreeEngine → TreeEngine) : (ch.modTe u f).pwr = ch.pwr := rfl
@[simp] theorem Chip.modTe_boot (ch : Chip) (u : Nat) (f : TreeEngine → TreeEngine) : (ch.modTe u f).boot = ch.boot := rfl
@[simp] theorem Chip.modTe_host (ch : Chip) (u : Nat) (f : TreeEngine → TreeEngine) : (ch.modTe u f).host = ch.host := rfl
@[simp] theorem Chip.modTe_mbox (ch : Chip) (u : Nat) (f : TreeEngine → TreeEngine) : (ch.modTe u f).mbox = ch.mbox := rfl
@[simp] theorem Chip.modTe_sb (ch : Chip) (u : Nat) (f : TreeEngine → TreeEngine) : (ch.modTe u f).sb = ch.sb := rfl
@[simp] theorem Chip.modTe_tap (ch : Chip) (u : Nat) (f : TreeEngine → TreeEngine) : (ch.modTe u f).tap = ch.tap := rfl
@[simp] theorem Chip.modTe_twin (ch : Chip) (u : Nat) (f : TreeEngine → TreeEngine) : (ch.modTe u f).twin = ch.twin := rfl
@[simp] theorem Chip.modTe_bg (ch : Chip) (u : Nat) (f : TreeEngine → TreeEngine) : (ch.modTe u f).bg = ch.bg := rfl
@[simp] theorem Chip.modTe_free (ch : Chip) (u : Nat) (f : TreeEngine → TreeEngine) : (ch.modTe u f).free = ch.free := rfl
@[simp] theorem Chip.modTe_out (ch : Chip) (u : Nat) (f : TreeEngine → TreeEngine) : (ch.modTe u f).out = ch.out := rfl

/-! ### Chip.modLink -/

@[simp] theorem Chip.modLink_variant (ch : Chip) (n : Nat) (f : Link → Link) : (ch.modLink n f).variant = ch.variant := rfl
@[simp] theorem Chip.modLink_tray (ch : Chip) (n : Nat) (f : Link → Link) : (ch.modLink n f).tray = ch.tray := rfl
@[simp] theorem Chip.modLink_time (ch : Chip) (n : Nat) (f : Link → Link) : (ch.modLink n f).time = ch.time := rfl
@[simp] theorem Chip.modLink_strapPins (ch : Chip) (n : Nat) (f : Link → Link) : (ch.modLink n f).strapPins = ch.strapPins := rfl
@[simp] theorem Chip.modLink_tickOutUntil (ch : Chip) (n : Nat) (f : Link → Link) : (ch.modLink n f).tickOutUntil = ch.tickOutUntil := rfl
@[simp] theorem Chip.modLink_decisions (ch : Chip) (n : Nat) (f : Link → Link) : (ch.modLink n f).decisions = ch.decisions := rfl
@[simp] theorem Chip.modLink_phase (ch : Chip) (n : Nat) (f : Link → Link) : (ch.modLink n f).phase = ch.phase := rfl
@[simp] theorem Chip.modLink_timeLatch (ch : Chip) (n : Nat) (f : Link → Link) : (ch.modLink n f).timeLatch = ch.timeLatch := rfl
@[simp] theorem Chip.modLink_regLog (ch : Chip) (n : Nat) (f : Link → Link) : (ch.modLink n f).regLog = ch.regLog := rfl
@[simp] theorem Chip.modLink_mem (ch : Chip) (n : Nat) (f : Link → Link) : (ch.modLink n f).mem = ch.mem := rfl
@[simp] theorem Chip.modLink_badLines (ch : Chip) (n : Nat) (f : Link → Link) : (ch.modLink n f).badLines = ch.badLines := rfl
@[simp] theorem Chip.modLink_softLines (ch : Chip) (n : Nat) (f : Link → Link) : (ch.modLink n f).softLines = ch.softLines := rfl
@[simp] theorem Chip.modLink_cores (ch : Chip) (n : Nat) (f : Link → Link) : (ch.modLink n f).cores = ch.cores := rfl
@[simp] theorem Chip.modLink_pods (ch : Chip) (n : Nat) (f : Link → Link) : (ch.modLink n f).pods = ch.pods := rfl
@[simp] theorem Chip.modLink_cus (ch : Chip) (n : Nat) (f : Link → Link) : (ch.modLink n f).cus = ch.cus := rfl
@[simp] theorem Chip.modLink_tes (ch : Chip) (n : Nat) (f : Link → Link) : (ch.modLink n f).tes = ch.tes := rfl
@[simp] theorem Chip.modLink_parts (ch : Chip) (n : Nat) (f : Link → Link) : (ch.modLink n f).parts = ch.parts := rfl
@[simp] theorem Chip.modLink_chans (ch : Chip) (n : Nat) (f : Link → Link) : (ch.modLink n f).chans = ch.chans := rfl
@[simp] theorem Chip.modLink_syncs (ch : Chip) (n : Nat) (f : Link → Link) : (ch.modLink n f).syncs = ch.syncs := rfl
@[simp] theorem Chip.modLink_regions (ch : Chip) (n : Nat) (f : Link → Link) : (ch.modLink n f).regions = ch.regions := rfl
@[simp] theorem Chip.modLink_oldGens (ch : Chip) (n : Nat) (f : Link → Link) : (ch.modLink n f).oldGens = ch.oldGens := rfl
@[simp] theorem Chip.modLink_arriving (ch : Chip) (n : Nat) (f : Link → Link) : (ch.modLink n f).arriving = ch.arriving := rfl
@[simp] theorem Chip.modLink_remotes (ch : Chip) (n : Nat) (f : Link → Link) : (ch.modLink n f).remotes = ch.remotes := rfl
@[simp] theorem Chip.modLink_nextReq (ch : Chip) (n : Nat) (f : Link → Link) : (ch.modLink n f).nextReq = ch.nextReq := rfl
@[simp] theorem Chip.modLink_loader (ch : Chip) (n : Nat) (f : Link → Link) : (ch.modLink n f).loader = ch.loader := rfl
@[simp] theorem Chip.modLink_ler (ch : Chip) (n : Nat) (f : Link → Link) : (ch.modLink n f).ler = ch.ler := rfl
@[simp] theorem Chip.modLink_rcv (ch : Chip) (n : Nat) (f : Link → Link) : (ch.modLink n f).rcv = ch.rcv := rfl
@[simp] theorem Chip.modLink_wdg (ch : Chip) (n : Nat) (f : Link → Link) : (ch.modLink n f).wdg = ch.wdg := rfl
@[simp] theorem Chip.modLink_pwr (ch : Chip) (n : Nat) (f : Link → Link) : (ch.modLink n f).pwr = ch.pwr := rfl
@[simp] theorem Chip.modLink_boot (ch : Chip) (n : Nat) (f : Link → Link) : (ch.modLink n f).boot = ch.boot := rfl
@[simp] theorem Chip.modLink_host (ch : Chip) (n : Nat) (f : Link → Link) : (ch.modLink n f).host = ch.host := rfl
@[simp] theorem Chip.modLink_mbox (ch : Chip) (n : Nat) (f : Link → Link) : (ch.modLink n f).mbox = ch.mbox := rfl
@[simp] theorem Chip.modLink_sb (ch : Chip) (n : Nat) (f : Link → Link) : (ch.modLink n f).sb = ch.sb := rfl
@[simp] theorem Chip.modLink_tap (ch : Chip) (n : Nat) (f : Link → Link) : (ch.modLink n f).tap = ch.tap := rfl
@[simp] theorem Chip.modLink_twin (ch : Chip) (n : Nat) (f : Link → Link) : (ch.modLink n f).twin = ch.twin := rfl
@[simp] theorem Chip.modLink_bg (ch : Chip) (n : Nat) (f : Link → Link) : (ch.modLink n f).bg = ch.bg := rfl
@[simp] theorem Chip.modLink_free (ch : Chip) (n : Nat) (f : Link → Link) : (ch.modLink n f).free = ch.free := rfl
@[simp] theorem Chip.modLink_out (ch : Chip) (n : Nat) (f : Link → Link) : (ch.modLink n f).out = ch.out := rfl

/-! ### Chip.modRing -/

@[simp] theorem Chip.modRing_variant (ch : Chip) (p : Nat) (f : Rings → Rings) : (ch.modRing p f).variant = ch.variant := rfl
@[simp] theorem Chip.modRing_tray (ch : Chip) (p : Nat) (f : Rings → Rings) : (ch.modRing p f).tray = ch.tray := rfl
@[simp] theorem Chip.modRing_time (ch : Chip) (p : Nat) (f : Rings → Rings) : (ch.modRing p f).time = ch.time := rfl
@[simp] theorem Chip.modRing_strapPins (ch : Chip) (p : Nat) (f : Rings → Rings) : (ch.modRing p f).strapPins = ch.strapPins := rfl
@[simp] theorem Chip.modRing_tickOutUntil (ch : Chip) (p : Nat) (f : Rings → Rings) : (ch.modRing p f).tickOutUntil = ch.tickOutUntil := rfl
@[simp] theorem Chip.modRing_decisions (ch : Chip) (p : Nat) (f : Rings → Rings) : (ch.modRing p f).decisions = ch.decisions := rfl
@[simp] theorem Chip.modRing_phase (ch : Chip) (p : Nat) (f : Rings → Rings) : (ch.modRing p f).phase = ch.phase := rfl
@[simp] theorem Chip.modRing_timeLatch (ch : Chip) (p : Nat) (f : Rings → Rings) : (ch.modRing p f).timeLatch = ch.timeLatch := rfl
@[simp] theorem Chip.modRing_regLog (ch : Chip) (p : Nat) (f : Rings → Rings) : (ch.modRing p f).regLog = ch.regLog := rfl
@[simp] theorem Chip.modRing_mem (ch : Chip) (p : Nat) (f : Rings → Rings) : (ch.modRing p f).mem = ch.mem := rfl
@[simp] theorem Chip.modRing_badLines (ch : Chip) (p : Nat) (f : Rings → Rings) : (ch.modRing p f).badLines = ch.badLines := rfl
@[simp] theorem Chip.modRing_softLines (ch : Chip) (p : Nat) (f : Rings → Rings) : (ch.modRing p f).softLines = ch.softLines := rfl
@[simp] theorem Chip.modRing_cores (ch : Chip) (p : Nat) (f : Rings → Rings) : (ch.modRing p f).cores = ch.cores := rfl
@[simp] theorem Chip.modRing_pods (ch : Chip) (p : Nat) (f : Rings → Rings) : (ch.modRing p f).pods = ch.pods := rfl
@[simp] theorem Chip.modRing_cus (ch : Chip) (p : Nat) (f : Rings → Rings) : (ch.modRing p f).cus = ch.cus := rfl
@[simp] theorem Chip.modRing_tes (ch : Chip) (p : Nat) (f : Rings → Rings) : (ch.modRing p f).tes = ch.tes := rfl
@[simp] theorem Chip.modRing_links (ch : Chip) (p : Nat) (f : Rings → Rings) : (ch.modRing p f).links = ch.links := rfl
@[simp] theorem Chip.modRing_parts (ch : Chip) (p : Nat) (f : Rings → Rings) : (ch.modRing p f).parts = ch.parts := rfl
@[simp] theorem Chip.modRing_chans (ch : Chip) (p : Nat) (f : Rings → Rings) : (ch.modRing p f).chans = ch.chans := rfl
@[simp] theorem Chip.modRing_syncs (ch : Chip) (p : Nat) (f : Rings → Rings) : (ch.modRing p f).syncs = ch.syncs := rfl
@[simp] theorem Chip.modRing_regions (ch : Chip) (p : Nat) (f : Rings → Rings) : (ch.modRing p f).regions = ch.regions := rfl
@[simp] theorem Chip.modRing_oldGens (ch : Chip) (p : Nat) (f : Rings → Rings) : (ch.modRing p f).oldGens = ch.oldGens := rfl
@[simp] theorem Chip.modRing_arriving (ch : Chip) (p : Nat) (f : Rings → Rings) : (ch.modRing p f).arriving = ch.arriving := rfl
@[simp] theorem Chip.modRing_remotes (ch : Chip) (p : Nat) (f : Rings → Rings) : (ch.modRing p f).remotes = ch.remotes := rfl
@[simp] theorem Chip.modRing_nextReq (ch : Chip) (p : Nat) (f : Rings → Rings) : (ch.modRing p f).nextReq = ch.nextReq := rfl
@[simp] theorem Chip.modRing_loader (ch : Chip) (p : Nat) (f : Rings → Rings) : (ch.modRing p f).loader = ch.loader := rfl
@[simp] theorem Chip.modRing_ler (ch : Chip) (p : Nat) (f : Rings → Rings) : (ch.modRing p f).ler = ch.ler := rfl
@[simp] theorem Chip.modRing_rcv (ch : Chip) (p : Nat) (f : Rings → Rings) : (ch.modRing p f).rcv = ch.rcv := rfl
@[simp] theorem Chip.modRing_wdg (ch : Chip) (p : Nat) (f : Rings → Rings) : (ch.modRing p f).wdg = ch.wdg := rfl
@[simp] theorem Chip.modRing_pwr (ch : Chip) (p : Nat) (f : Rings → Rings) : (ch.modRing p f).pwr = ch.pwr := rfl
@[simp] theorem Chip.modRing_boot (ch : Chip) (p : Nat) (f : Rings → Rings) : (ch.modRing p f).boot = ch.boot := rfl
@[simp] theorem Chip.modRing_mbox (ch : Chip) (p : Nat) (f : Rings → Rings) : (ch.modRing p f).mbox = ch.mbox := rfl
@[simp] theorem Chip.modRing_sb (ch : Chip) (p : Nat) (f : Rings → Rings) : (ch.modRing p f).sb = ch.sb := rfl
@[simp] theorem Chip.modRing_tap (ch : Chip) (p : Nat) (f : Rings → Rings) : (ch.modRing p f).tap = ch.tap := rfl
@[simp] theorem Chip.modRing_twin (ch : Chip) (p : Nat) (f : Rings → Rings) : (ch.modRing p f).twin = ch.twin := rfl
@[simp] theorem Chip.modRing_bg (ch : Chip) (p : Nat) (f : Rings → Rings) : (ch.modRing p f).bg = ch.bg := rfl
@[simp] theorem Chip.modRing_free (ch : Chip) (p : Nat) (f : Rings → Rings) : (ch.modRing p f).free = ch.free := rfl
@[simp] theorem Chip.modRing_out (ch : Chip) (p : Nat) (f : Rings → Rings) : (ch.modRing p f).out = ch.out := rfl

/-! ### Chip.modChan -/

@[simp] theorem Chip.modChan_variant (ch : Chip) (i : Nat) (f : Chan → Chan) : (ch.modChan i f).variant = ch.variant := rfl
@[simp] theorem Chip.modChan_tray (ch : Chip) (i : Nat) (f : Chan → Chan) : (ch.modChan i f).tray = ch.tray := rfl
@[simp] theorem Chip.modChan_time (ch : Chip) (i : Nat) (f : Chan → Chan) : (ch.modChan i f).time = ch.time := rfl
@[simp] theorem Chip.modChan_strapPins (ch : Chip) (i : Nat) (f : Chan → Chan) : (ch.modChan i f).strapPins = ch.strapPins := rfl
@[simp] theorem Chip.modChan_tickOutUntil (ch : Chip) (i : Nat) (f : Chan → Chan) : (ch.modChan i f).tickOutUntil = ch.tickOutUntil := rfl
@[simp] theorem Chip.modChan_decisions (ch : Chip) (i : Nat) (f : Chan → Chan) : (ch.modChan i f).decisions = ch.decisions := rfl
@[simp] theorem Chip.modChan_phase (ch : Chip) (i : Nat) (f : Chan → Chan) : (ch.modChan i f).phase = ch.phase := rfl
@[simp] theorem Chip.modChan_timeLatch (ch : Chip) (i : Nat) (f : Chan → Chan) : (ch.modChan i f).timeLatch = ch.timeLatch := rfl
@[simp] theorem Chip.modChan_regLog (ch : Chip) (i : Nat) (f : Chan → Chan) : (ch.modChan i f).regLog = ch.regLog := rfl
@[simp] theorem Chip.modChan_mem (ch : Chip) (i : Nat) (f : Chan → Chan) : (ch.modChan i f).mem = ch.mem := rfl
@[simp] theorem Chip.modChan_badLines (ch : Chip) (i : Nat) (f : Chan → Chan) : (ch.modChan i f).badLines = ch.badLines := rfl
@[simp] theorem Chip.modChan_softLines (ch : Chip) (i : Nat) (f : Chan → Chan) : (ch.modChan i f).softLines = ch.softLines := rfl
@[simp] theorem Chip.modChan_cores (ch : Chip) (i : Nat) (f : Chan → Chan) : (ch.modChan i f).cores = ch.cores := rfl
@[simp] theorem Chip.modChan_pods (ch : Chip) (i : Nat) (f : Chan → Chan) : (ch.modChan i f).pods = ch.pods := rfl
@[simp] theorem Chip.modChan_cus (ch : Chip) (i : Nat) (f : Chan → Chan) : (ch.modChan i f).cus = ch.cus := rfl
@[simp] theorem Chip.modChan_tes (ch : Chip) (i : Nat) (f : Chan → Chan) : (ch.modChan i f).tes = ch.tes := rfl
@[simp] theorem Chip.modChan_links (ch : Chip) (i : Nat) (f : Chan → Chan) : (ch.modChan i f).links = ch.links := rfl
@[simp] theorem Chip.modChan_parts (ch : Chip) (i : Nat) (f : Chan → Chan) : (ch.modChan i f).parts = ch.parts := rfl
@[simp] theorem Chip.modChan_syncs (ch : Chip) (i : Nat) (f : Chan → Chan) : (ch.modChan i f).syncs = ch.syncs := rfl
@[simp] theorem Chip.modChan_regions (ch : Chip) (i : Nat) (f : Chan → Chan) : (ch.modChan i f).regions = ch.regions := rfl
@[simp] theorem Chip.modChan_oldGens (ch : Chip) (i : Nat) (f : Chan → Chan) : (ch.modChan i f).oldGens = ch.oldGens := rfl
@[simp] theorem Chip.modChan_arriving (ch : Chip) (i : Nat) (f : Chan → Chan) : (ch.modChan i f).arriving = ch.arriving := rfl
@[simp] theorem Chip.modChan_remotes (ch : Chip) (i : Nat) (f : Chan → Chan) : (ch.modChan i f).remotes = ch.remotes := rfl
@[simp] theorem Chip.modChan_nextReq (ch : Chip) (i : Nat) (f : Chan → Chan) : (ch.modChan i f).nextReq = ch.nextReq := rfl
@[simp] theorem Chip.modChan_loader (ch : Chip) (i : Nat) (f : Chan → Chan) : (ch.modChan i f).loader = ch.loader := rfl
@[simp] theorem Chip.modChan_ler (ch : Chip) (i : Nat) (f : Chan → Chan) : (ch.modChan i f).ler = ch.ler := rfl
@[simp] theorem Chip.modChan_rcv (ch : Chip) (i : Nat) (f : Chan → Chan) : (ch.modChan i f).rcv = ch.rcv := rfl
@[simp] theorem Chip.modChan_wdg (ch : Chip) (i : Nat) (f : Chan → Chan) : (ch.modChan i f).wdg = ch.wdg := rfl
@[simp] theorem Chip.modChan_pwr (ch : Chip) (i : Nat) (f : Chan → Chan) : (ch.modChan i f).pwr = ch.pwr := rfl
@[simp] theorem Chip.modChan_boot (ch : Chip) (i : Nat) (f : Chan → Chan) : (ch.modChan i f).boot = ch.boot := rfl
@[simp] theorem Chip.modChan_host (ch : Chip) (i : Nat) (f : Chan → Chan) : (ch.modChan i f).host = ch.host := rfl
@[simp] theorem Chip.modChan_mbox (ch : Chip) (i : Nat) (f : Chan → Chan) : (ch.modChan i f).mbox = ch.mbox := rfl
@[simp] theorem Chip.modChan_sb (ch : Chip) (i : Nat) (f : Chan → Chan) : (ch.modChan i f).sb = ch.sb := rfl
@[simp] theorem Chip.modChan_tap (ch : Chip) (i : Nat) (f : Chan → Chan) : (ch.modChan i f).tap = ch.tap := rfl
@[simp] theorem Chip.modChan_twin (ch : Chip) (i : Nat) (f : Chan → Chan) : (ch.modChan i f).twin = ch.twin := rfl
@[simp] theorem Chip.modChan_bg (ch : Chip) (i : Nat) (f : Chan → Chan) : (ch.modChan i f).bg = ch.bg := rfl
@[simp] theorem Chip.modChan_free (ch : Chip) (i : Nat) (f : Chan → Chan) : (ch.modChan i f).free = ch.free := rfl
@[simp] theorem Chip.modChan_out (ch : Chip) (i : Nat) (f : Chan → Chan) : (ch.modChan i f).out = ch.out := rfl

/-! ### Chip.modSync -/

@[simp] theorem Chip.modSync_variant (ch : Chip) (n : Nat) (f : SyncObj → SyncObj) : (ch.modSync n f).variant = ch.variant := rfl
@[simp] theorem Chip.modSync_tray (ch : Chip) (n : Nat) (f : SyncObj → SyncObj) : (ch.modSync n f).tray = ch.tray := rfl
@[simp] theorem Chip.modSync_time (ch : Chip) (n : Nat) (f : SyncObj → SyncObj) : (ch.modSync n f).time = ch.time := rfl
@[simp] theorem Chip.modSync_strapPins (ch : Chip) (n : Nat) (f : SyncObj → SyncObj) : (ch.modSync n f).strapPins = ch.strapPins := rfl
@[simp] theorem Chip.modSync_tickOutUntil (ch : Chip) (n : Nat) (f : SyncObj → SyncObj) : (ch.modSync n f).tickOutUntil = ch.tickOutUntil := rfl
@[simp] theorem Chip.modSync_decisions (ch : Chip) (n : Nat) (f : SyncObj → SyncObj) : (ch.modSync n f).decisions = ch.decisions := rfl
@[simp] theorem Chip.modSync_phase (ch : Chip) (n : Nat) (f : SyncObj → SyncObj) : (ch.modSync n f).phase = ch.phase := rfl
@[simp] theorem Chip.modSync_timeLatch (ch : Chip) (n : Nat) (f : SyncObj → SyncObj) : (ch.modSync n f).timeLatch = ch.timeLatch := rfl
@[simp] theorem Chip.modSync_regLog (ch : Chip) (n : Nat) (f : SyncObj → SyncObj) : (ch.modSync n f).regLog = ch.regLog := rfl
@[simp] theorem Chip.modSync_mem (ch : Chip) (n : Nat) (f : SyncObj → SyncObj) : (ch.modSync n f).mem = ch.mem := rfl
@[simp] theorem Chip.modSync_badLines (ch : Chip) (n : Nat) (f : SyncObj → SyncObj) : (ch.modSync n f).badLines = ch.badLines := rfl
@[simp] theorem Chip.modSync_softLines (ch : Chip) (n : Nat) (f : SyncObj → SyncObj) : (ch.modSync n f).softLines = ch.softLines := rfl
@[simp] theorem Chip.modSync_cores (ch : Chip) (n : Nat) (f : SyncObj → SyncObj) : (ch.modSync n f).cores = ch.cores := rfl
@[simp] theorem Chip.modSync_pods (ch : Chip) (n : Nat) (f : SyncObj → SyncObj) : (ch.modSync n f).pods = ch.pods := rfl
@[simp] theorem Chip.modSync_cus (ch : Chip) (n : Nat) (f : SyncObj → SyncObj) : (ch.modSync n f).cus = ch.cus := rfl
@[simp] theorem Chip.modSync_tes (ch : Chip) (n : Nat) (f : SyncObj → SyncObj) : (ch.modSync n f).tes = ch.tes := rfl
@[simp] theorem Chip.modSync_links (ch : Chip) (n : Nat) (f : SyncObj → SyncObj) : (ch.modSync n f).links = ch.links := rfl
@[simp] theorem Chip.modSync_parts (ch : Chip) (n : Nat) (f : SyncObj → SyncObj) : (ch.modSync n f).parts = ch.parts := rfl
@[simp] theorem Chip.modSync_chans (ch : Chip) (n : Nat) (f : SyncObj → SyncObj) : (ch.modSync n f).chans = ch.chans := rfl
@[simp] theorem Chip.modSync_regions (ch : Chip) (n : Nat) (f : SyncObj → SyncObj) : (ch.modSync n f).regions = ch.regions := rfl
@[simp] theorem Chip.modSync_oldGens (ch : Chip) (n : Nat) (f : SyncObj → SyncObj) : (ch.modSync n f).oldGens = ch.oldGens := rfl
@[simp] theorem Chip.modSync_arriving (ch : Chip) (n : Nat) (f : SyncObj → SyncObj) : (ch.modSync n f).arriving = ch.arriving := rfl
@[simp] theorem Chip.modSync_remotes (ch : Chip) (n : Nat) (f : SyncObj → SyncObj) : (ch.modSync n f).remotes = ch.remotes := rfl
@[simp] theorem Chip.modSync_nextReq (ch : Chip) (n : Nat) (f : SyncObj → SyncObj) : (ch.modSync n f).nextReq = ch.nextReq := rfl
@[simp] theorem Chip.modSync_loader (ch : Chip) (n : Nat) (f : SyncObj → SyncObj) : (ch.modSync n f).loader = ch.loader := rfl
@[simp] theorem Chip.modSync_ler (ch : Chip) (n : Nat) (f : SyncObj → SyncObj) : (ch.modSync n f).ler = ch.ler := rfl
@[simp] theorem Chip.modSync_rcv (ch : Chip) (n : Nat) (f : SyncObj → SyncObj) : (ch.modSync n f).rcv = ch.rcv := rfl
@[simp] theorem Chip.modSync_wdg (ch : Chip) (n : Nat) (f : SyncObj → SyncObj) : (ch.modSync n f).wdg = ch.wdg := rfl
@[simp] theorem Chip.modSync_pwr (ch : Chip) (n : Nat) (f : SyncObj → SyncObj) : (ch.modSync n f).pwr = ch.pwr := rfl
@[simp] theorem Chip.modSync_boot (ch : Chip) (n : Nat) (f : SyncObj → SyncObj) : (ch.modSync n f).boot = ch.boot := rfl
@[simp] theorem Chip.modSync_host (ch : Chip) (n : Nat) (f : SyncObj → SyncObj) : (ch.modSync n f).host = ch.host := rfl
@[simp] theorem Chip.modSync_mbox (ch : Chip) (n : Nat) (f : SyncObj → SyncObj) : (ch.modSync n f).mbox = ch.mbox := rfl
@[simp] theorem Chip.modSync_sb (ch : Chip) (n : Nat) (f : SyncObj → SyncObj) : (ch.modSync n f).sb = ch.sb := rfl
@[simp] theorem Chip.modSync_tap (ch : Chip) (n : Nat) (f : SyncObj → SyncObj) : (ch.modSync n f).tap = ch.tap := rfl
@[simp] theorem Chip.modSync_twin (ch : Chip) (n : Nat) (f : SyncObj → SyncObj) : (ch.modSync n f).twin = ch.twin := rfl
@[simp] theorem Chip.modSync_bg (ch : Chip) (n : Nat) (f : SyncObj → SyncObj) : (ch.modSync n f).bg = ch.bg := rfl
@[simp] theorem Chip.modSync_free (ch : Chip) (n : Nat) (f : SyncObj → SyncObj) : (ch.modSync n f).free = ch.free := rfl
@[simp] theorem Chip.modSync_out (ch : Chip) (n : Nat) (f : SyncObj → SyncObj) : (ch.modSync n f).out = ch.out := rfl

/-! ### Chip.modRegion -/

@[simp] theorem Chip.modRegion_variant (ch : Chip) (r : Nat) (f : Region → Region) : (ch.modRegion r f).variant = ch.variant := rfl
@[simp] theorem Chip.modRegion_tray (ch : Chip) (r : Nat) (f : Region → Region) : (ch.modRegion r f).tray = ch.tray := rfl
@[simp] theorem Chip.modRegion_time (ch : Chip) (r : Nat) (f : Region → Region) : (ch.modRegion r f).time = ch.time := rfl
@[simp] theorem Chip.modRegion_strapPins (ch : Chip) (r : Nat) (f : Region → Region) : (ch.modRegion r f).strapPins = ch.strapPins := rfl
@[simp] theorem Chip.modRegion_tickOutUntil (ch : Chip) (r : Nat) (f : Region → Region) : (ch.modRegion r f).tickOutUntil = ch.tickOutUntil := rfl
@[simp] theorem Chip.modRegion_decisions (ch : Chip) (r : Nat) (f : Region → Region) : (ch.modRegion r f).decisions = ch.decisions := rfl
@[simp] theorem Chip.modRegion_phase (ch : Chip) (r : Nat) (f : Region → Region) : (ch.modRegion r f).phase = ch.phase := rfl
@[simp] theorem Chip.modRegion_timeLatch (ch : Chip) (r : Nat) (f : Region → Region) : (ch.modRegion r f).timeLatch = ch.timeLatch := rfl
@[simp] theorem Chip.modRegion_regLog (ch : Chip) (r : Nat) (f : Region → Region) : (ch.modRegion r f).regLog = ch.regLog := rfl
@[simp] theorem Chip.modRegion_mem (ch : Chip) (r : Nat) (f : Region → Region) : (ch.modRegion r f).mem = ch.mem := rfl
@[simp] theorem Chip.modRegion_badLines (ch : Chip) (r : Nat) (f : Region → Region) : (ch.modRegion r f).badLines = ch.badLines := rfl
@[simp] theorem Chip.modRegion_softLines (ch : Chip) (r : Nat) (f : Region → Region) : (ch.modRegion r f).softLines = ch.softLines := rfl
@[simp] theorem Chip.modRegion_cores (ch : Chip) (r : Nat) (f : Region → Region) : (ch.modRegion r f).cores = ch.cores := rfl
@[simp] theorem Chip.modRegion_pods (ch : Chip) (r : Nat) (f : Region → Region) : (ch.modRegion r f).pods = ch.pods := rfl
@[simp] theorem Chip.modRegion_cus (ch : Chip) (r : Nat) (f : Region → Region) : (ch.modRegion r f).cus = ch.cus := rfl
@[simp] theorem Chip.modRegion_tes (ch : Chip) (r : Nat) (f : Region → Region) : (ch.modRegion r f).tes = ch.tes := rfl
@[simp] theorem Chip.modRegion_links (ch : Chip) (r : Nat) (f : Region → Region) : (ch.modRegion r f).links = ch.links := rfl
@[simp] theorem Chip.modRegion_parts (ch : Chip) (r : Nat) (f : Region → Region) : (ch.modRegion r f).parts = ch.parts := rfl
@[simp] theorem Chip.modRegion_chans (ch : Chip) (r : Nat) (f : Region → Region) : (ch.modRegion r f).chans = ch.chans := rfl
@[simp] theorem Chip.modRegion_syncs (ch : Chip) (r : Nat) (f : Region → Region) : (ch.modRegion r f).syncs = ch.syncs := rfl
@[simp] theorem Chip.modRegion_oldGens (ch : Chip) (r : Nat) (f : Region → Region) : (ch.modRegion r f).oldGens = ch.oldGens := rfl
@[simp] theorem Chip.modRegion_arriving (ch : Chip) (r : Nat) (f : Region → Region) : (ch.modRegion r f).arriving = ch.arriving := rfl
@[simp] theorem Chip.modRegion_remotes (ch : Chip) (r : Nat) (f : Region → Region) : (ch.modRegion r f).remotes = ch.remotes := rfl
@[simp] theorem Chip.modRegion_nextReq (ch : Chip) (r : Nat) (f : Region → Region) : (ch.modRegion r f).nextReq = ch.nextReq := rfl
@[simp] theorem Chip.modRegion_loader (ch : Chip) (r : Nat) (f : Region → Region) : (ch.modRegion r f).loader = ch.loader := rfl
@[simp] theorem Chip.modRegion_ler (ch : Chip) (r : Nat) (f : Region → Region) : (ch.modRegion r f).ler = ch.ler := rfl
@[simp] theorem Chip.modRegion_rcv (ch : Chip) (r : Nat) (f : Region → Region) : (ch.modRegion r f).rcv = ch.rcv := rfl
@[simp] theorem Chip.modRegion_wdg (ch : Chip) (r : Nat) (f : Region → Region) : (ch.modRegion r f).wdg = ch.wdg := rfl
@[simp] theorem Chip.modRegion_pwr (ch : Chip) (r : Nat) (f : Region → Region) : (ch.modRegion r f).pwr = ch.pwr := rfl
@[simp] theorem Chip.modRegion_boot (ch : Chip) (r : Nat) (f : Region → Region) : (ch.modRegion r f).boot = ch.boot := rfl
@[simp] theorem Chip.modRegion_host (ch : Chip) (r : Nat) (f : Region → Region) : (ch.modRegion r f).host = ch.host := rfl
@[simp] theorem Chip.modRegion_mbox (ch : Chip) (r : Nat) (f : Region → Region) : (ch.modRegion r f).mbox = ch.mbox := rfl
@[simp] theorem Chip.modRegion_sb (ch : Chip) (r : Nat) (f : Region → Region) : (ch.modRegion r f).sb = ch.sb := rfl
@[simp] theorem Chip.modRegion_tap (ch : Chip) (r : Nat) (f : Region → Region) : (ch.modRegion r f).tap = ch.tap := rfl
@[simp] theorem Chip.modRegion_twin (ch : Chip) (r : Nat) (f : Region → Region) : (ch.modRegion r f).twin = ch.twin := rfl
@[simp] theorem Chip.modRegion_bg (ch : Chip) (r : Nat) (f : Region → Region) : (ch.modRegion r f).bg = ch.bg := rfl
@[simp] theorem Chip.modRegion_free (ch : Chip) (r : Nat) (f : Region → Region) : (ch.modRegion r f).free = ch.free := rfl
@[simp] theorem Chip.modRegion_out (ch : Chip) (r : Nat) (f : Region → Region) : (ch.modRegion r f).out = ch.out := rfl

/-! ### Chip.modTp -/

@[simp] theorem Chip.modTp_variant (ch : Chip) (p : Nat) (f : TwinPart → TwinPart) : (ch.modTp p f).variant = ch.variant := rfl
@[simp] theorem Chip.modTp_tray (ch : Chip) (p : Nat) (f : TwinPart → TwinPart) : (ch.modTp p f).tray = ch.tray := rfl
@[simp] theorem Chip.modTp_time (ch : Chip) (p : Nat) (f : TwinPart → TwinPart) : (ch.modTp p f).time = ch.time := rfl
@[simp] theorem Chip.modTp_strapPins (ch : Chip) (p : Nat) (f : TwinPart → TwinPart) : (ch.modTp p f).strapPins = ch.strapPins := rfl
@[simp] theorem Chip.modTp_tickOutUntil (ch : Chip) (p : Nat) (f : TwinPart → TwinPart) : (ch.modTp p f).tickOutUntil = ch.tickOutUntil := rfl
@[simp] theorem Chip.modTp_decisions (ch : Chip) (p : Nat) (f : TwinPart → TwinPart) : (ch.modTp p f).decisions = ch.decisions := rfl
@[simp] theorem Chip.modTp_phase (ch : Chip) (p : Nat) (f : TwinPart → TwinPart) : (ch.modTp p f).phase = ch.phase := rfl
@[simp] theorem Chip.modTp_timeLatch (ch : Chip) (p : Nat) (f : TwinPart → TwinPart) : (ch.modTp p f).timeLatch = ch.timeLatch := rfl
@[simp] theorem Chip.modTp_regLog (ch : Chip) (p : Nat) (f : TwinPart → TwinPart) : (ch.modTp p f).regLog = ch.regLog := rfl
@[simp] theorem Chip.modTp_mem (ch : Chip) (p : Nat) (f : TwinPart → TwinPart) : (ch.modTp p f).mem = ch.mem := rfl
@[simp] theorem Chip.modTp_badLines (ch : Chip) (p : Nat) (f : TwinPart → TwinPart) : (ch.modTp p f).badLines = ch.badLines := rfl
@[simp] theorem Chip.modTp_softLines (ch : Chip) (p : Nat) (f : TwinPart → TwinPart) : (ch.modTp p f).softLines = ch.softLines := rfl
@[simp] theorem Chip.modTp_cores (ch : Chip) (p : Nat) (f : TwinPart → TwinPart) : (ch.modTp p f).cores = ch.cores := rfl
@[simp] theorem Chip.modTp_pods (ch : Chip) (p : Nat) (f : TwinPart → TwinPart) : (ch.modTp p f).pods = ch.pods := rfl
@[simp] theorem Chip.modTp_cus (ch : Chip) (p : Nat) (f : TwinPart → TwinPart) : (ch.modTp p f).cus = ch.cus := rfl
@[simp] theorem Chip.modTp_tes (ch : Chip) (p : Nat) (f : TwinPart → TwinPart) : (ch.modTp p f).tes = ch.tes := rfl
@[simp] theorem Chip.modTp_links (ch : Chip) (p : Nat) (f : TwinPart → TwinPart) : (ch.modTp p f).links = ch.links := rfl
@[simp] theorem Chip.modTp_parts (ch : Chip) (p : Nat) (f : TwinPart → TwinPart) : (ch.modTp p f).parts = ch.parts := rfl
@[simp] theorem Chip.modTp_chans (ch : Chip) (p : Nat) (f : TwinPart → TwinPart) : (ch.modTp p f).chans = ch.chans := rfl
@[simp] theorem Chip.modTp_syncs (ch : Chip) (p : Nat) (f : TwinPart → TwinPart) : (ch.modTp p f).syncs = ch.syncs := rfl
@[simp] theorem Chip.modTp_regions (ch : Chip) (p : Nat) (f : TwinPart → TwinPart) : (ch.modTp p f).regions = ch.regions := rfl
@[simp] theorem Chip.modTp_oldGens (ch : Chip) (p : Nat) (f : TwinPart → TwinPart) : (ch.modTp p f).oldGens = ch.oldGens := rfl
@[simp] theorem Chip.modTp_arriving (ch : Chip) (p : Nat) (f : TwinPart → TwinPart) : (ch.modTp p f).arriving = ch.arriving := rfl
@[simp] theorem Chip.modTp_remotes (ch : Chip) (p : Nat) (f : TwinPart → TwinPart) : (ch.modTp p f).remotes = ch.remotes := rfl
@[simp] theorem Chip.modTp_nextReq (ch : Chip) (p : Nat) (f : TwinPart → TwinPart) : (ch.modTp p f).nextReq = ch.nextReq := rfl
@[simp] theorem Chip.modTp_loader (ch : Chip) (p : Nat) (f : TwinPart → TwinPart) : (ch.modTp p f).loader = ch.loader := rfl
@[simp] theorem Chip.modTp_ler (ch : Chip) (p : Nat) (f : TwinPart → TwinPart) : (ch.modTp p f).ler = ch.ler := rfl
@[simp] theorem Chip.modTp_rcv (ch : Chip) (p : Nat) (f : TwinPart → TwinPart) : (ch.modTp p f).rcv = ch.rcv := rfl
@[simp] theorem Chip.modTp_wdg (ch : Chip) (p : Nat) (f : TwinPart → TwinPart) : (ch.modTp p f).wdg = ch.wdg := rfl
@[simp] theorem Chip.modTp_pwr (ch : Chip) (p : Nat) (f : TwinPart → TwinPart) : (ch.modTp p f).pwr = ch.pwr := rfl
@[simp] theorem Chip.modTp_boot (ch : Chip) (p : Nat) (f : TwinPart → TwinPart) : (ch.modTp p f).boot = ch.boot := rfl
@[simp] theorem Chip.modTp_host (ch : Chip) (p : Nat) (f : TwinPart → TwinPart) : (ch.modTp p f).host = ch.host := rfl
@[simp] theorem Chip.modTp_mbox (ch : Chip) (p : Nat) (f : TwinPart → TwinPart) : (ch.modTp p f).mbox = ch.mbox := rfl
@[simp] theorem Chip.modTp_sb (ch : Chip) (p : Nat) (f : TwinPart → TwinPart) : (ch.modTp p f).sb = ch.sb := rfl
@[simp] theorem Chip.modTp_tap (ch : Chip) (p : Nat) (f : TwinPart → TwinPart) : (ch.modTp p f).tap = ch.tap := rfl
@[simp] theorem Chip.modTp_bg (ch : Chip) (p : Nat) (f : TwinPart → TwinPart) : (ch.modTp p f).bg = ch.bg := rfl
@[simp] theorem Chip.modTp_free (ch : Chip) (p : Nat) (f : TwinPart → TwinPart) : (ch.modTp p f).free = ch.free := rfl
@[simp] theorem Chip.modTp_out (ch : Chip) (p : Nat) (f : TwinPart → TwinPart) : (ch.modTp p f).out = ch.out := rfl

/-! ### Chip.emit -/

@[simp] theorem Chip.emit_variant (ch : Chip) (o : Output) : (ch.emit o).variant = ch.variant := rfl
@[simp] theorem Chip.emit_tray (ch : Chip) (o : Output) : (ch.emit o).tray = ch.tray := rfl
@[simp] theorem Chip.emit_time (ch : Chip) (o : Output) : (ch.emit o).time = ch.time := rfl
@[simp] theorem Chip.emit_strapPins (ch : Chip) (o : Output) : (ch.emit o).strapPins = ch.strapPins := rfl
@[simp] theorem Chip.emit_tickOutUntil (ch : Chip) (o : Output) : (ch.emit o).tickOutUntil = ch.tickOutUntil := rfl
@[simp] theorem Chip.emit_decisions (ch : Chip) (o : Output) : (ch.emit o).decisions = ch.decisions := rfl
@[simp] theorem Chip.emit_phase (ch : Chip) (o : Output) : (ch.emit o).phase = ch.phase := rfl
@[simp] theorem Chip.emit_timeLatch (ch : Chip) (o : Output) : (ch.emit o).timeLatch = ch.timeLatch := rfl
@[simp] theorem Chip.emit_regLog (ch : Chip) (o : Output) : (ch.emit o).regLog = ch.regLog := rfl
@[simp] theorem Chip.emit_mem (ch : Chip) (o : Output) : (ch.emit o).mem = ch.mem := rfl
@[simp] theorem Chip.emit_badLines (ch : Chip) (o : Output) : (ch.emit o).badLines = ch.badLines := rfl
@[simp] theorem Chip.emit_softLines (ch : Chip) (o : Output) : (ch.emit o).softLines = ch.softLines := rfl
@[simp] theorem Chip.emit_cores (ch : Chip) (o : Output) : (ch.emit o).cores = ch.cores := rfl
@[simp] theorem Chip.emit_pods (ch : Chip) (o : Output) : (ch.emit o).pods = ch.pods := rfl
@[simp] theorem Chip.emit_cus (ch : Chip) (o : Output) : (ch.emit o).cus = ch.cus := rfl
@[simp] theorem Chip.emit_tes (ch : Chip) (o : Output) : (ch.emit o).tes = ch.tes := rfl
@[simp] theorem Chip.emit_links (ch : Chip) (o : Output) : (ch.emit o).links = ch.links := rfl
@[simp] theorem Chip.emit_parts (ch : Chip) (o : Output) : (ch.emit o).parts = ch.parts := rfl
@[simp] theorem Chip.emit_chans (ch : Chip) (o : Output) : (ch.emit o).chans = ch.chans := rfl
@[simp] theorem Chip.emit_syncs (ch : Chip) (o : Output) : (ch.emit o).syncs = ch.syncs := rfl
@[simp] theorem Chip.emit_regions (ch : Chip) (o : Output) : (ch.emit o).regions = ch.regions := rfl
@[simp] theorem Chip.emit_oldGens (ch : Chip) (o : Output) : (ch.emit o).oldGens = ch.oldGens := rfl
@[simp] theorem Chip.emit_arriving (ch : Chip) (o : Output) : (ch.emit o).arriving = ch.arriving := rfl
@[simp] theorem Chip.emit_remotes (ch : Chip) (o : Output) : (ch.emit o).remotes = ch.remotes := rfl
@[simp] theorem Chip.emit_nextReq (ch : Chip) (o : Output) : (ch.emit o).nextReq = ch.nextReq := rfl
@[simp] theorem Chip.emit_loader (ch : Chip) (o : Output) : (ch.emit o).loader = ch.loader := rfl
@[simp] theorem Chip.emit_ler (ch : Chip) (o : Output) : (ch.emit o).ler = ch.ler := rfl
@[simp] theorem Chip.emit_rcv (ch : Chip) (o : Output) : (ch.emit o).rcv = ch.rcv := rfl
@[simp] theorem Chip.emit_wdg (ch : Chip) (o : Output) : (ch.emit o).wdg = ch.wdg := rfl
@[simp] theorem Chip.emit_pwr (ch : Chip) (o : Output) : (ch.emit o).pwr = ch.pwr := rfl
@[simp] theorem Chip.emit_boot (ch : Chip) (o : Output) : (ch.emit o).boot = ch.boot := rfl
@[simp] theorem Chip.emit_host (ch : Chip) (o : Output) : (ch.emit o).host = ch.host := rfl
@[simp] theorem Chip.emit_mbox (ch : Chip) (o : Output) : (ch.emit o).mbox = ch.mbox := rfl
@[simp] theorem Chip.emit_sb (ch : Chip) (o : Output) : (ch.emit o).sb = ch.sb := rfl
@[simp] theorem Chip.emit_tap (ch : Chip) (o : Output) : (ch.emit o).tap = ch.tap := rfl
@[simp] theorem Chip.emit_twin (ch : Chip) (o : Output) : (ch.emit o).twin = ch.twin := rfl
@[simp] theorem Chip.emit_bg (ch : Chip) (o : Output) : (ch.emit o).bg = ch.bg := rfl
@[simp] theorem Chip.emit_free (ch : Chip) (o : Output) : (ch.emit o).free = ch.free := rfl

/-! ### Reading back what an update changed -/

theorem Chip.modCore_core (ch : Chip) (k j : Nat) (f : Core → Core) :
    (ch.modCore k f).core j = if j = k ∧ k < ch.cores.length then f (ch.core k) else ch.core j := by
  simp only [Chip.core, Chip.modCore, List.getD_eq_getElem?_getD, List.getElem?_modify]
  by_cases h : j = k
  · subst h; by_cases hl : j < ch.cores.length <;> simp [hl]
  · have h' : k ≠ j := fun e => h e.symm
    simp [h, h']

@[simp] theorem Chip.modCore_cores_length (ch : Chip) (k : Nat) (f : Core → Core) : (ch.modCore k f).cores.length = ch.cores.length := by
  simp [Chip.modCore]

theorem Chip.modPart_part (ch : Chip) (k j : Nat) (f : Part → Part) :
    (ch.modPart k f).part j = if j = k ∧ k < ch.parts.length then f (ch.part k) else ch.part j := by
  simp only [Chip.part, Chip.modPart, List.getD_eq_getElem?_getD, List.getElem?_modify]
  by_cases h : j = k
  · subst h; by_cases hl : j < ch.parts.length <;> simp [hl]
  · have h' : k ≠ j := fun e => h e.symm
    simp [h, h']

@[simp] theorem Chip.modPart_parts_length (ch : Chip) (k : Nat) (f : Part → Part) : (ch.modPart k f).parts.length = ch.parts.length := by
  simp [Chip.modPart]

theorem Chip.modPod_pod (ch : Chip) (k j : Nat) (f : Pod → Pod) :
    (ch.modPod k f).pod j = if j = k ∧ k < ch.pods.length then f (ch.pod k) else ch.pod j := by
  simp only [Chip.pod, Chip.modPod, List.getD_eq_getElem?_getD, List.getElem?_modify]
  by_cases h : j = k
  · subst h; by_cases hl : j < ch.pods.length <;> simp [hl]
  · have h' : k ≠ j := fun e => h e.symm
    simp [h, h']

@[simp] theorem Chip.modPod_pods_length (ch : Chip) (k : Nat) (f : Pod → Pod) : (ch.modPod k f).pods.length = ch.pods.length := by
  simp [Chip.modPod]

theorem Chip.modCu_cu (ch : Chip) (k j : Nat) (f : CoderUnit → CoderUnit) :
    (ch.modCu k f).cu j = if j = k ∧ k < ch.cus.length then f (ch.cu k) else ch.cu j := by
  simp only [Chip.cu, Chip.modCu, List.getD_eq_getElem?_getD, List.getElem?_modify]
  by_cases h : j = k
  · subst h; by_cases hl : j < ch.cus.length <;> simp [hl]
  · have h' : k ≠ j := fun e => h e.symm
    simp [h, h']

@[simp] theorem Chip.modCu_cus_length (ch : Chip) (k : Nat) (f : CoderUnit → CoderUnit) : (ch.modCu k f).cus.length = ch.cus.length := by
  simp [Chip.modCu]

theorem Chip.modTe_te (ch : Chip) (k j : Nat) (f : TreeEngine → TreeEngine) :
    (ch.modTe k f).te j = if j = k ∧ k < ch.tes.length then f (ch.te k) else ch.te j := by
  simp only [Chip.te, Chip.modTe, List.getD_eq_getElem?_getD, List.getElem?_modify]
  by_cases h : j = k
  · subst h; by_cases hl : j < ch.tes.length <;> simp [hl]
  · have h' : k ≠ j := fun e => h e.symm
    simp [h, h']

@[simp] theorem Chip.modTe_tes_length (ch : Chip) (k : Nat) (f : TreeEngine → TreeEngine) : (ch.modTe k f).tes.length = ch.tes.length := by
  simp [Chip.modTe]

theorem Chip.modLink_link (ch : Chip) (k j : Nat) (f : Link → Link) :
    (ch.modLink k f).link j = if j = k ∧ k < ch.links.length then f (ch.link k) else ch.link j := by
  simp only [Chip.link, Chip.modLink, List.getD_eq_getElem?_getD, List.getElem?_modify]
  by_cases h : j = k
  · subst h; by_cases hl : j < ch.links.length <;> simp [hl]
  · have h' : k ≠ j := fun e => h e.symm
    simp [h, h']

@[simp] theorem Chip.modLink_links_length (ch : Chip) (k : Nat) (f : Link → Link) : (ch.modLink k f).links.length = ch.links.length := by
  simp [Chip.modLink]

theorem Chip.modRegion_region (ch : Chip) (k j : Nat) (f : Region → Region) :
    (ch.modRegion k f).region j = if j = k ∧ k < ch.regions.length then f (ch.region k) else ch.region j := by
  simp only [Chip.region, Chip.modRegion, List.getD_eq_getElem?_getD, List.getElem?_modify]
  by_cases h : j = k
  · subst h; by_cases hl : j < ch.regions.length <;> simp [hl]
  · have h' : k ≠ j := fun e => h e.symm
    simp [h, h']

@[simp] theorem Chip.modRegion_regions_length (ch : Chip) (k : Nat) (f : Region → Region) : (ch.modRegion k f).regions.length = ch.regions.length := by
  simp [Chip.modRegion]

@[simp] theorem Chip.modCore_part (ch : Chip) (k j : Nat) (f : Core → Core) : (ch.modCore k f).part j = ch.part j := rfl
@[simp] theorem Chip.modCore_pod (ch : Chip) (k j : Nat) (f : Core → Core) : (ch.modCore k f).pod j = ch.pod j := rfl
@[simp] theorem Chip.modCore_cu (ch : Chip) (k j : Nat) (f : Core → Core) : (ch.modCore k f).cu j = ch.cu j := rfl
@[simp] theorem Chip.modCore_te (ch : Chip) (k j : Nat) (f : Core → Core) : (ch.modCore k f).te j = ch.te j := rfl
@[simp] theorem Chip.modCore_link (ch : Chip) (k j : Nat) (f : Core → Core) : (ch.modCore k f).link j = ch.link j := rfl
@[simp] theorem Chip.modCore_region (ch : Chip) (k j : Nat) (f : Core → Core) : (ch.modCore k f).region j = ch.region j := rfl
@[simp] theorem Chip.modPart_core (ch : Chip) (k j : Nat) (f : Part → Part) : (ch.modPart k f).core j = ch.core j := rfl
@[simp] theorem Chip.modPart_pod (ch : Chip) (k j : Nat) (f : Part → Part) : (ch.modPart k f).pod j = ch.pod j := rfl
@[simp] theorem Chip.modPart_cu (ch : Chip) (k j : Nat) (f : Part → Part) : (ch.modPart k f).cu j = ch.cu j := rfl
@[simp] theorem Chip.modPart_te (ch : Chip) (k j : Nat) (f : Part → Part) : (ch.modPart k f).te j = ch.te j := rfl
@[simp] theorem Chip.modPart_link (ch : Chip) (k j : Nat) (f : Part → Part) : (ch.modPart k f).link j = ch.link j := rfl
@[simp] theorem Chip.modPart_region (ch : Chip) (k j : Nat) (f : Part → Part) : (ch.modPart k f).region j = ch.region j := rfl
@[simp] theorem Chip.modPod_core (ch : Chip) (k j : Nat) (f : Pod → Pod) : (ch.modPod k f).core j = ch.core j := rfl
@[simp] theorem Chip.modPod_part (ch : Chip) (k j : Nat) (f : Pod → Pod) : (ch.modPod k f).part j = ch.part j := rfl
@[simp] theorem Chip.modPod_cu (ch : Chip) (k j : Nat) (f : Pod → Pod) : (ch.modPod k f).cu j = ch.cu j := rfl
@[simp] theorem Chip.modPod_te (ch : Chip) (k j : Nat) (f : Pod → Pod) : (ch.modPod k f).te j = ch.te j := rfl
@[simp] theorem Chip.modPod_link (ch : Chip) (k j : Nat) (f : Pod → Pod) : (ch.modPod k f).link j = ch.link j := rfl
@[simp] theorem Chip.modPod_region (ch : Chip) (k j : Nat) (f : Pod → Pod) : (ch.modPod k f).region j = ch.region j := rfl
@[simp] theorem Chip.modCu_core (ch : Chip) (k j : Nat) (f : CoderUnit → CoderUnit) : (ch.modCu k f).core j = ch.core j := rfl
@[simp] theorem Chip.modCu_part (ch : Chip) (k j : Nat) (f : CoderUnit → CoderUnit) : (ch.modCu k f).part j = ch.part j := rfl
@[simp] theorem Chip.modCu_pod (ch : Chip) (k j : Nat) (f : CoderUnit → CoderUnit) : (ch.modCu k f).pod j = ch.pod j := rfl
@[simp] theorem Chip.modCu_te (ch : Chip) (k j : Nat) (f : CoderUnit → CoderUnit) : (ch.modCu k f).te j = ch.te j := rfl
@[simp] theorem Chip.modCu_link (ch : Chip) (k j : Nat) (f : CoderUnit → CoderUnit) : (ch.modCu k f).link j = ch.link j := rfl
@[simp] theorem Chip.modCu_region (ch : Chip) (k j : Nat) (f : CoderUnit → CoderUnit) : (ch.modCu k f).region j = ch.region j := rfl
@[simp] theorem Chip.modTe_core (ch : Chip) (k j : Nat) (f : TreeEngine → TreeEngine) : (ch.modTe k f).core j = ch.core j := rfl
@[simp] theorem Chip.modTe_part (ch : Chip) (k j : Nat) (f : TreeEngine → TreeEngine) : (ch.modTe k f).part j = ch.part j := rfl
@[simp] theorem Chip.modTe_pod (ch : Chip) (k j : Nat) (f : TreeEngine → TreeEngine) : (ch.modTe k f).pod j = ch.pod j := rfl
@[simp] theorem Chip.modTe_cu (ch : Chip) (k j : Nat) (f : TreeEngine → TreeEngine) : (ch.modTe k f).cu j = ch.cu j := rfl
@[simp] theorem Chip.modTe_link (ch : Chip) (k j : Nat) (f : TreeEngine → TreeEngine) : (ch.modTe k f).link j = ch.link j := rfl
@[simp] theorem Chip.modTe_region (ch : Chip) (k j : Nat) (f : TreeEngine → TreeEngine) : (ch.modTe k f).region j = ch.region j := rfl
@[simp] theorem Chip.modLink_core (ch : Chip) (k j : Nat) (f : Link → Link) : (ch.modLink k f).core j = ch.core j := rfl
@[simp] theorem Chip.modLink_part (ch : Chip) (k j : Nat) (f : Link → Link) : (ch.modLink k f).part j = ch.part j := rfl
@[simp] theorem Chip.modLink_pod (ch : Chip) (k j : Nat) (f : Link → Link) : (ch.modLink k f).pod j = ch.pod j := rfl
@[simp] theorem Chip.modLink_cu (ch : Chip) (k j : Nat) (f : Link → Link) : (ch.modLink k f).cu j = ch.cu j := rfl
@[simp] theorem Chip.modLink_te (ch : Chip) (k j : Nat) (f : Link → Link) : (ch.modLink k f).te j = ch.te j := rfl
@[simp] theorem Chip.modLink_region (ch : Chip) (k j : Nat) (f : Link → Link) : (ch.modLink k f).region j = ch.region j := rfl
@[simp] theorem Chip.modRegion_core (ch : Chip) (k j : Nat) (f : Region → Region) : (ch.modRegion k f).core j = ch.core j := rfl
@[simp] theorem Chip.modRegion_part (ch : Chip) (k j : Nat) (f : Region → Region) : (ch.modRegion k f).part j = ch.part j := rfl
@[simp] theorem Chip.modRegion_pod (ch : Chip) (k j : Nat) (f : Region → Region) : (ch.modRegion k f).pod j = ch.pod j := rfl
@[simp] theorem Chip.modRegion_cu (ch : Chip) (k j : Nat) (f : Region → Region) : (ch.modRegion k f).cu j = ch.cu j := rfl
@[simp] theorem Chip.modRegion_te (ch : Chip) (k j : Nat) (f : Region → Region) : (ch.modRegion k f).te j = ch.te j := rfl
@[simp] theorem Chip.modRegion_link (ch : Chip) (k j : Nat) (f : Region → Region) : (ch.modRegion k f).link j = ch.link j := rfl

/-! ### Cores -/

@[simp] theorem Core.setS_v (x : Core) (d : Nat) (a : W64) : (x.setS d a).v = x.v := by
  unfold Core.setS; split <;> rfl
@[simp] theorem Core.setS_p (x : Core) (d : Nat) (a : W64) : (x.setS d a).p = x.p := by
  unfold Core.setS; split <;> rfl
@[simp] theorem Core.setS_pc (x : Core) (d : Nat) (a : W64) : (x.setS d a).pc = x.pc := by
  unfold Core.setS; split <;> rfl
@[simp] theorem Core.setS_late (x : Core) (d : Nat) (a : W64) : (x.setS d a).late = x.late := by
  unfold Core.setS; split <;> rfl
@[simp] theorem Core.setS_rowPaid (x : Core) (d : Nat) (a : W64) : (x.setS d a).rowPaid = x.rowPaid := by
  unfold Core.setS; split <;> rfl
@[simp] theorem Core.setS_acw (x : Core) (d : Nat) (a : W64) : (x.setS d a).acw = x.acw := by
  unfold Core.setS; split <;> rfl
@[simp] theorem Core.setS_state (x : Core) (d : Nat) (a : W64) : (x.setS d a).state = x.state := by
  unfold Core.setS; split <;> rfl
@[simp] theorem Core.setS_wait (x : Core) (d : Nat) (a : W64) : (x.setS d a).wait = x.wait := by
  unfold Core.setS; split <;> rfl
@[simp] theorem Core.setS_cq (x : Core) (d : Nat) (a : W64) : (x.setS d a).cq = x.cq := by
  unfold Core.setS; split <;> rfl
@[simp] theorem Core.setS_outst (x : Core) (d : Nat) (a : W64) : (x.setS d a).outst = x.outst := by
  unfold Core.setS; split <;> rfl
@[simp] theorem Core.setS_posted (x : Core) (d : Nat) (a : W64) : (x.setS d a).posted = x.posted := by
  unfold Core.setS; split <;> rfl
@[simp] theorem Core.setS_image (x : Core) (d : Nat) (a : W64) : (x.setS d a).image = x.image := by
  unfold Core.setS; split <;> rfl
@[simp] theorem Core.setS_entryPc (x : Core) (d : Nat) (a : W64) : (x.setS d a).entryPc = x.entryPc := by
  unfold Core.setS; split <;> rfl
@[simp] theorem Core.setS_hasCode (x : Core) (d : Nat) (a : W64) : (x.setS d a).hasCode = x.hasCode := by
  unfold Core.setS; split <;> rfl
@[simp] theorem Core.setS_badCode (x : Core) (d : Nat) (a : W64) : (x.setS d a).badCode = x.badCode := by
  unfold Core.setS; split <;> rfl
@[simp] theorem Core.setS_softCode (x : Core) (d : Nat) (a : W64) : (x.setS d a).softCode = x.softCode := by
  unfold Core.setS; split <;> rfl
@[simp] theorem Core.setS_ran (x : Core) (d : Nat) (a : W64) : (x.setS d a).ran = x.ran := by
  unfold Core.setS; split <;> rfl
@[simp] theorem Core.setS_stopped (x : Core) (d : Nat) (a : W64) : (x.setS d a).stopped = x.stopped := by
  unfold Core.setS; split <;> rfl
@[simp] theorem Core.setS_ended (x : Core) (d : Nat) (a : W64) : (x.setS d a).ended = x.ended := by
  unfold Core.setS; split <;> rfl
@[simp] theorem Core.setS_tcycles (x : Core) (d : Nat) (a : W64) : (x.setS d a).tcycles = x.tcycles := by
  unfold Core.setS; split <;> rfl
@[simp] theorem Core.setS_retired (x : Core) (d : Nat) (a : W64) : (x.setS d a).retired = x.retired := by
  unfold Core.setS; split <;> rfl
@[simp] theorem Core.setS_tretired (x : Core) (d : Nat) (a : W64) : (x.setS d a).tretired = x.tretired := by
  unfold Core.setS; split <;> rfl
@[simp] theorem Core.setS_wdgPeriod (x : Core) (d : Nat) (a : W64) : (x.setS d a).wdgPeriod = x.wdgPeriod := by
  unfold Core.setS; split <;> rfl
@[simp] theorem Core.setS_wdgLeft (x : Core) (d : Nat) (a : W64) : (x.setS d a).wdgLeft = x.wdgLeft := by
  unfold Core.setS; split <;> rfl
@[simp] theorem Core.setS_ldpri (x : Core) (d : Nat) (a : W64) : (x.setS d a).ldpri = x.ldpri := by
  unfold Core.setS; split <;> rfl
@[simp] theorem Core.setS_rowq (x : Core) (d : Nat) (a : W64) : (x.setS d a).rowq = x.rowq := by
  unfold Core.setS; split <;> rfl
@[simp] theorem Core.setS_rowStatus (x : Core) (d : Nat) (a : W64) : (x.setS d a).rowStatus = x.rowStatus := by
  unfold Core.setS; split <;> rfl
@[simp] theorem Core.setS_sfuFenced (x : Core) (d : Nat) (a : W64) : (x.setS d a).sfuFenced = x.sfuFenced := by
  unfold Core.setS; split <;> rfl
@[simp] theorem Core.setS_sfuFences (x : Core) (d : Nat) (a : W64) : (x.setS d a).sfuFences = x.sfuFences := by
  unfold Core.setS; split <;> rfl
@[simp] theorem Core.setS_sfuKept (x : Core) (d : Nat) (a : W64) : (x.setS d a).sfuKept = x.sfuKept := by
  unfold Core.setS; split <;> rfl
@[simp] theorem Core.setS_fault (x : Core) (d : Nat) (a : W64) : (x.setS d a).fault = x.fault := by
  unfold Core.setS; split <;> rfl
@[simp] theorem Core.setS_dbg (x : Core) (d : Nat) (a : W64) : (x.setS d a).dbg = x.dbg := by
  unfold Core.setS; split <;> rfl
@[simp] theorem Core.setS_epochs (x : Core) (d : Nat) (a : W64) : (x.setS d a).epochs = x.epochs := by
  unfold Core.setS; split <;> rfl
@[simp] theorem Core.setS_epochOrder (x : Core) (d : Nat) (a : W64) : (x.setS d a).epochOrder = x.epochOrder := by
  unfold Core.setS; split <;> rfl
@[simp] theorem Core.setS_faultRun (x : Core) (d : Nat) (a : W64) : (x.setS d a).faultRun = x.faultRun := by
  unfold Core.setS; split <;> rfl
@[simp] theorem Core.setS_faultTick (x : Core) (d : Nat) (a : W64) : (x.setS d a).faultTick = x.faultTick := by
  unfold Core.setS; split <;> rfl
@[simp] theorem Core.setS_recover (x : Core) (d : Nat) (a : W64) : (x.setS d a).recover = x.recover := by
  unfold Core.setS; split <;> rfl
@[simp] theorem Core.setS_inRec (x : Core) (d : Nat) (a : W64) : (x.setS d a).inRec = x.inRec := by
  unfold Core.setS; split <;> rfl
@[simp] theorem Core.setS_reclaimed (x : Core) (d : Nat) (a : W64) : (x.setS d a).reclaimed = x.reclaimed := by
  unfold Core.setS; split <;> rfl

@[simp] theorem Core.setP_s (x : Core) (d : Nat) (a : W64) : (x.setP d a).s = x.s := by
  unfold Core.setP; split <;> rfl
@[simp] theorem Core.setP_v (x : Core) (d : Nat) (a : W64) : (x.setP d a).v = x.v := by
  unfold Core.setP; split <;> rfl
@[simp] theorem Core.setP_pc (x : Core) (d : Nat) (a : W64) : (x.setP d a).pc = x.pc := by
  unfold Core.setP; split <;> rfl
@[simp] theorem Core.setP_late (x : Core) (d : Nat) (a : W64) : (x.setP d a).late = x.late := by
  unfold Core.setP; split <;> rfl
@[simp] theorem Core.setP_rowPaid (x : Core) (d : Nat) (a : W64) : (x.setP d a).rowPaid = x.rowPaid := by
  unfold Core.setP; split <;> rfl
@[simp] theorem Core.setP_acw (x : Core) (d : Nat) (a : W64) : (x.setP d a).acw = x.acw := by
  unfold Core.setP; split <;> rfl
@[simp] theorem Core.setP_state (x : Core) (d : Nat) (a : W64) : (x.setP d a).state = x.state := by
  unfold Core.setP; split <;> rfl
@[simp] theorem Core.setP_wait (x : Core) (d : Nat) (a : W64) : (x.setP d a).wait = x.wait := by
  unfold Core.setP; split <;> rfl
@[simp] theorem Core.setP_cq (x : Core) (d : Nat) (a : W64) : (x.setP d a).cq = x.cq := by
  unfold Core.setP; split <;> rfl
@[simp] theorem Core.setP_outst (x : Core) (d : Nat) (a : W64) : (x.setP d a).outst = x.outst := by
  unfold Core.setP; split <;> rfl
@[simp] theorem Core.setP_posted (x : Core) (d : Nat) (a : W64) : (x.setP d a).posted = x.posted := by
  unfold Core.setP; split <;> rfl
@[simp] theorem Core.setP_image (x : Core) (d : Nat) (a : W64) : (x.setP d a).image = x.image := by
  unfold Core.setP; split <;> rfl
@[simp] theorem Core.setP_entryPc (x : Core) (d : Nat) (a : W64) : (x.setP d a).entryPc = x.entryPc := by
  unfold Core.setP; split <;> rfl
@[simp] theorem Core.setP_hasCode (x : Core) (d : Nat) (a : W64) : (x.setP d a).hasCode = x.hasCode := by
  unfold Core.setP; split <;> rfl
@[simp] theorem Core.setP_badCode (x : Core) (d : Nat) (a : W64) : (x.setP d a).badCode = x.badCode := by
  unfold Core.setP; split <;> rfl
@[simp] theorem Core.setP_softCode (x : Core) (d : Nat) (a : W64) : (x.setP d a).softCode = x.softCode := by
  unfold Core.setP; split <;> rfl
@[simp] theorem Core.setP_ran (x : Core) (d : Nat) (a : W64) : (x.setP d a).ran = x.ran := by
  unfold Core.setP; split <;> rfl
@[simp] theorem Core.setP_stopped (x : Core) (d : Nat) (a : W64) : (x.setP d a).stopped = x.stopped := by
  unfold Core.setP; split <;> rfl
@[simp] theorem Core.setP_ended (x : Core) (d : Nat) (a : W64) : (x.setP d a).ended = x.ended := by
  unfold Core.setP; split <;> rfl
@[simp] theorem Core.setP_tcycles (x : Core) (d : Nat) (a : W64) : (x.setP d a).tcycles = x.tcycles := by
  unfold Core.setP; split <;> rfl
@[simp] theorem Core.setP_retired (x : Core) (d : Nat) (a : W64) : (x.setP d a).retired = x.retired := by
  unfold Core.setP; split <;> rfl
@[simp] theorem Core.setP_tretired (x : Core) (d : Nat) (a : W64) : (x.setP d a).tretired = x.tretired := by
  unfold Core.setP; split <;> rfl
@[simp] theorem Core.setP_wdgPeriod (x : Core) (d : Nat) (a : W64) : (x.setP d a).wdgPeriod = x.wdgPeriod := by
  unfold Core.setP; split <;> rfl
@[simp] theorem Core.setP_wdgLeft (x : Core) (d : Nat) (a : W64) : (x.setP d a).wdgLeft = x.wdgLeft := by
  unfold Core.setP; split <;> rfl
@[simp] theorem Core.setP_ldpri (x : Core) (d : Nat) (a : W64) : (x.setP d a).ldpri = x.ldpri := by
  unfold Core.setP; split <;> rfl
@[simp] theorem Core.setP_rowq (x : Core) (d : Nat) (a : W64) : (x.setP d a).rowq = x.rowq := by
  unfold Core.setP; split <;> rfl
@[simp] theorem Core.setP_rowStatus (x : Core) (d : Nat) (a : W64) : (x.setP d a).rowStatus = x.rowStatus := by
  unfold Core.setP; split <;> rfl
@[simp] theorem Core.setP_sfuFenced (x : Core) (d : Nat) (a : W64) : (x.setP d a).sfuFenced = x.sfuFenced := by
  unfold Core.setP; split <;> rfl
@[simp] theorem Core.setP_sfuFences (x : Core) (d : Nat) (a : W64) : (x.setP d a).sfuFences = x.sfuFences := by
  unfold Core.setP; split <;> rfl
@[simp] theorem Core.setP_sfuKept (x : Core) (d : Nat) (a : W64) : (x.setP d a).sfuKept = x.sfuKept := by
  unfold Core.setP; split <;> rfl
@[simp] theorem Core.setP_fault (x : Core) (d : Nat) (a : W64) : (x.setP d a).fault = x.fault := by
  unfold Core.setP; split <;> rfl
@[simp] theorem Core.setP_dbg (x : Core) (d : Nat) (a : W64) : (x.setP d a).dbg = x.dbg := by
  unfold Core.setP; split <;> rfl
@[simp] theorem Core.setP_epochs (x : Core) (d : Nat) (a : W64) : (x.setP d a).epochs = x.epochs := by
  unfold Core.setP; split <;> rfl
@[simp] theorem Core.setP_epochOrder (x : Core) (d : Nat) (a : W64) : (x.setP d a).epochOrder = x.epochOrder := by
  unfold Core.setP; split <;> rfl
@[simp] theorem Core.setP_faultRun (x : Core) (d : Nat) (a : W64) : (x.setP d a).faultRun = x.faultRun := by
  unfold Core.setP; split <;> rfl
@[simp] theorem Core.setP_faultTick (x : Core) (d : Nat) (a : W64) : (x.setP d a).faultTick = x.faultTick := by
  unfold Core.setP; split <;> rfl
@[simp] theorem Core.setP_recover (x : Core) (d : Nat) (a : W64) : (x.setP d a).recover = x.recover := by
  unfold Core.setP; split <;> rfl
@[simp] theorem Core.setP_inRec (x : Core) (d : Nat) (a : W64) : (x.setP d a).inRec = x.inRec := by
  unfold Core.setP; split <;> rfl
@[simp] theorem Core.setP_reclaimed (x : Core) (d : Nat) (a : W64) : (x.setP d a).reclaimed = x.reclaimed := by
  unfold Core.setP; split <;> rfl

@[simp] theorem Core.setV_s (x : Core) (d : Nat) (a : V512) : (x.setV d a).s = x.s := rfl
@[simp] theorem Core.setV_p (x : Core) (d : Nat) (a : V512) : (x.setV d a).p = x.p := rfl
@[simp] theorem Core.setV_pc (x : Core) (d : Nat) (a : V512) : (x.setV d a).pc = x.pc := rfl
@[simp] theorem Core.setV_late (x : Core) (d : Nat) (a : V512) : (x.setV d a).late = x.late := rfl
@[simp] theorem Core.setV_rowPaid (x : Core) (d : Nat) (a : V512) : (x.setV d a).rowPaid = x.rowPaid := rfl
@[simp] theorem Core.setV_acw (x : Core) (d : Nat) (a : V512) : (x.setV d a).acw = x.acw := rfl
@[simp] theorem Core.setV_state (x : Core) (d : Nat) (a : V512) : (x.setV d a).state = x.state := rfl
@[simp] theorem Core.setV_wait (x : Core) (d : Nat) (a : V512) : (x.setV d a).wait = x.wait := rfl
@[simp] theorem Core.setV_cq (x : Core) (d : Nat) (a : V512) : (x.setV d a).cq = x.cq := rfl
@[simp] theorem Core.setV_outst (x : Core) (d : Nat) (a : V512) : (x.setV d a).outst = x.outst := rfl
@[simp] theorem Core.setV_posted (x : Core) (d : Nat) (a : V512) : (x.setV d a).posted = x.posted := rfl
@[simp] theorem Core.setV_image (x : Core) (d : Nat) (a : V512) : (x.setV d a).image = x.image := rfl
@[simp] theorem Core.setV_entryPc (x : Core) (d : Nat) (a : V512) : (x.setV d a).entryPc = x.entryPc := rfl
@[simp] theorem Core.setV_hasCode (x : Core) (d : Nat) (a : V512) : (x.setV d a).hasCode = x.hasCode := rfl
@[simp] theorem Core.setV_badCode (x : Core) (d : Nat) (a : V512) : (x.setV d a).badCode = x.badCode := rfl
@[simp] theorem Core.setV_softCode (x : Core) (d : Nat) (a : V512) : (x.setV d a).softCode = x.softCode := rfl
@[simp] theorem Core.setV_ran (x : Core) (d : Nat) (a : V512) : (x.setV d a).ran = x.ran := rfl
@[simp] theorem Core.setV_stopped (x : Core) (d : Nat) (a : V512) : (x.setV d a).stopped = x.stopped := rfl
@[simp] theorem Core.setV_ended (x : Core) (d : Nat) (a : V512) : (x.setV d a).ended = x.ended := rfl
@[simp] theorem Core.setV_tcycles (x : Core) (d : Nat) (a : V512) : (x.setV d a).tcycles = x.tcycles := rfl
@[simp] theorem Core.setV_retired (x : Core) (d : Nat) (a : V512) : (x.setV d a).retired = x.retired := rfl
@[simp] theorem Core.setV_tretired (x : Core) (d : Nat) (a : V512) : (x.setV d a).tretired = x.tretired := rfl
@[simp] theorem Core.setV_wdgPeriod (x : Core) (d : Nat) (a : V512) : (x.setV d a).wdgPeriod = x.wdgPeriod := rfl
@[simp] theorem Core.setV_wdgLeft (x : Core) (d : Nat) (a : V512) : (x.setV d a).wdgLeft = x.wdgLeft := rfl
@[simp] theorem Core.setV_ldpri (x : Core) (d : Nat) (a : V512) : (x.setV d a).ldpri = x.ldpri := rfl
@[simp] theorem Core.setV_rowq (x : Core) (d : Nat) (a : V512) : (x.setV d a).rowq = x.rowq := rfl
@[simp] theorem Core.setV_rowStatus (x : Core) (d : Nat) (a : V512) : (x.setV d a).rowStatus = x.rowStatus := rfl
@[simp] theorem Core.setV_sfuFenced (x : Core) (d : Nat) (a : V512) : (x.setV d a).sfuFenced = x.sfuFenced := rfl
@[simp] theorem Core.setV_sfuFences (x : Core) (d : Nat) (a : V512) : (x.setV d a).sfuFences = x.sfuFences := rfl
@[simp] theorem Core.setV_sfuKept (x : Core) (d : Nat) (a : V512) : (x.setV d a).sfuKept = x.sfuKept := rfl
@[simp] theorem Core.setV_fault (x : Core) (d : Nat) (a : V512) : (x.setV d a).fault = x.fault := rfl
@[simp] theorem Core.setV_dbg (x : Core) (d : Nat) (a : V512) : (x.setV d a).dbg = x.dbg := rfl
@[simp] theorem Core.setV_epochs (x : Core) (d : Nat) (a : V512) : (x.setV d a).epochs = x.epochs := rfl
@[simp] theorem Core.setV_epochOrder (x : Core) (d : Nat) (a : V512) : (x.setV d a).epochOrder = x.epochOrder := rfl
@[simp] theorem Core.setV_faultRun (x : Core) (d : Nat) (a : V512) : (x.setV d a).faultRun = x.faultRun := rfl
@[simp] theorem Core.setV_faultTick (x : Core) (d : Nat) (a : V512) : (x.setV d a).faultTick = x.faultTick := rfl
@[simp] theorem Core.setV_recover (x : Core) (d : Nat) (a : V512) : (x.setV d a).recover = x.recover := rfl
@[simp] theorem Core.setV_inRec (x : Core) (d : Nat) (a : V512) : (x.setV d a).inRec = x.inRec := rfl
@[simp] theorem Core.setV_reclaimed (x : Core) (d : Nat) (a : V512) : (x.setV d a).reclaimed = x.reclaimed := rfl

/-- A scalar register after a write: s0 reads 0, and discards what is written (R303). -/
theorem Core.getS_setS (x : Core) (d e : Nat) (a : W64) (hd : d < x.s.length) :
    (x.setS d a).getS e = if e = d ∧ d ≠ 0 then a else x.getS e := by
  unfold Core.setS Core.getS
  by_cases h0 : d = 0
  · simp [h0]
  · by_cases he : e = d
    · subst he; simp [h0, hd]
    · have he' : d ≠ e := fun q => he q.symm
      simp [h0, he, he']

/-- A predicate register after a write: p0 reads all ones, and discards what is written (R303). -/
theorem Core.getP_setP (x : Core) (d e : Nat) (a : W64) (hd : d < x.p.length) :
    (x.setP d a).getP e = if e = d ∧ d ≠ 0 then a else x.getP e := by
  unfold Core.setP Core.getP
  by_cases h0 : d = 0
  · simp [h0]
  · by_cases he : e = d
    · subst he; simp [h0, hd]
    · have he' : d ≠ e := fun q => he q.symm
      simp [h0, he, he']

/-- A vector register after a write. -/
theorem Core.getV_setV (x : Core) (d e : Nat) (a : V512) (hd : d < x.v.length) :
    (x.setV d a).getV e = if e = d then a else x.getV e := by
  unfold Core.setV Core.getV
  by_cases he : e = d
  · subst he; simp [hd]
  · have he' : d ≠ e := fun q => he q.symm
    simp [he, he']

/-! ### The tray -/

@[simp] theorem State.withChip_trayType (s : State) (c : Nat) (ch : Chip) : (s.withChip c ch).trayType = s.trayType := rfl
@[simp] theorem State.withChip_port (s : State) (c : Nat) (ch : Chip) : (s.withChip c ch).port = s.port := rfl
@[simp] theorem State.withChip_tmc (s : State) (c : Nat) (ch : Chip) : (s.withChip c ch).tmc = s.tmc := rfl
@[simp] theorem State.withChip_pending (s : State) (c : Nat) (ch : Chip) : (s.withChip c ch).pending = s.pending := rfl
@[simp] theorem State.modChip_trayType (s : State) (c : Nat) (f : Chip → Chip) : (s.modChip c f).trayType = s.trayType := rfl
@[simp] theorem State.modChip_port (s : State) (c : Nat) (f : Chip → Chip) : (s.modChip c f).port = s.port := rfl
@[simp] theorem State.modChip_tmc (s : State) (c : Nat) (f : Chip → Chip) : (s.modChip c f).tmc = s.tmc := rfl
@[simp] theorem State.modChip_pending (s : State) (c : Nat) (f : Chip → Chip) : (s.modChip c f).pending = s.pending := rfl
@[simp] theorem State.modTmc_trayType (s : State) (f : Tmc → Tmc) : (s.modTmc f).trayType = s.trayType := rfl
@[simp] theorem State.modTmc_port (s : State) (f : Tmc → Tmc) : (s.modTmc f).port = s.port := rfl
@[simp] theorem State.modTmc_chips (s : State) (f : Tmc → Tmc) : (s.modTmc f).chips = s.chips := rfl
@[simp] theorem State.modTmc_pending (s : State) (f : Tmc → Tmc) : (s.modTmc f).pending = s.pending := rfl
@[simp] theorem State.emit_trayType (s : State) (o : Output) : (s.emit o).trayType = s.trayType := rfl
@[simp] theorem State.emit_port (s : State) (o : Output) : (s.emit o).port = s.port := rfl
@[simp] theorem State.emit_chips (s : State) (o : Output) : (s.emit o).chips = s.chips := rfl
@[simp] theorem State.emit_pending (s : State) (o : Output) : (s.emit o).pending = s.pending := rfl
@[simp] theorem State.modSession_trayType (s : State) (n : Nat) (f : Mgmt → Mgmt) : (s.modSession n f).trayType = s.trayType := rfl
@[simp] theorem State.modSession_port (s : State) (n : Nat) (f : Mgmt → Mgmt) : (s.modSession n f).port = s.port := rfl
@[simp] theorem State.modSession_chips (s : State) (n : Nat) (f : Mgmt → Mgmt) : (s.modSession n f).chips = s.chips := rfl
@[simp] theorem State.modSession_pending (s : State) (n : Nat) (f : Mgmt → Mgmt) : (s.modSession n f).pending = s.pending := rfl

/-- The chips after one of them has changed. -/
theorem State.withChip_get (s : State) (c j : Nat) (ch : Chip) :
    (s.withChip c ch).chips[j]? = if j = c ∧ c < s.chips.length then some ch else s.chips[j]? := by
  simp only [State.withChip, List.getElem?_set]
  by_cases h : j = c
  · subst h; by_cases hl : j < s.chips.length <;> simp [hl]
  · have h' : c ≠ j := fun e => h e.symm
    simp [h, h']

/-! ### What the shared operations can answer -/

/-- The record at work changes the record and what the chip has sent outwards, and nothing else. -/
theorem Chip.lerWork_cases (ch : Chip) (x : Record) : ∃ r o, ch.lerWork x = { ch with ler := r, out := o } := by
  unfold Chip.lerWork
  dsimp only
  split
  · exact ⟨_, _, rfl⟩
  · exact ⟨_, ch.out, rfl⟩

/-- A step of a unit changes its chip by its effect while the units of the partition work, and nothing otherwise. -/
theorem unitOn_eq {c : Nat} {s : State} {ch : Chip} (h : s.chips[c]? = some ch) (part : Chip → Nat) (f : Chip → Chip) :
    unitOn c part f s = .next (s.withChip c (if ch.unitsGo (part ch) then f ch else ch)) := by
  simp only [unitOn, onChip, h, State.withChip]

/-- An event changes the record, one partition's count of events and what the chip has sent outwards, and nothing else. -/
theorem Chip.event_cases (ch : Chip) (e : Entry) :
    ∃ r p o, ch.event e = { ch with ler := r, parts := p, out := o } := by
  unfold Chip.event
  obtain ⟨r, o, h⟩ := ch.lerWork_cases (ch.ler.raise { e with time := ch.time, tick := ch.tickOf e.part })
  rw [h]
  exact ⟨r, _, o, rfl⟩

/-- Everything that a unit can do with the oldest command that has arrived for it: nothing, or take it, fenced or not. -/
theorem Chip.accept_cases (ch : Chip) (sel : UnitCmd → Bool) (op : Nat) (f : UnitCmd → Chip → Chip) :
    ch.accept sel op f = ch ∨
    ∃ u, ch.arriving.find? sel = some u ∧ u.op = op ∧ ch.storesDone u = true ∧
      ch.accept sel op f =
        if ch.unitFenced u then ({ ch with arriving := ch.arriving.erase u } : Chip).complete u cFENCED 0
        else f u { ch with arriving := ch.arriving.erase u } := by
  unfold Chip.accept
  split
  · rename_i u hu
    split
    · rename_i h
      simp only [Bool.and_eq_true, beq_iff_eq] at h
      exact .inr ⟨u, hu, h.1, h.2, rfl⟩
    · exact .inl rfl
  · exact .inl rfl

/-- Everything that issuing a word can do: nothing, a debug halt, a FETCH fault, an ILLEGAL_INSTR fault, waiting for a SEQ store to
complete, or the instruction's own effect. -/
theorem Chip.issue_cases (ch : Chip) (k : Nat) (w : W64) (used : Nat) (body : Chip → Core → Res) :
    ch.issue k w used body = ch ∨ (∃ r i, ch.issue k w used body = ch.haltCore k r i) ∨
    (∃ c, ch.issue k w used body = ch.fetchFault k c) ∨
    ch.issue k w used body = (ch.fetched k).fault k fcILLEGAL cBOUNDS 0 ∨
    ch.issue k w used body = (ch.fetched k).settleRes k .block ∨
    ch.issue k w used body = (ch.fetched k).settleRes k (body (ch.fetched k) (ch.core k)) := by
  unfold Chip.issue Chip.fetched
  split
  · exact .inl rfl
  dsimp only
  split
  · exact .inr (.inl ⟨_, _, rfl⟩)
  split
  · exact .inr (.inl ⟨_, _, rfl⟩)
  split
  · exact .inr (.inr (.inl ⟨_, rfl⟩))
  split
  · exact .inr (.inr (.inl ⟨_, rfl⟩))
  split
  · exact .inr (.inr (.inl ⟨_, rfl⟩))
  split
  · exact .inl rfl
  generalize (if (ch.core k).state == .running then ch.countFetch k else ch) = a
  split
  · exact .inr (.inr (.inr (.inl rfl)))
  split
  · exact .inr (.inr (.inr (.inr (.inl rfl))))
  · exact .inr (.inr (.inr (.inr (.inr rfl))))

end Sys2Proof.Machine
end

