-- ==== Sys2Proof/WellFormed.lean ====
section
/-! DEFINITION. Which commands are well formed: operands within the ranges that the fields they stand for can hold, and for an
instruction of a core a word of its own opcode (R8, R22, R60, R309, R310, R421, R762). -/
namespace Sys2Proof

/-- The word carries an opcode (R309). -/
def isOp (op : Nat) (w : W64) : Bool := bitsOf w.toNat 56 8 == op

/-- The word is a sop of operation `fn` (R421). -/
def isSop (fn : Nat) (w : W64) : Bool := isOp 0xE4 w && bitsOf w.toNat 16 8 == fn

/-- Every number of the list is a byte. -/
def isBytes (l : List Nat) : Bool := l.all fun b => b < 256

/-- The command is well formed: chip below 4, core below 64, partition or pod below 8, session below 4, bytes below 256, and a word of
the instruction's own opcode. -/
def Instr.wf : Instr → Bool
  | .tmcStart => true
  | .hello n sq payload => n < 4 && sq < 2 ^ 32 && isBytes payload
  | .auth n sq payload => n < 4 && sq < 2 ^ 32 && isBytes payload
  | .getStatus n sq payload => n < 4 && sq < 2 ^ 32 && isBytes payload
  | .getTelemetry n sq payload => n < 4 && sq < 2 ^ 32 && isBytes payload
  | .setTrayCap n sq payload => n < 4 && sq < 2 ^ 32 && isBytes payload
  | .getTrayCap n sq payload => n < 4 && sq < 2 ^ 32 && isBytes payload
  | .chipPower n sq payload => n < 4 && sq < 2 ^ 32 && isBytes payload
  | .chipReset n sq payload => n < 4 && sq < 2 ^ 32 && isBytes payload
  | .readLer n sq payload => n < 4 && sq < 2 ^ 32 && isBytes payload
  | .releaseLer n sq payload => n < 4 && sq < 2 ^ 32 && isBytes payload
  | .flashWrite n sq payload => n < 4 && sq < 2 ^ 32 && isBytes payload
  | .flashCommit n sq payload => n < 4 && sq < 2 ^ 32 && isBytes payload
  | .plateSelect n sq payload => n < 4 && sq < 2 ^ 32 && isBytes payload
  | .configRead n sq payload => n < 4 && sq < 2 ^ 32 && isBytes payload
  | .configWrite n sq payload => n < 4 && sq < 2 ^ 32 && isBytes payload
  | .twinControl n sq payload => n < 4 && sq < 2 ^ 32 && isBytes payload
  | .mgmtBadFrame n frame => n < 4 && isBytes frame
  | .mgmtUnknownType n sq typ len => n < 4 && sq < 2 ^ 32 && typ < 256 && len < 2 ^ 32
  | .mgmtConnect => true
  | .mgmtHeartbeat => true
  | .mgmtSessionTimeout n => n < 4
  | .tmcHeartbeatCheck c => c < 4
  | .tmcRecoveryStep c => c < 4
  | .wakeAssert => true
  | .wakeTimer => true
  | .railsPowerGood c => c < 4
  | .railsOff c => c < 4
  | .traySleepEnter => true
  | .fanFail _ => true
  | .flashSwitchRequest mask => mask < 256
  | .flashSwitchEnd c => c < 4
  | .pwrFailAssert _ _ => true
  | .pwrFailRelease _ => true
  | .wakeHoldDiscard => true
  | .thermalLimitStep => true
  | .inletDerate _ => true
  | .inletShutdown => true
  | .filterWarning _ _ => true
  | .tmcDormantPoll c => c < 4
  | .tmcBootPoll => true
  | .tmcReqPoll c => c < 4
  | .hostPerst _ _ _ => true
  | .sbAddr a v => a < 128 && v < 2 ^ 32
  | .sbData32Read a => a < 128
  | .sbData32Write a v => a < 128 && v < 2 ^ 32
  | .sbData64Read a => a < 128
  | .sbData64Write a v => a < 128 && v < 2 ^ 64
  | .lerFrame a v => a < 128 && v < 2 ^ 32
  | .lerRead a => a < 128
  | .lerRelease a v => a < 128 && v < 2 ^ 32
  | .sbReset a kind key => a < 128 && kind < 256 && key < 256
  | .sbStatus a => a < 128
  | .sbBadPec a code => a < 128 && code < 256
  | .rstNLow c => c < 4
  | .wakeNPulse c _ => c < 4
  | .powerOnReset c => c < 4
  | .pwrFailNFall c => c < 4
  | .pwrFailNRise c => c < 4
  | .tickInEdge => true
  | .unitBlockAccessIdle c a _ _ => c < 4 && a < 256
  | .registerWrite c a _ _ v => c < 4 && a < 256 && v < 2 ^ 64
  | .timeLowRead c a => c < 4 && a < 256
  | .plateLoad c a => c < 4 && a < 256
  | .plateValidate c _ data => c < 4 && isBytes data
  | .plateApply c => c < 4
  | .plateUnload c a => c < 4 && a < 256
  | .plateCancel c a p => c < 4 && a < 256 && p < 8
  | .overlayApply c p => c < 4 && p < 8
  | .fallbackApply c p => c < 4 && p < 8
  | .fallbackTimeout c => c < 4
  | .tickStart c p => c < 4 && p < 8
  | .substituteTick c p => c < 4 && p < 8
  | .tickDeadline c p => c < 4 && p < 8
  | .extendedDeadline c p => c < 4 && p < 8
  | .tickComplete c p => c < 4 && p < 8
  | .admitJob c p => c < 4 && p < 8
  | .retireJob c p => c < 4 && p < 8
  | .syncPost c p => c < 4 && p < 8
  | .hostNop c p => c < 4 && p < 8
  | .hostFence c p => c < 4 && p < 8
  | .clrOverruns c a p => c < 4 && a < 256 && p < 8
  | .pwrOffer c _ => c < 4
  | .pwrCommit c => c < 4
  | .pwrAbandon c => c < 4
  | .offerExpiry c => c < 4
  | .fcChangeDone c => c < 4
  | .thermalTrip c => c < 4
  | .thermalClear c => c < 4
  | .idleEntry c => c < 4
  | .idleExit c _ => c < 4
  | .pwrCtrlStandby c a => c < 4 && a < 256
  | .standbyEntryDone c => c < 4
  | .pwrCtrlActive c a => c < 4 && a < 256
  | .pwrCtrlDormant c a => c < 4 && a < 256
  | .dormantReady c => c < 4
  | .mma c p => c < 4 && p < 8
  | .drain c p => c < 4 && p < 8
  | .loadAcc c p => c < 4 && p < 8
  | .arrayCmdBegin c p _ => c < 4 && p < 8
  | .arrayCmdComplete c p _ => c < 4 && p < 8
  | .softmax c k => c < 4 && k < 64
  | .rowstat c k => c < 4 && k < 64
  | .norm c k => c < 4 && k < 64
  | .rowCmdComplete c k _ => c < 4 && k < 64
  | .seClaim c p => c < 4 && p < 8
  | .seRelease c p _ _ => c < 4 && p < 8
  | .seRun c p => c < 4 && p < 8
  | .seAttach c p => c < 4 && p < 8
  | .seTail c p => c < 4 && p < 8
  | .seArm c p => c < 4 && p < 8
  | .seCtxArmWrite c k p _ _ => c < 4 && k < 64 && p < 8
  | .seCancel c p _ _ => c < 4 && p < 8
  | .swap c p => c < 4 && p < 8
  | .chain c p => c < 4 && p < 8
  | .chainStageStart c p _ _ _ => c < 4 && p < 8
  | .carouselArm c p _ => c < 4 && p < 8
  | .rotate c p => c < 4 && p < 8
  | .carouselTransfer c p _ _ => c < 4 && p < 8
  | .carouselTransferDone c p _ _ => c < 4 && p < 8
  | .carouselDisarm c p => c < 4 && p < 8
  | .seRingFetch c p _ _ => c < 4 && p < 8
  | .seDescriptorBegin c p _ _ => c < 4 && p < 8
  | .seDescriptorComplete c p _ _ => c < 4 && p < 8
  | .seDescriptorTimeout c p _ _ _ => c < 4 && p < 8
  | .bucketRefill c => c < 4
  | .cuClaim c _ => c < 4
  | .cuRelease c _ => c < 4
  | .encOpen c _ => c < 4
  | .encStatic c _ => c < 4
  | .encParam c _ => c < 4
  | .encFlush c _ => c < 4
  | .decOpen c _ => c < 4
  | .decStatic c _ => c < 4
  | .decParam c _ => c < 4
  | .decClose c _ => c < 4
  | .seal c _ => c < 4
  | .check c _ => c < 4
  | .runaheadSpeculate c _ _ => c < 4
  | .cuCmdComplete c _ _ => c < 4
  | .teClaim c _ => c < 4
  | .teRelease c _ => c < 4
  | .teLoad c _ => c < 4
  | .score c _ => c < 4
  | .gather c _ => c < 4
  | .teCmdComplete c _ _ => c < 4
  | .stats c _ _ => c < 4
  | .adaptReset c _ => c < 4
  | .flitReceive c _ _ f => c < 4 && f.length == 256 && f.all (fun b => b < 256)
  | .ackTimer c _ => c < 4
  | .replayTimer c _ => c < 4
  | .retrainDone c _ _ => c < 4
  | .linkTrainingDone c _ _ _ _ _ _ => c < 4
  | .freshTraining c _ => c < 4
  | .linkForceDown c a _ => c < 4 && a < 256
  | .linkCtrlRetrain c a _ => c < 4 && a < 256
  | .remoteRequestServe c _ p _ _ _ _ data => c < 4 && p < 8 && isBytes data
  | .remoteResponse c _ _ data => c < 4 && isBytes data
  | .remoteTimeout c _ => c < 4
  | .narrowBlockReceive c _ p _ _ desc rec blk => c < 4 && p < 8 && isBytes desc && isBytes rec && isBytes blk
  | .twinTickMsg c p _ => c < 4 && p < 8
  | .twinPair c _ _ _ mask _ _ _ => c < 4 && mask < 256
  | .twinHeartbeatSend c => c < 4
  | .twinHeartbeatMsg c _ _ _ => c < 4
  | .twinHeartbeatLoss c => c < 4
  | .proofGo c a p v => c < 4 && a < 256 && p < 8 && v < 2 ^ 64
  | .proofDigestDone c p _ => c < 4 && p < 8
  | .twinDigest c p _ _ _ _ _ _ _ => c < 4 && p < 8
  | .proofCutoff c p => c < 4 && p < 8
  | .ckptCopyDone c p => c < 4 && p < 8
  | .ckptDone c p _ _ => c < 4 && p < 8
  | .overlayReady c p _ => c < 4 && p < 8
  | .overlayCommit c p _ _ => c < 4 && p < 8
  | .fallbackAt c p _ => c < 4 && p < 8
  | .twinFail c mask _ => c < 4 && mask < 256
  | .twinDetachMsg c => c < 4
  | .twinRejoinMsg c => c < 4
  | .twinSwitchMsg c mask _ => c < 4 && mask < 256
  | .resetReq c _ => c < 4
  | .twinResetReqSend c => c < 4
  | .twinCtrlDetach c a => c < 4 && a < 256
  | .detachDrainEnd c => c < 4
  | .twinCtrlRejoin c a => c < 4 && a < 256
  | .twinCtrlSwitch c a mask => c < 4 && a < 256 && mask < 256
  | .confirm c a mask => c < 4 && a < 256 && mask < 256
  | .relinquish c a mask => c < 4 && a < 256 && mask < 256
  | .coreFaultReclaim c k => c < 4 && k < 64
  | .coreUnfenceAfterTick c k => c < 4 && k < 64
  | .partitionRecovery c p => c < 4 && p < 8
  | .unitInternalUncorr c _ _ => c < 4
  | .unitReinstall c _ _ => c < 4
  | .reclaimSetAgent c a _ => c < 4 && a < 256
  | .reclaimFence c a _ => c < 4 && a < 256
  | .reclaim c a _ => c < 4 && a < 256
  | .reclaimUnfence c a _ => c < 4 && a < 256
  | .stewardWdgExpiry c => c < 4
  | .stwKick c a => c < 4 && a < 256
  | .wdgKick c a v => c < 4 && a < 256 && v < 2 ^ 64
  | .wdgPeriodWrite c a v => c < 4 && a < 256 && v < 2 ^ 64
  | .chipWdgStage1 c => c < 4
  | .chipWdgStage2 c => c < 4
  | .clockMonitorTrip c _ _ => c < 4
  | .stwDbgHalt c a => c < 4 && a < 256
  | .stwDbgResume c a => c < 4 && a < 256
  | .hbmStackFail c _ => c < 4
  | .internalUncorr c _ => c < 4
  | .vlogClear c a => c < 4 && a < 256
  | .coreFaultClear c a k => c < 4 && a < 256 && k < 64
  | .lerFlushAge c => c < 4
  | .lerFrameWriteDone c => c < 4
  | .lerCtrlFlush c a => c < 4 && a < 256
  | .lerCtrlRelease c a => c < 4 && a < 256
  | .fatalAck c => c < 4
  | .eventForward c => c < 4
  | .stewardHeartbeatTick c => c < 4
  | .slotStart c p => c < 4 && p < 8
  | .slotEnd c p => c < 4 && p < 8
  | .bgStep c => c < 4
  | .dramPatrolLine c _ => c < 4
  | .sramScrubStep c _ _ _ _ => c < 4
  | .thermalSample c _ _ _ _ => c < 4
  | .droopCalibration c _ => c < 4
  | .serdesAdaptation c _ _ => c < 4
  | .hbmCalibration c _ => c < 4
  | .lerPatrol c _ _ => c < 4
  | .cmdTail c _ p v => c < 4 && p < 8 && v < 2 ^ 64
  | .cplHead c _ p v => c < 4 && p < 8 && v < 2 ^ 64
  | .evtHead c _ p v => c < 4 && p < 8 && v < 2 ^ 64
  | .tlmHead c _ p v => c < 4 && p < 8 && v < 2 ^ 64
  | .cmdFetch c p _ data => c < 4 && p < 8 && isBytes data
  | .msixDeferred c _ _ => c < 4
  | .getInfo c => c < 4
  | .mbLerRead c => c < 4
  | .mbLerRelease c => c < 4
  | .setHostCap c => c < 4
  | .mbGetTrayCap c => c < 4
  | .reqDormant c => c < 4
  | .tmcRspWrite c _ v => c < 4 && v < 2 ^ 64
  | .tmcReqTimeout c => c < 4
  | .hostLinkReset c _ => c < 4
  | .flr c _ => c < 4
  | .bar4Access c _ _ _ _ data => c < 4 && isBytes data
  | .hostRefusedAccess c _ _ _ _ _ v => c < 4 && v < 2 ^ 64
  | .hostMemCompletion c _ _ data => c < 4 && isBytes data
  | .chipResetPerform c => c < 4
  | .bootResetDone c => c < 4
  | .fwReadDone c => c < 4
  | .bootRelease c v => c < 4 && v < 2 ^ 64
  | .releaseTimeout c => c < 4
  | .hbmTrainDone c _ => c < 4
  | .selfTestDone c _ => c < 4
  | .lerScan c => c < 4
  | .bootPlateLoad c => c < 4
  | .pcieLinkUp c => c < 4
  | .dbgHalt c a k => c < 4 && a < 256 && k < 64
  | .dbgResume c a k => c < 4 && a < 256 && k < 64
  | .dbgStep c a k => c < 4 && a < 256 && k < 64
  | .dbgHaltPart c a k => c < 4 && a < 256 && k < 64
  | .dbgResumePart c a k => c < 4 && a < 256 && k < 64
  | .dbgRegdataAccess c a k _ v => c < 4 && a < 256 && k < 64 && v < 2 ^ 64
  | .dbgMdataAccess c a k _ v => c < 4 && a < 256 && k < 64 && v < 2 ^ 64
  | .breakpointHit c k => c < 4 && k < 64
  | .tapDbgDataUpdate irs drs pins => irs.length ≤ 4 && drs.length ≤ 4 && pins.length ≤ 4 && irs.all (fun v => v < 256) &&
    drs.all (fun v => v < 2 ^ 72) && pins.all fun v => v < 16
  | .tapReset => true
  | .fetchFault c k => c < 4 && k < 64
  | .illegalInstrWord c k _ => c < 4 && k < 64
  | .postedStoreError c _ => c < 4
  | .coreWatchdogExpiry c k => c < 4 && k < 64
  | .cwaitTimeout c k => c < 4 && k < 64
  | .messageArrival c _ _ => c < 4
  | .creditReturn c _ => c < 4
  | .sendTimeout c k => c < 4 && k < 64
  | .recvTimeout c k => c < 4 && k < 64
  | .syncWaitTimeout c k => c < 4 && k < 64
  | .add c k w => c < 4 && k < 64 && isOp 0x01 w
  | .sub c k w => c < 4 && k < 64 && isOp 0x02 w
  | .mul c k w => c < 4 && k < 64 && isOp 0x03 w
  | .mulh c k w => c < 4 && k < 64 && isOp 0x04 w
  | .mulhu c k w => c < 4 && k < 64 && isOp 0x05 w
  | .div c k w => c < 4 && k < 64 && isOp 0x06 w
  | .divu c k w => c < 4 && k < 64 && isOp 0x07 w
  | .rem c k w => c < 4 && k < 64 && isOp 0x08 w
  | .remu c k w => c < 4 && k < 64 && isOp 0x09 w
  | .and c k w => c < 4 && k < 64 && isOp 0x0A w
  | .or c k w => c < 4 && k < 64 && isOp 0x0B w
  | .xor c k w => c < 4 && k < 64 && isOp 0x0C w
  | .andn c k w => c < 4 && k < 64 && isOp 0x0D w
  | .shl c k w => c < 4 && k < 64 && isOp 0x0E w
  | .shr c k w => c < 4 && k < 64 && isOp 0x0F w
  | .sar c k w => c < 4 && k < 64 && isOp 0x10 w
  | .rol c k w => c < 4 && k < 64 && isOp 0x11 w
  | .min c k w => c < 4 && k < 64 && isOp 0x12 w
  | .max c k w => c < 4 && k < 64 && isOp 0x13 w
  | .minu c k w => c < 4 && k < 64 && isOp 0x14 w
  | .maxu c k w => c < 4 && k < 64 && isOp 0x15 w
  | .slt c k w => c < 4 && k < 64 && isOp 0x16 w
  | .sltu c k w => c < 4 && k < 64 && isOp 0x17 w
  | .seq c k w => c < 4 && k < 64 && isOp 0x18 w
  | .sel c k w => c < 4 && k < 64 && isOp 0x19 w
  | .clz c k w => c < 4 && k < 64 && isOp 0x1A w
  | .ctz c k w => c < 4 && k < 64 && isOp 0x1B w
  | .popc c k w => c < 4 && k < 64 && isOp 0x1C w
  | .addi c k w => c < 4 && k < 64 && isOp 0x20 w
  | .andi c k w => c < 4 && k < 64 && isOp 0x21 w
  | .ori c k w => c < 4 && k < 64 && isOp 0x22 w
  | .xori c k w => c < 4 && k < 64 && isOp 0x23 w
  | .shli c k w => c < 4 && k < 64 && isOp 0x24 w
  | .shri c k w => c < 4 && k < 64 && isOp 0x25 w
  | .sari c k w => c < 4 && k < 64 && isOp 0x26 w
  | .slti c k w => c < 4 && k < 64 && isOp 0x27 w
  | .sltui c k w => c < 4 && k < 64 && isOp 0x28 w
  | .muli c k w => c < 4 && k < 64 && isOp 0x29 w
  | .li c k w => c < 4 && k < 64 && isOp 0x2E w
  | .lih c k w => c < 4 && k < 64 && isOp 0x2F w
  | .beq c k w => c < 4 && k < 64 && isOp 0x30 w
  | .bne c k w => c < 4 && k < 64 && isOp 0x31 w
  | .blt c k w => c < 4 && k < 64 && isOp 0x32 w
  | .bge c k w => c < 4 && k < 64 && isOp 0x33 w
  | .bltu c k w => c < 4 && k < 64 && isOp 0x34 w
  | .bgeu c k w => c < 4 && k < 64 && isOp 0x35 w
  | .jal c k w => c < 4 && k < 64 && isOp 0x36 w
  | .jalr c k w => c < 4 && k < 64 && isOp 0x37 w
  | .bpany c k w => c < 4 && k < 64 && isOp 0x38 w
  | .bpnone c k w => c < 4 && k < 64 && isOp 0x39 w
  | .ld8 c k w => c < 4 && k < 64 && isOp 0x40 w
  | .ld8u c k w => c < 4 && k < 64 && isOp 0x41 w
  | .ld16 c k w => c < 4 && k < 64 && isOp 0x42 w
  | .ld16u c k w => c < 4 && k < 64 && isOp 0x43 w
  | .ld32 c k w => c < 4 && k < 64 && isOp 0x44 w
  | .ld32u c k w => c < 4 && k < 64 && isOp 0x45 w
  | .ld64 c k w => c < 4 && k < 64 && isOp 0x46 w
  | .st8 c k w => c < 4 && k < 64 && isOp 0x48 w
  | .st16 c k w => c < 4 && k < 64 && isOp 0x49 w
  | .st32 c k w => c < 4 && k < 64 && isOp 0x4A w
  | .st64 c k w => c < 4 && k < 64 && isOp 0x4B w
  | .amoadd c k w => c < 4 && k < 64 && isOp 0x4C w
  | .amoswap c k w => c < 4 && k < 64 && isOp 0x4D w
  | .amocas c k w => c < 4 && k < 64 && isOp 0x4E w
  | .amomax c k w => c < 4 && k < 64 && isOp 0x4F w
  | .vldb c k w => c < 4 && k < 64 && isOp 0x50 w
  | .vldh c k w => c < 4 && k < 64 && isOp 0x51 w
  | .vldw c k w => c < 4 && k < 64 && isOp 0x52 w
  | .vldd c k w => c < 4 && k < 64 && isOp 0x53 w
  | .vstb c k w => c < 4 && k < 64 && isOp 0x54 w
  | .vsth c k w => c < 4 && k < 64 && isOp 0x55 w
  | .vstw c k w => c < 4 && k < 64 && isOp 0x56 w
  | .vstd c k w => c < 4 && k < 64 && isOp 0x57 w
  | .vgthw c k w => c < 4 && k < 64 && isOp 0x58 w
  | .vsctw c k w => c < 4 && k < 64 && isOp 0x59 w
  | .vadd c k w => c < 4 && k < 64 && isOp 0x60 w
  | .vsub c k w => c < 4 && k < 64 && isOp 0x61 w
  | .vmul c k w => c < 4 && k < 64 && isOp 0x62 w
  | .vmulh c k w => c < 4 && k < 64 && isOp 0x63 w
  | .vmulhu c k w => c < 4 && k < 64 && isOp 0x64 w
  | .vand c k w => c < 4 && k < 64 && isOp 0x65 w
  | .vor c k w => c < 4 && k < 64 && isOp 0x66 w
  | .vxor c k w => c < 4 && k < 64 && isOp 0x67 w
  | .vshl c k w => c < 4 && k < 64 && isOp 0x68 w
  | .vshr c k w => c < 4 && k < 64 && isOp 0x69 w
  | .vsar c k w => c < 4 && k < 64 && isOp 0x6A w
  | .vmin c k w => c < 4 && k < 64 && isOp 0x6B w
  | .vmax c k w => c < 4 && k < 64 && isOp 0x6C w
  | .vminu c k w => c < 4 && k < 64 && isOp 0x6D w
  | .vmaxu c k w => c < 4 && k < 64 && isOp 0x6E w
  | .vicmp c k w => c < 4 && k < 64 && isOp 0x6F w
  | .vsel c k w => c < 4 && k < 64 && isOp 0x70 w
  | .vsum c k w => c < 4 && k < 64 && isOp 0x71 w
  | .vdot4 c k w => c < 4 && k < 64 && isOp 0x72 w
  | .vnarrow c k w => c < 4 && k < 64 && isOp 0x73 w
  | .vwiden c k w => c < 4 && k < 64 && isOp 0x74 w
  | .vfadd c k w => c < 4 && k < 64 && isOp 0x80 w
  | .vfsub c k w => c < 4 && k < 64 && isOp 0x81 w
  | .vfmul c k w => c < 4 && k < 64 && isOp 0x82 w
  | .vfdiv c k w => c < 4 && k < 64 && isOp 0x83 w
  | .vfsqrt c k w => c < 4 && k < 64 && isOp 0x84 w
  | .vfma c k w => c < 4 && k < 64 && isOp 0x85 w
  | .vfms c k w => c < 4 && k < 64 && isOp 0x86 w
  | .vfnma c k w => c < 4 && k < 64 && isOp 0x87 w
  | .vfmin c k w => c < 4 && k < 64 && isOp 0x88 w
  | .vfmax c k w => c < 4 && k < 64 && isOp 0x89 w
  | .vfminn c k w => c < 4 && k < 64 && isOp 0x8A w
  | .vfmaxn c k w => c < 4 && k < 64 && isOp 0x8B w
  | .vfcmp c k w => c < 4 && k < 64 && isOp 0x8C w
  | .vfclass c k w => c < 4 && k < 64 && isOp 0x8D w
  | .vfsum c k w => c < 4 && k < 64 && isOp 0x8E w
  | .vfrnd c k w => c < 4 && k < 64 && isOp 0x8F w
  | .vfscb c k w => c < 4 && k < 64 && isOp 0x90 w
  | .vflgb c k w => c < 4 && k < 64 && isOp 0x91 w
  | .vfsgn c k w => c < 4 && k < 64 && isOp 0x92 w
  | .vftot c k w => c < 4 && k < 64 && isOp 0x93 w
  | .vfcvt c k w => c < 4 && k < 64 && isOp 0x94 w
  | .vfcvti c k w => c < 4 && k < 64 && isOp 0x95 w
  | .vicvtf c k w => c < 4 && k < 64 && isOp 0x96 w
  | .pand c k w => c < 4 && k < 64 && isOp 0xA0 w
  | .por c k w => c < 4 && k < 64 && isOp 0xA1 w
  | .pxor c k w => c < 4 && k < 64 && isOp 0xA2 w
  | .pandn c k w => c < 4 && k < 64 && isOp 0xA3 w
  | .pnot c k w => c < 4 && k < 64 && isOp 0xA4 w
  | .pset c k w => c < 4 && k < 64 && isOp 0xA5 w
  | .pcnt c k w => c < 4 && k < 64 && isOp 0xA6 w
  | .pfrom c k w => c < 4 && k < 64 && isOp 0xA7 w
  | .pto c k w => c < 4 && k < 64 && isOp 0xA8 w
  | .vmov c k w => c < 4 && k < 64 && isOp 0xB0 w
  | .vbcast c k w => c < 4 && k < 64 && isOp 0xB1 w
  | .vext c k w => c < 4 && k < 64 && isOp 0xB2 w
  | .vins c k w => c < 4 && k < 64 && isOp 0xB3 w
  | .vperm c k w => c < 4 && k < 64 && isOp 0xB4 w
  | .vslide c k w => c < 4 && k < 64 && isOp 0xB5 w
  | .sfu c k w => c < 4 && k < 64 && isOp 0xC0 w
  | .sfuba c k w => c < 4 && k < 64 && isOp 0xC1 w
  | .sfug c k w => c < 4 && k < 64 && isOp 0xC2 w
  | .cmd c k w => c < 4 && k < 64 && isOp 0xD0 w
  | .cwait c k w => c < 4 && k < 64 && isOp 0xD1 w
  | .cwtag c k w => c < 4 && k < 64 && isOp 0xD2 w
  | .cpoll c k w => c < 4 && k < 64 && isOp 0xD3 w
  | .send c k w => c < 4 && k < 64 && isOp 0xE0 w
  | .recv c k w => c < 4 && k < 64 && isOp 0xE1 w
  | .tsend c k w => c < 4 && k < 64 && isOp 0xE2 w
  | .trecv c k w => c < 4 && k < 64 && isOp 0xE3 w
  | .sopRead c k w => c < 4 && k < 64 && isSop 0x00 w
  | .sopPost c k w => c < 4 && k < 64 && isSop 0x01 w
  | .sopWait c k w => c < 4 && k < 64 && isSop 0x02 w
  | .sopTry c k w => c < 4 && k < 64 && isSop 0x03 w
  | .sopClear c k w => c < 4 && k < 64 && isSop 0x04 w
  | .sopSet c k w => c < 4 && k < 64 && isSop 0x05 w
  | .abind c k w => c < 4 && k < 64 && isSop 0x10 w
  | .atail c k w => c < 4 && k < 64 && isSop 0x11 w
  | .aadv c k w => c < 4 && k < 64 && isSop 0x12 w
  | .atrunc c k w => c < 4 && k < 64 && isSop 0x13 w
  | .aunbind c k w => c < 4 && k < 64 && isSop 0x18 w
  | .eopen c k w => c < 4 && k < 64 && isOp 0xE8 w
  | .ecommit c k w => c < 4 && k < 64 && isOp 0xE9 w
  | .eabort c k w => c < 4 && k < 64 && isOp 0xEA w
  | .tend c k w => c < 4 && k < 64 && isOp 0xF0 w
  | .fence c k w => c < 4 && k < 64 && isOp 0xF1 w
  | .crd c k w => c < 4 && k < 64 && isOp 0xF2 w
  | .cwr c k w => c < 4 && k < 64 && isOp 0xF3 w
  | .wdk c k w => c < 4 && k < 64 && isOp 0xF4 w
  | .trap c k w => c < 4 && k < 64 && isOp 0xF5 w
  | .bkpt c k w => c < 4 && k < 64 && isOp 0xF6 w
  | .nop c k w => c < 4 && k < 64 && isOp 0xF7 w
  | .stewardResume c => c < 4
  | .standbyExitDone c => c < 4
  | .mbUnknownService c => c < 4
  | .smbAlertN c => c < 4
  | .pcieConfigWrite c _ _ v => c < 4 && v < 2 ^ 64
  | .linkOutModuleInsert _ _ _ _ => true

end Sys2Proof
end

