-- ==== Sys2Proof/Tests/Slice0.lean ====
section
/-! SUPPORT. Tests: concrete chips and trays, a witness of the hypotheses of each statement (`wit_<its name>`), the checks of WellFormed,
and values that the spec writes out. -/
namespace Sys2Proof.Tests
open Sys2Proof Sys2Proof.Machine

/-! ## Concrete chips and trays -/

/-- A chip that runs, partition 0 on pods 0 and 1 with 1 MiB of DRAM. -/
def live : Chip :=
  let c := Chip.reset .ha720 0
  { c with
    pwr := { c.pwr with rails := true, powerGood := true, armed := false }
    boot := { c.boot with stage := .running }
    time := 1000000000
    parts := c.parts.set 0 {
      isDefined := true
      plate := { podMask := 3, dramSize := 0x100000, bwRead := 16, bwWrite := 16, period := 1000, cuMask := 1, teMask := 1, spill := 0x10000 }
      expert := true
      tokRead := 4096
      tokWrite := 4096 } }

/-- The same with core 0 about to execute `w`. -/
def running (w : Nat) : Chip := live.modCore 0 fun x => { x with state := .running, hasCode := true, ended := false, image := [BitVec.ofNat 64 w] }

/-- Core 0's registers set. -/
def withS (r v : Nat) (ch : Chip) : Chip := ch.modCore 0 fun x => x.setS r (BitVec.ofNat 64 v)

/-- The reset tray with its first chip replaced. -/
def tray (ch : Chip) : State := State.reset.withChip 0 ch

/-- The chip of that tray: the first hypothesis of every statement about a chip. -/
theorem wit_tray (ch : Chip) : (tray ch).chips[0]? = some ch := rfl

/-- The word of an opcode and its fields. -/
def word (op rest : Nat) : Nat := op * 2 ^ 56 + rest

/-- Core 0 is ready to execute the word of any opcode. -/
theorem wit_ready : ∀ op ∈ List.range 256, (running (word op 0)).ready 0 (BitVec.ofNat 64 (word op 0)) op 0 = true := by decide +kernel

/-- Where an address lies, from its computed answer. -/
theorem at_place {e : Except Nat Place} {pl : Place} (h : (match e with | .ok q => decide (q = pl) | .error _ => false) = true) : e = .ok pl := by
  cases e with
  | error _ => simp at h
  | ok q => simp at h; rw [h]

/-- A refusal's code, from its computed answer. -/
theorem at_code {α : Type} {e : Except Nat α} {n : Nat} (h : (match e with | .ok _ => false | .error q => decide (q = n)) = true) : e = .error n := by
  cases e with
  | ok _ => simp at h
  | error q => simp at h; rw [h]

/-- The error of an answer, if it is one. -/
def codeOf {ε α : Type} : Except ε α → Option ε
  | .ok _ => none
  | .error e => some e

/-! ## Cores -/

/-- A tie of R264: 1/2 rounds to 0 and 3/2 to 2 under RNE, and to 1 and 2 under RNA. -/
theorem wit_RoundingAndNan : (roundShift rmRNE false 1 1).1 = 0 ∧ (roundShift rmRNE false 3 1).1 = 2 ∧ (roundShift rmRNA false 1 1).1 = 1 ∧
    (roundShift rmRNA false 3 1).1 = 2 ∧ (roundShift rmROD false 1 1).1 = 1 ∧ (roundShift rmRDN true 1 1).1 = 1 := by decide +kernel

/-- The first and the last 8 bytes of core 0's store, and DRAM up to the spill region, may be read. -/
theorem wit_canRead : live.canRead 0 (coreBase 0) 8 ∧ live.canRead 0 (coreBase 1 - 8) 8 ∧ live.canRead 0 0xEFFC0 64 := by
  refine ⟨⟨.coreStore 0, at_place ?_, ?_⟩, ⟨.coreStore 0, at_place ?_, ?_⟩, ⟨.dram, at_place ?_, ?_⟩⟩ <;> decide +kernel

theorem wit_canWrite : live.canWrite 0 (coreBase 0) 8 ∧ live.canWrite 0 (coreBase 1 - 8) 8 ∧ live.canWrite 0 0xEFFC0 64 := by
  refine ⟨⟨Or.inl ?_, ?_⟩, ⟨Or.inl ?_, ?_⟩, ⟨Or.inr ⟨?_, .dram, at_place ?_, ?_⟩, ?_⟩⟩ <;> decide +kernel

/-- A load, a store or an atomic of core 0 that addresses its store through s1. -/
def memWord (op : Nat) : Nat := word op (2 * 2 ^ 51 + 1 * 2 ^ 46)

/-- Its operands meet the hypotheses of ScalarMemoryResults and VectorMemoryResults, s1 at the first byte of the store. -/
theorem wit_ScalarMemoryResults :
    let ch := fun (op : Nat) => withS 1 (coreBase 0) (running (memWord op))
    let w := fun (op : Nat) => BitVec.ofNat 64 (memWord op)
    (∀ op ∈ [0x40, 0x41, 0x42, 0x43, 0x44, 0x45, 0x46, 0x48, 0x49, 0x4A, 0x4B, 0x4C, 0x4D, 0x4E, 0x4F, 0x50, 0x51, 0x52, 0x53, 0x54, 0x55, 0x56, 0x57],
      (ch op).ready 0 (w op) op mScalar = true ∧ effAddr ((ch op).core 0) (w op) = coreBase 0) ∧
    (∀ op ∈ [0x40, 0x46], memFormOk .load (w op) = true ∧ ordered .load (w op) ((ch op).core 0) = true) ∧
    (∀ op ∈ [0x48, 0x4B], memFormOk .store (w op) = true ∧ ordered .store (w op) ((ch op).core 0) = true ∧ fSP (w op) = false) ∧
    (∀ op ∈ [0x4C, 0x4F], memFormOk .atomic (w op) = true ∧ ordered .atomic (w op) ((ch op).core 0) = true) ∧
    live.committedHit (coreBase 0) 8 = false ∧ live.clash (coreBase 0) 8 = none ∧ Memory.wf live.mem = true ∧
    -- the stops: ORD = 3, an address that is not aligned, one that the map refuses
    memFormOk .load (BitVec.ofNat 64 (memWord 0x46 + 3 * 2 ^ 36)) = false ∧ live.wdg.steward = .running ∧ (coreBase 0 + 1) % 8 ≠ 0 ∧
    live.reach 0 (2 ^ 63) 8 = .error cBOUNDS := by
  refine ⟨?_, ?_, ?_, ?_, ?_, ?_, ?_, ?_, ?_, ?_, at_code ?_⟩ <;> decide +kernel

theorem wit_VectorMemoryResults :
    let ch := fun (op : Nat) => withS 1 (coreBase 0) (running (memWord op))
    let w := fun (op : Nat) => BitVec.ofNat 64 (memWord op)
    (∀ op ∈ [0x50, 0x53, 0x54, 0x57, 0x58, 0x59], (ch op).ready 0 (w op) op mVector = true) ∧
    activeLanes 8 (((ch 0x50).core 0).getP (fMP (w 0x50))) = List.range 64 ∧ laneSpan 8 (List.range 64) = (0, 64) ∧
    live.bad (coreBase 0) 64 = false ∧ gatherFormOk (w 0x58) false = true ∧ gatherFormOk (w 0x59) true = true ∧ fSP (w 0x59) = false ∧
    (∀ j ∈ activeLanes 32 (((ch 0x58).core 0).getP 0), let a := (((ch 0x58).core 0).getS 1).toNat + lane (((ch 0x58).core 0).getV 0) 32 j
      a % 4 = 0 ∧ inOwn 0 a 4 = true ∧ (ch 0x59).bad a 4 = false ∧ (ch 0x59).writeCode a 4 = cOK ∧ (ch 0x59).clash a 4 = none) := by
  decide +kernel

/-- Channel 5 of partition 0, from core 0 to core 1, with one message queued, one in flight and a credit on its way. -/
def chanOf (credits : Nat) : Chan :=
  let m : Msg := { payload := List.replicate 64 0 }
  { id := 5, srcCore := 0, dstCore := 1, depth := 4, msgBytes := 64, credits := credits, queue := [m], flight := [m], returning := [(0, 0)] }

/-- Core 0 sends, and core 1 of the mirrored channel receives, with s1 at the own store, with and without a credit or message. -/
theorem wit_MessageResults :
    let w := fun (op : Nat) => word op (1 * 2 ^ 46 + 5)
    let ch := fun (op : Nat) (y : Chan) => { withS 1 (coreBase 0) (running (w op)) with chans := [y] }
    let back := fun (y : Chan) => { y with srcCore := 1, dstCore := 0 }
    (∀ op ∈ [0xE0, 0xE2], ∀ y ∈ [chanOf 1, chanOf 0], (ch op y).ready 0 (BitVec.ofNat 64 (w op)) op (mD ||| mA ||| mIMM) = true ∧
      fIMM (BitVec.ofNat 64 (w op)) = 5 ∧ (ch op y).chan 5 = some y ∧ y.part = (ch op y).partNo 0 ∧ ((ch op y).core 0).posted = [] ∧
      (((ch op y).core 0).getS 1).toNat = coreBase 0 ∧ coreBase 0 % 64 = 0 ∧ coreBase 0 + 64 ≤ coreBase 1 ∧ (ch op y).isFenced 1 = false ∧
      (ch op y).bad (coreBase 0) 64 = false) ∧
    (∀ op ∈ [0xE1, 0xE3], ∀ y ∈ [back (chanOf 1), { back (chanOf 1) with queue := [] }],
      (ch op y).ready 0 (BitVec.ofNat 64 (w op)) op (mD ||| mA ||| mIMM) = true ∧ (ch op y).chan 5 = some y ∧ y.part = (ch op y).partNo 0 ∧
      y.dstCore = 0 ∧ (ch op y).isFenced 1 = false) ∧
    (let x := fun (q : Wait) => live.modCore 0 fun y => { y with state := .waiting, wait := some q }
     ((x (.send 1 5 0 0)).core 0).state = .waiting ∧ ((x (.recv 1 5 0 0)).core 0).wait = some (.recv 1 5 0 0) ∧
     (x (.sync 1 2 0 0)).msgWaitNs 0 ≤ live.time ∧ (x (.anyCompletion 1 0)).streamNs 0 ≤ live.time ∧ live.alive = true ∧
     (live.part 0).inSlot = false) := by decide +kernel

/-- Objects of each kind in a state that the clauses of SyncObjectResults name. -/
theorem wit_SyncObjectResults :
    let w := fun (fn : Nat) => word 0xE4 (2 * 2 ^ 51 + 1 * 2 ^ 46 + fn * 2 ^ 16)
    let ch := fun (fn : Nat) (o : SyncObj) => { withS 1 7 (running (w fn)) with syncs := [o] }
    let obj := fun (kind value : Nat) => ({ obj := 7, kind := kind, value := value, limit := 2 } : SyncObj)
    ∀ fn ∈ List.range 6, ∀ o ∈ [obj kCOUNTER 0xFFFFFFFF, obj kCOUNTER 0, obj kEVENT 1, obj kEVENT 0, obj kBARRIER 0, obj kBARRIER 1,
        obj kMUTEX 0, obj kMUTEX 1, obj kSEQUENCE 0],
      (ch fn o).ready 0 (BitVec.ofNat 64 (w fn)) 0xE4 mSop = true ∧ fFN (BitVec.ofNat 64 (w fn)) = fn ∧ (((ch fn o).core 0).getS 1).toNat = 7 ∧
      (ch fn o).sync 7 = some o ∧ o.part = (ch fn o).partNo 0 ∧ ((ch fn o).core 0).posted = [] ∧ o.waiters = [] ∧
      (ch fn o).heldByFenced o = false ∧ ((ch fn o).part 0).expert = true := by decide +kernel

/-- A free region and a bound one; an open, a doomed and a closed epoch. -/
theorem wit_AppendAndEpochResults :
    let w := word 0xE4 (2 * 2 ^ 51 + 1 * 2 ^ 46)
    let bound : Region := { bound := true, size := 4, committed := 1, gen := 1 }
    let ch := fun (g : Region) => { withS 1 0x400 (running w) with regions := live.regions.set 0 g }
    ((ch {}).ready 0 (BitVec.ofNat 64 w) 0xE4 mSop = true ∧ ((ch {}).region 0).bound = false ∧ ((ch bound).region 0).bound = true ∧
      ((ch bound).region 0).part = (ch bound).partNo 0 ∧ (ch bound).marksIn 0 = 0 ∧ ((ch bound).part 0).expert = true) ∧
    (let e := fun (st : EpochState) => (ch bound).modCore 0 fun x => { x.modEpoch 0 (fun z => { z with state := st }) with epochOrder := [0] }
     ((e .openE).core 0).youngest = some 0 ∧ (((e .openE).core 0).setMark 0 0 2).isSome = true ∧ (((e .doomed).core 0).epoch 0).state = .doomed ∧
     ((live.core 0).epoch 0).state = .closed) := by decide +kernel

/-- A command to a unit that the partition holds; the oldest completion, and none; a built-in SFU function. -/
theorem wit_UnitCommandAndSfuResults :
    let w := word 0xD0 (1 * 2 ^ 46)
    let ch := (running w).modCore 0 fun x => x.setV 1 1
    let q : Completion := { unit := 0, tag := 3 }
    ch.ready 0 (BitVec.ofNat 64 w) 0xD0 (mA ||| mB ||| mUNIT) = true ∧ unitListed 0 = true ∧ (ch.core 0).outst.length < 32 ∧
    ch.unitAbsent 0 = false ∧ ch.unitHeld 0 0 = true ∧ opListed 0 ((leBytes 64 ((ch.core 0).getV 1).toNat).getD 0 0) = true ∧
    (({ cq := [q], outst := [(0, 3)] } : Core).pop (fun _ => true)).isSome = true ∧
    (({ cq := [q], outst := [(0, 3)] } : Core).pop (fun y => y.tag == 3)).isSome = true ∧
    (({} : PartTables).function false 0).isSome = true ∧ (({} : PartTables).function false 15).isNone = true ∧
    fFMT (BitVec.ofNat 64 (word 0xC0 (fFP32 * 2 ^ 26))) = fFP32 := by decide +kernel

theorem wit_SystemAndFaultResults :
    (let ch := running (word 0xF0 0)
     (ch.core 0).posted = [] ∧ (ch.core 0).dbg.stepping = false) ∧
    illegalWord (BitVec.ofNat 64 (word 0x1D 0)) = true ∧
    (let at' := fun (f : Core → Core) => (running 0).modCore 0 f
     let pc := fun (n : Nat) => at' fun x => { x with pc := n }
     ((pc 4).core 0).pc % 8 ≠ 0 ∧ (pc 4).canIssue 0 = true ∧ ((pc 4).core 0).breakAt = none ∧ 8 * ((pc 8).core 0).image.length ≤ ((pc 8).core 0).pc ∧
     ((at' fun x => { x with badCode := [0] }).core 0).badCode.contains (lineOf 0) = true ∧
     ((at' fun x => { x with dbg := { x.dbg with en := true, bkpt := [2 ^ 63, 0, 0, 0] } }).core 0).breakAt = some 0 ∧
     ((at' fun x => { x with wdgPeriod := 5 }).core 0).active = true ∧ (at' fun x => { x with wdgPeriod := 5 }).alive = true) ∧
    (let r : Remote := { id := 3, kind := .store 0, link := ownChip, code := cPERM }
     let ch := { (running 0).modCore 0 (fun x => { x with posted := [{ id := 3 }] }) with remotes := [r] }
     ch.remote 3 = some r ∧ (ch.core 0).posted.find? (fun y => y.id == 3) = some { id := 3 }) := by decide +kernel

/-! ## Units -/

/-- A command of core 0 for a unit: 64 bytes, 0 but for those listed. -/
def cmdOf (unit : Nat) (l : List (Nat × Nat)) : UnitCmd := { id := 1, unit := unit, bytes := l.foldl (fun b e => b.set e.1 e.2) (List.replicate 64 0) }

/-- Every unit finds its oldest command: the selector, the operations of its rows, the command's UNIT. -/
theorem wit_Takes : ∀ x ∈ [(forArray 0, 0, [1, 2, 3]), (forSfu 0, 2, [1, 2, 3]), (forSe 0, 1, [1, 2, 3, 4, 5, 6, 7, 8, 0x10, 0x20, 0x21, 0x22]),
      (forCu 0, 0x10, [1, 2, 3, 4, 5, 6, 7, 8, 9, 10, 0x10, 0x11]), (forTe 0, 0x18, [1, 2, 3, 4, 5]), (forLnu 0, 0x20, [1, 2])],
    ∀ op ∈ x.2.2, let u := cmdOf x.2.1 [(0, op)]
      let ch := { live with arriving := [u] }
      ch.arriving.find? x.1 = some u ∧ u.op = op ∧ ch.storesDone u = true ∧ ch.unitFenced u = false ∧ (ch.pod 0).arrq.length < 64 := by decide +kernel

/-- LOAD_ACC and CLAIM of a stream context, a coder unit and a tree engine pass their checks. -/
theorem wit_check_ok : loadAccCheck (cmdOf 0 [(0, 3), (5, fFP32), (8, 1), (10, 1), (20, 64)]) true = cOK ∧
    mmaCheck (cmdOf 0 [(0, 1), (4, 0), (5, fINT8), (8, 1), (10, 1), (12, 1)]) false = cOK ∧
    ((live.ctx 0 0).state == .free) = true ∧ (live.cu 0).owner = none ∧ (live.te 0).owner = none := by decide +kernel

/-- The units of partition 0 work, and a slot holds them. -/
theorem wit_unitsGo : live.unitsGo (live.podPart 0) = true ∧ live.unitsGo (live.podPart 7) = true ∧ live.unitsGo (live.partNo 0) = true ∧
    live.podPart 0 = 0 ∧ (live.modPart 0 fun q => { q with slots := [{ begun := true }] }).unitsGo 0 = false := by decide +kernel

/-- Commands of the array queue that may begin, on banks of each kind, and ones that have begun. -/
theorem wit_ArrayResults :
    let u := fun (op b4 : Nat) => cmdOf 0 [(0, op), (4, b4), (5, if op = 1 then fINT8 else fINT32), (8, 1), (10, 2), (12, if op = 1 then 1 else 0), (20, 64)]
    let ch := fun (x : UnitCmd) (begun : Bool) (st : BankState) => live.modPod 0 fun y => { y with arrq := [(x, begun)], bank0 := { state := st } }
    (∀ x ∈ [u 1 0, u 1 2, u 2 0, u 2 2, u 3 0], ∀ st ∈ [BankState.empty, .int32, .fp32], ((ch x false st).pod 0).nextCmd x.onMac = some x) ∧
    (∀ x ∈ [u 1 0, u 2 0, u 3 0], (((ch x true .int32).pod 0).arrq.find? fun q => q.2 && q.1.onMac == x.onMac) = some (x, true) ∧ x.le 10 2 ≤ 512) ∧
    Sparse.wf [(1, 5), (7, 2)] = true ∧ (∀ r ∈ mmaReads (u 1 0), live.bad (podBase 0 + r.1) r.2 = false) ∧
    8 ≤ fmtWidth (bitsOf ((u 2 0).byte 5) 0 4) ∧ elemBytes (bitsOf ((u 2 0).byte 5) 0 4) 2 ≤ (u 2 0).le 20 4 ∧
    (∀ o ∈ drainVectors (u 2 0), live.bad (podBase 0 + (u 2 0).le o 4) 4 = false) ∧ live.badWrite (podBase 0) 8 = false ∧
    ((u 2 0).byte 12 = 0 ∧ bitOf ((u 2 0).byte 4) 1 = false ∧ bitOf ((u 2 0).byte 7) 7 = false) ∧ (u 1 0).chain = 0 := by decide +kernel

/-- A row command whose last line has tokens; NaNs, infinities and the limits of EXP. -/
theorem wit_RowAndFunctionResults :
    let u := cmdOf 2 [(0, 1), (5, fFP32 + 16 * fFP32), (6, 1), (8, 1)]
    let ch := live.modCore 0 fun x => { x with rowq := [u] }
    (ch.core 0).rowq = [u] ∧ (ch.affords 0 (ch.core 0).rowPaid (Chip.rowsRun u 0 {} (RowCmd.of u) (RowCmd.of u).rows 0 ch 0).1 = true) ∧
    isNan32 0x7F800001 = true ∧ isNan32 0xFFFFFFFF = true ∧ isNan32 inf32 = false ∧ isNan32 ninf32 = false ∧ lt32 0x42B20000 0x42B20000 = false ∧
    lt32 0xC2D00000 0xC2D00000 = false := by decide +kernel

theorem wit_SoftmaxModesAgree : let x := RowCmd.of (cmdOf 2 [(0, 1), (5, fFP32 + 16 * fFP32), (6, 1), (9, 16)])
    x.n = 4096 ∧ (List.replicate 4096 one32).length = x.n ∧ ∀ v ∈ [one32, nan32], v < 2 ^ 32 := by decide +kernel

/-- A context of core 0 that is held, with work queued, begun, pending for the ring, and a chain whose stages may start. -/
theorem wit_StreamResults :
    let run := cmdOf 1 [(0, 3)]
    let ch := fun (f : SeCtx → SeCtx) => live.modCtx 0 0 fun x => f { x with state := .idle }
    (ch id).ctxCheck 0 run false = cOK ∧ (ch id).ctxCheck 0 (cmdOf 1 [(0, 2)]) true = cOK ∧ (cmdOf 1 [(0, 2)]).zero 8 63 = true ∧
    ((ch fun x => { x with q := [.run run false] }).ctx 0 0).next = some (.run run false) ∧
    ((ch fun x => { x with q := [.swap run] }).ctx 0 0).next = some (.swap run) ∧
    (let y := (ch fun x => { x with q := [.run run false] })
     y.affords 0 (y.ctx 0 0).paid (y.beginWork 0 [] (.run run false) cOK (List.replicate 64 0) 0).1 = true ∧
     y.affords 0 [] (y.descWrite 0 0 [] (List.replicate 64 0) []).1 = true) ∧
    ((ch fun x => { x with begun := [{ item := .run run true }] }).ctx 0 0).begun = [{ item := .run run true }] ∧
    (ch id).streamNs 0 ≤ live.time ∧ ((ch id).ctx 0 0).state ≠ .error ∧
    (((ch fun x => { x with q := [.ring run 9], ringN := 8 }).ctx 0 0).q.filterMap fun it => match it with
      | .ring _ k => some k
      | _ => none).find? (fun j => !((ch id).ctx 0 0).fetched.any fun e => e.1 == j) = some 9 := by decide +kernel

theorem wit_ChainAndCarouselResults :
    let r := fun (st dn : List Nat) => ({ cmd := cmdOf 1 [(0, 0x10), (5, 0x1F), (8, 4), (12, 2)], started := st, done := dn } : ChainRun)
    ((r [0, 0, 0, 0, 0] [0, 0, 0, 0, 0]).ready 0 = true ∧ (r [1, 0, 0, 0, 0] [1, 0, 0, 0, 0]).ready 1 = true ∧
      (r [2, 2, 0, 0, 0] [2, 2, 0, 0, 0]).ready 2 = true ∧ (r [2, 2, 1, 0, 0] [2, 2, 1, 0, 0]).ready 3 = true ∧
      (r [2, 2, 1, 1, 0] [2, 2, 1, 1, 0]).ready 4 = true) ∧
    (live.time % 1000 = 0 ∧ live.parts.length = 8 ∧ (live.part 0).isDefined = true) ∧
    (let u := cmdOf 1 [(0, 0x20), (8, 0x40), (16, 2), (20, 0), (24, 64), (28, 64)]
     let ch := { live with mem := [(0x41, 1)], arriving := [u] }
     u.flagsOk = true ∧ u.byte 16 = 2 ∧ u.zero 17 19 = true ∧ u.zero 32 63 = true ∧ u.le 28 4 = 64 ∧ ch.usable 0 (u.le 8 8) 2 = cOK ∧
     (ch.uread 0 [] (u.le 8 8) 2).2 = (cOK, [0, 1]) ∧ ch.partNo 1 = 0 ∧ overlaps 0 64 64 64 = false ∧
     Memory.wf ch.mem = true) ∧
    (let x : Carousel := { armed := true, ring := [0, 1], slot1 := 64, bytes := 64, last := [some 1, some 1], done := [(0, 1)], moving := [(1, 0)] }
     x.ring.contains 0 = true ∧ x.ring.idxOf 0 = 0 ∧ x.may 1 0 = true ∧ (1, 1) ∉ x.moving ∧ x.moving.contains (1, 0) = true ∧
     live.clash (coreBase 1) 64 = none) := by decide +kernel

/-- Every command of a coder unit passes its checks, with a session of the kind that it needs. -/
theorem wit_CoderCommandsAccepted : ∀ x ∈ [(2, SessState.closed, []), (3, .closed, [(16, 64)]), (4, .enc, [(16, 1)]), (5, .enc, [(16, 1)]),
      (6, .enc, []), (7, .closed, [(16, 4)]), (8, .dec, [(16, 1)]), (9, .dec, [(16, 1)]), (10, .dec, []), (0x10, .closed, [(5, 1), (32, 64)]),
      (0x11, .closed, [(16, 64)])],
    let u := cmdOf 0x10 ((0, x.1) :: x.2.2)
    let ch := { live.modCu 0 (fun y => { y with owner := some 0, sess := y.sess.set 0 { state := x.2.1, len := 64, pos := 4 } }) with arriving := [u] }
    ch.arriving.find? (forCu 0) = some u ∧ u.op = x.1 ∧ ch.storesDone u = true ∧ ch.unitFenced u = false ∧
    ({ ch with arriving := [] } : Chip).cuCheck 0 u = cOK ∧ (ch.cu 0).stateCode u = cOK := by decide +kernel

/-- A coder unit of core 0 with an open session of each kind. -/
theorem wit_CoderCommandResults :
    let u := fun (op : Nat) => cmdOf 0x10 [(0, op)]
    let ch := fun (op : Nat) (st : SessState) => live.modCu 0 fun y => { y with owner := some 0, q := [u op], sess := y.sess.set 0 { state := st, len := 64, pos := 64 } }
    (∀ x ∈ [(2, SessState.closed), (3, .closed), (4, .enc), (5, .enc), (6, .enc), (7, .closed), (8, .dec), (9, .dec), (10, .dec), (0x10, .closed), (0x11, .closed)],
      ((ch x.1 x.2).cu 0).q = [u x.1] ∧ ((ch x.1 x.2).cu 0).ownCode (u x.1) = cOK ∧ ((ch x.1 x.2).cu 0).stateCode (u x.1) = cOK ∧
      ((ch x.1 x.2).cu 0).paid = [] ∧ ((ch x.1 x.2).part 0).tokRead = 4096) ∧
    (ch 7 .closed).cu 0 ≠ live.cu 0 ∧ (live.cu 0).sess.length = 8 := by decide +kernel

/-- A distribution of R598's form, a table that two identities share, and a frame whose lengths are at their bounds. -/
theorem wit_CoderRoundTrip :
    let d : Dist := { cdf := fun i => [0, 16384, 65535].getD i 0, bins := 3, ident := (0, 0, 0) }
    2 ≤ d.bins ∧ d.bins ≤ 256 ∧ d.cdf 0 = 0 ∧ d.cdf 2 ≤ 65535 ∧ (∀ i, i < 2 → d.cdf i < d.cdf (i + 1)) ∧
    (∀ n ∈ [4, 16777152], 4 ≤ n ∧ n ≤ 16777152) ∧
    (let f := sealedFrame ((List.replicate 24 0).set 8 3) [4] [1, 2, 3, 4]
     f.length = 36 ∧ checkHead (f.take 24) 36 = none ∧ checkLens (f.take 28) 36 = none ∧ checkBody f (List.replicate 8 0) = none) := by decide +kernel

/-- A session whose one speculated symbol is what its decoder returns. -/
theorem wit_RunaheadIsInvisible :
    let tab : CoderTable := { id := 3, bins := 2, body := [0, 0, 0, 128] }
    let t : PartTables := { coder := [tab] }
    let rd := fun (_ : Nat) => (.ok 0 : Except Nat Nat)
    let ses : Session := { state := .dec, range := 0xFFFFFFFF, pos := 4, len := 8, depth := 1 }
    (t.coder.map fun x => x.id).Nodup ∧ ∃ d, identDist t (3, 0, 0) = some d ∧ (decodeSym rd d ses.code ses.range ses.pos).toOption.isSome = true := by
  refine ⟨by decide +kernel, _, rfl, ?_⟩
  decide +kernel

/-- An image of one tree of one leaf: the smallest that passes the check, and one that does not. -/
def image : List Nat :=
  let b := [(0, 0x41), (1, 0x4D), (2, 0x5A), (3, 0x54), (4, 1), (6, 1), (8, 1), (12, 1), (16, 1), (19, 1), (194, 1)]
  b.foldl (fun l e => l.set e.1 e.2) (List.replicate 208 0)

theorem wit_ResidentModelsNeverStop : imageCheck image = none ∧ (∀ v ∈ image, v < 256) ∧ imageCheck (image.set 194 0) = some 0 ∧
    imageCheck (image.set 0 0) = some 0xFFFFFFFF := by decide +kernel

theorem wit_TreeCommandResults :
    let u := cmdOf 0x18 [(0, 3), (16, 208)]
    let ch := { live.modTe 0 (fun y => { y with owner := some 0, q := [u] }) with
      mem := Memory.write [] 0 image }
    (ch.te 0).q = [u] ∧ (ch.te 0).ownCode u = cOK ∧ (ch.te 0).paid = [] ∧
    (ch.uread 0 [] (u.le 8 8) (u.le 16 4)).2.1 = cOK ∧ imageCheck (ch.uread 0 [] (u.le 8 8) (u.le 16 4)).2.2 = none ∧
    (let v := cmdOf 0x18 [(0, 4), (16, 1), (20, 4)]
     let resident := ch.modTe 0 fun y => { y with store := Memory.write [] 0 image }
     v.streamed = false ∧ resident.modelRange 0 v 128 = cOK ∧ (TreeHead.of (Memory.bytes (resident.te 0).store 0 128)).ok = true ∧
       resident.teRanges 0 v (TreeHead.of (Memory.bytes (resident.te 0).store 0 128)) none = cOK) := by decide +kernel

/-! ## Links and twins -/

/-- The chip with link `n` changed. -/
def linked (n : Nat) (f : Link → Link) : Chip := live.modLink n f

set_option maxRecDepth 100000 in
/-- A good flit that comes next, a good idle one, one out of order and one that is corrupt. -/
theorem wit_flits :
    let next := ({ typ := 1, seq := 0, payload := [1, 2, 3] } : Flit).bytes 0 false
    let idle := ({ typ := 0 } : Flit).bytes 0 false
    let l := (linked 1 fun l => { l with state := .up }).link 1
    leAt next 252 4 = crc32 (next.take 252) ∧ leAt next 0 1 = 1 ∧ leAt next 1 1 = (l.rxLast + 1) % 256 ∧ bitOf (leAt next 3 1) 0 = false ∧
    leAt idle 252 4 = crc32 (idle.take 252) ∧ leAt idle 0 1 = 0 ∧ bitOf (leAt idle 3 1) 0 = false ∧
    leAt (({ typ := 1, seq := 2 } : Flit).bytes 0 false) 1 1 ≠ (l.rxLast + 1) % 256 ∧
    leAt (next.set 5 9) 252 4 ≠ crc32 ((next.set 5 9).take 252) ∧ l.waiting = [] ∧ l.nakSent = false := by decide +kernel

theorem wit_LinkLayerResults :
    let up := fun (f : Link → Link) => linked 1 fun l => f { l with state := .up }
    (up id).alive = true ∧ ((up id).link 1).state = .up ∧ (0 % 256 = (((up id).link 1).rxLast + 1) % 256) ∧ ((up id).link 1).unacked < 15 ∧
    (∃ f ∈ ((up fun l => { l with held := [{}] }).link 1).held, f.sent + 1000 ≤ live.time) ∧
    ((up id).link 1).episode < (up id).loader.linkReplayMax ∧
    (let x := up fun l => { l with episode := 8, recent := 3, upSince := 999999000 }
     x.loader.linkReplayMax ≤ (x.link 1).episode ∧ x.loader.linkRetrainMax ≤ (x.link 1).retrainsNow x.time) ∧
    ((linked 1 fun l => { l with state := .retraining }).link 1).state = .retraining ∧
    (linked 1 fun l => { l with state := .training }).identityOk 1 0 ((wired .st4 0 1).map Prod.fst |>.getD 0) ((wired .st4 0 1).map Prod.snd |>.getD 0) 0 = true ∧
    (let x := { linked 0 (fun l => { l with state := .down }) with time := 2000000000 }
     x.stwRuns = true ∧ (x.link 0).downSince + 1000000000 ≤ x.time ∧ x.mayTrain 0 = true) ∧
    live.regAbsent (.link 5) 4 = false ∧ live.pwr.state ≠ .idle ∧ live.takesFrom agSB = true := by decide +kernel

/-- Partition 0 has the tray's peer behind link 1 in window 1; profile 2 belongs to link 1. -/
def peered : Chip :=
  (linked 1 fun l => { l with state := .up }).modPart 0 fun q => { q with
    plate := { q.plate with peer0 := (wired .st4 0 1).map Prod.fst |>.getD 0, linkMask := 2 }
    tables := { q.tables with narrow := [{ id := 2, link := 1, channels := 1 }] }
    lnu := [(2, [{}])] }

theorem wit_RemoteRequestResults :
    peered.servesFor 1 0 1 = true ∧ peered.servesFor 1 0 0 = false ∧ (peered.farAddr 0 0x100 8).toOption = some 0x100 ∧
    codeOf (peered.farAddr 0 0x100000 8) = some cBOUNDS ∧ peered.bad 0x100 8 = false ∧ peered.writeCode 0x100 8 = cOK ∧
    peered.clash 0x100 8 = none ∧
    (let r : Remote := { id := 3, kind := .load 0 1 8 false, link := 1 }
     let ch := { peered.modCore 0 (fun x => { x with state := .waiting, wait := some (.remote 3 0) }) with remotes := [r] }
     ch.remote 3 = some r ∧ (ch.core 0).wait = some (.remote 3 0) ∧ (ch.core 0).dbg.en = false ∧ r.since + ch.msgWaitNs r.part ≤ ch.time ∧
     r.behind = 0 ∧ (ch.part r.part).inSlot = false ∧ ch.linkBusy 1 = false) ∧
    (let u := fun (op : Nat) => cmdOf 0x21 [(0, op), (4, 2)]
     let ch := fun (op : Nat) => { peered with arriving := [u op] }
     ∀ op ∈ [1, 2], (ch op).arriving.find? (forLnu 1) = some (u op) ∧ (ch op).unitFenced (u op) = false ∧ ((ch op).lnuProfile 1 (u op)).isSome = true ∧
       (u op).flagsOk = true ∧ (u op).zero 5 63 = true ∧ (ch op).usable 0 ((u op).le 8 8) 16 = cOK ∧ ((ch op).part 0).lnu.lookup 2 = some [{}]) := by
  decide +kernel

/-- Partition 0 protected, the pair in the state given. -/
def twinned (mode : Nat) (pair : PairState) : Chip :=
  { live with
    loader := { live.loader with state := .loaded, twinMode := mode, protectedMask := 1 }
    twin := { live.twin with pair := pair }
    links := live.links.modify 0 fun l => { l with state := .up } }

theorem wit_TwinPairResults :
    let ch := twinned mSTANDBY .pairing
    let mine := ch.pairMsg
    let m : PairMsg := { mine with parts := [(1000, 2, 0)] }
    (ch.twin.pair = .pairing ∧ mine.mode = m.mode ∧ mine.twinPlate = m.baseId ∧ m.twinPlate = mine.baseId ∧ mine.parts.length = m.parts.length ∧
      (∀ e ∈ mine.parts.zip m.parts, e.1.1 = e.2.1 ∧ ((e.1.2.1 = 2) ↔ ¬ (e.2.2.1 = 2))) ∧ m.index.length = ch.protectedList.length ∧
      ch.twin.parts.length = 8) ∧
    mine.mode ≠ ({ m with mode := mPROOF } : PairMsg).mode ∧ ch.linkUp 0 = true ∧ 0 < ch.links.length ∧
    (twinned mSTANDBY .paired).bound = true ∧ (twinned mSTANDBY .paired).twin.hbTime + 20000000 ≤ live.time ∧
    0 ∈ (twinned mSTANDBY .paired).protectedList ∧ ((twinned mSTANDBY .paired).tp 0).active = false ∧
    ((twinned mSTANDBY .paired).tp 0).trigger = none ∧ (twinned mPROOF .paired).twin.detaching = none ∧
    (twinned mPROOF .detached).alive = true ∧ (twinned mPROOF .detached).twin.hbSent = none ∧ live.ler.bootCount = 0 ∧
    (let x := { twinned mSTANDBY .degraded with time := 20000000000, twin := { (twinned mSTANDBY .degraded).twin with hbAge := 10000 } }
     x.twin.hbSince + 10000000000 ≤ x.time ∧ x.twin.resetFor ≠ some x.twin.hbBoot ∧ 10000 ≤ x.sbAge) := by decide +kernel

theorem wit_ProofResults :
    let ch := (twinned mPROOF .paired).modTp 0 fun t => { t with proofAddr := 0x100, proofLen := 1 }
    ch.mayTwinPart agSB 0 = true ∧ ch.takesFrom agSB = true ∧ 0 < ch.variant.maxParts ∧ (ch.tp 0).slots.length = 8 ∧ ch.proves 0 = true ∧
    live.proves 0 = false ∧ (ch.slot 0 7).outcome = .empty ∧ (ch.reach 0 0x100 1).toOption.map Place.isLocal = some true ∧
    ch.holdsEvent 0 5 = false ∧ ({ ch with syncs := [{ obj := 5, kind := kEVENT }] } : Chip).holdsEvent 0 5 = true ∧
    (let x := ch.modTp 0 fun t => { t with slots := t.slots.set 7 { outcome := .pending, posting := true, addr := 0x100, post := { len := 1 }, mine := some {} } }
     (x.slot 0 7).outcome = .pending ∧ (x.uread 0 [] 0x100 1).2.1 = cOK ∧ x.affords 0 [] (x.uread 0 [] 0x100 1).1 = true ∧ (x.slot 0 7).mine = some {}) ∧
    (let y := (ch.modTp 0 fun t => { t with kept := [(3, {})], keptIndex := 4 }).modPart 0 fun q => { q with running := true, deadline := 1000200000 }
     (y.tp 0).keptIndex ≠ (y.part 0).workIndex ∧ (y.tp 0).kept.lookup 3 = some {} ∧ (y.part 0).deadline ≤ y.time + 200000) := by decide +kernel

theorem wit_StandbyResults :
    let ch := twinned mSTANDBY .paired
    ch.protected 0 = true ∧ (ch.tp 0).active = false ∧ bitOf 1 0 = true ∧ ((ch.modTp 0 fun t => { t with copy := some {} }).tp 0).copy = some {} ∧
    ch.affords 0 [] ((ch.payLines 0 0 1).payLines 0 2 0) = true ∧ ch.alive = true ∧ ch.linkUp 0 = true ∧
    ((ch.modPart 0 fun q => { q with fallback := [{}] }).part 0).fallback ≠ [] := by decide +kernel

/-! ## Recovery, watchdogs, ticks -/

theorem wit_RecoveryResults :
    let ch := fun (f : Core → Core) => live.modCore 8 f
    live.wdg.steward = .running ∧ ((ch fun x => { x with recover := true, faultRun := 2 }).core 8).faultRun < 3 ∧ live.partNo 8 = 0 ∧ live.partNo 63 = 255 ∧
    3 ≤ ((ch fun x => { x with recover := true, faultRun := 3 }).core 8).faultRun ∧ (live.part 0).halted = false ∧
    ((ch fun x => { x with reclaimed := true, state := .fenced }).core 8).state = .fenced ∧
    ((live.modPart 0 fun q => { q with recovering := true }).part 0).recovering = true ∧ live.cores.length = 64 := by decide +kernel

theorem wit_FenceAndFatalResults :
    (∀ x ∈ [(0, 7), (1, 63), (2, 3), (3, 1), (4, 5)], (FenceUnit.of x.1 x.2).isSome = true) ∧ live.hasUnit (.pod 7) = true ∧ live.hasUnit (.lnu 5) = true ∧
    (live.unitFence (.te 1)).1 = false ∧ ((live.setFence (.cu 3) true [] false).unitFence (.cu 3)).1 = true ∧ live.wdg.fatalHalt = false ∧
    7 < live.variant.stacks ∧ live.regAbsent (.core 63) 0x10 = false ∧ live.pwr.state = .active ∧ live.takesFrom agSTEWARD = true := by decide +kernel

theorem wit_WatchdogResults :
    let w := fun (f : Watchdogs → Watchdogs) => { live with wdg := f live.wdg }
    (w fun x => { x with stwLeft := 0 }).wdg.stwLeft = 0 ∧ (w fun x => { x with steward := .restarting }).wdg.steward = .restarting ∧
    live.boot.stage = .running ∧ live.wdg.locked = false ∧ 100 ≤ bitsOf 100 0 14 ∧ bitsOf 10000 0 14 ≤ 10000 ∧
    (w fun x => { x with left := 0 }).wdg.stage2 = false ∧ (w fun x => { x with left := 0, stage2 := true }).wdg.left = 0 ∧ live.boot.pendingReset = none ∧
    live.wdg.backup = false ∧ (23999 < 24000 ∧ 40000 < 40001) ∧ (w fun x => { x with steward := .dbgHalted }).wdg.steward = .dbgHalted ∧ live.takesFrom agSB = true := by decide +kernel

theorem wit_TickResults :
    let q := fun (f : Part → Part) => live.modPart 0 f
    let src := fun (n : Nat) (f : Part → Part) => q fun x => f { x with plate := { x.plate with source := n } }
    live.ticks 0 = true ∧ (live.part 0).plate.nextTime (live.part 0).lastStart ≤ live.time ∧ live.nothingNew 0 ∧ live.absorbs 0 = false ∧
    (q fun x => { x with running := true }).absorbs 0 = true ∧ ((src 2 id).part 0).plate.source = 2 ∧
    (∀ i ∈ List.range 8, i ≠ 0 → (src 1 id).ticks i = true → ((src 1 id).part i).plate.source ≠ 1) ∧
    ((src 1 fun x => { x with ticked := true, tickStart := 999500000 }).part 0).ticked = true ∧
    ¬ (4 * 999500000 + 3000 * 1000 ≤ 4 * live.time) ∧ 4 * 999250000 + 3000 * 1000 ≤ 4 * live.time ∧
    (live.part 0).lastStart + 1000 * (1000 + 50) ≤ live.time ∧
    (let r := q fun x => { x with running := true, deadline := 1000000000 }
     (r.part 0).deadline ≤ r.time ∧ r.complete? 0 = true ∧ r.inFlight 0 = false ∧
     (r.modCore 0 fun x => { x with hasCode := true, ended := false }).complete? 0 = false ∧ r.partDebug 0 = false) ∧
    live.regAbsent (.part 0) 0x38 = false ∧ (live.part 0).applyDue = false ∧ (live.part 0).startNow = false ∧
    -- content that has just applied: its first tick is due whatever the last start; a boundary that applies a pending overlay
    (let f := q fun x => { x with fresh := true, tickStart := 999999000 }
     f.ticks 0 = true ∧ (f.part 0).fbPending = false ∧ f.pendingOf 0 = none ∧ (f.part 0).jobs = []) ∧
    (let o := { live with loader := { live.loader with pending := live.loader.pending.set 0 (some {}) } }
     ((o.settleRetires 0).boundary 0 (o.nextIndex 0 none)).2 = true ∧ (o.part 0).running = false) ∧
    (let s := q fun x => { x with slots := slotsFor 1000 4, tickStart := 0 }
     (s.part 0).slots.findIdx? (fun x => !x.begun) = some 0 ∧ (s.part 0).tickStart + ((s.part 0).slots.getD 0 {}).start ≤ s.time ∧
     (slotsFor 250 2).length = 1 ∧ (slotsFor 2000000 25).length = 10000) := by
  refine ⟨?_, ?_, ⟨?_, ?_, ?_⟩, ?_⟩ <;> decide +kernel

/-! ## The plate, power and background work -/

theorem wit_PlateResults :
    live.loader.state.busy = false ∧ live.pwr.state ≠ .idle ∧ ({ live with loader := { live.loader with state := .copying } } : Chip).loader.state.busy = true ∧
    live.bound = false ∧ live.ticksEnded = true ∧ (∀ x ∈ live.cores, x.epochOrder = []) ∧
    (live.modPart 0 fun q => { q with running := true }).ticksEnded = false ∧ live.loader.pending.length = 8 ∧
    live.place 0x1000 64 = some .dram ∧ live.stwRuns = true ∧
    (codeOf (live.validate [])).map PlateErr.code = some cPLATEBAD ∧
    (let s := { live with loader := { live.loader with state := .applying, kind := .starting } }
     s.ticks 0 = true ∧ s.startDue 0 = true ∧ s.loader.kind = .starting ∧ s.pendingOf 0 = none ∧ (s.part 0).fbPending = false ∧
     (s.part 0).jobs = [] ∧ s.defined = [0]) := by decide +kernel

theorem wit_OverlayResults :
    let o : Pending := {}
    let ch := { live with loader := { live.loader with pending := live.loader.pending.set 0 (some o) } }
    (0 < ch.parts.length ∧ ch.ticks 0 = true ∧ ch.startDue 0 = true ∧ (ch.part 0).running = false) ∧
    ch.overlayReady 0 (ch.nextIndex 0 none) = some o ∧
    (let x := live.modPart 0 fun q => { q with fallback := [{}], fbPending := true }
     (x.part 0).fallback = [{}] ∧ x.fallbackReady 0 (x.nextIndex 0 none) = true) ∧
    -- a boundary while a tick runs
    (let r := ch.modPart 0 fun q => { q with running := true }
     r.ticks 0 = true ∧ r.startDue 0 = true ∧ (r.part 0).running = true ∧ (r.overlayReady 0 (r.nextIndex 0 none)).isSome = true) := by decide +kernel

theorem wit_PowerResults :
    let p := fun (f : Power → Power) => { live with pwr := f live.pwr }
    live.takesFrom agSB = true ∧ live.wdg.steward = .running ∧ live.decisions = [] ∧ 8 ≤ live.parts.length ∧
    ({ live with wdg := { live.wdg with steward := .restarting } } : Chip).takesFrom agSB = true ∧
    (p fun x => { x with held := some (60, 600, 0) }).pwr.held = some (60, 600, 0) ∧ 0 + 10000000 ≤ live.time ∧ live.fcRuns = true ∧
    live.pwr.throttled = false ∧ live.pwr.needFallback = [] ∧
    ((p fun x => { x with needFallback := [0], acceptedAt := 0 }).pwr.needFallback ≠ []) ∧
    (let i := { live with loader := { live.loader with state := .loaded } }
     i.pwr.autoIdle = true ∧ i.idleOk = true ∧ 0 + i.pwr.idleDelay * 1000000 ≤ i.time) ∧
    live.sleepBusy = false ∧ (p fun x => { x with held := some (60, 600, 0) }).sleepBusy = true ∧ live.ticksEnded = true ∧
    (p fun x => { x with state := .enteringStandby }).alive = true ∧ (p fun x => { x with state := .exiting }).linkGiven 1 = false ∧
    (let q : Chip := live.modPart 0 fun y => { y with jobs := [{ cycles := 1000000 }] }
     (q.part 0).plate.rt = true ∧ ¬ ((q.part 0).admUs ≤ (q.part 0).plate.budget ∧ (q.part 0).admCycles ≤ ((q.part 0).plate.budget - (q.part 0).admUs) * 600)) := by decide +kernel

theorem wit_BackgroundResults :
    live.alive = true ∧ live.pwr.state = .active ∧ live.bgPod 7 = true ∧ live.stwRuns = true ∧ live.pods.length = 8 ∧
    ((linked 5 fun l => { l with state := .up }).link 5).state = .up ∧ lineOf 0x17F = 0x140 := by decide +kernel

/-! ## The record, the side-band, the registers -/

theorem wit_EventsAreNeverLost :
    let full : Record := { fifo := List.replicate 480 { entry := { id := 9 }, recorded := true, buffered := true } }
    full.fifo.length = 480 ∧ full.sums.length = 4 ∧ (∀ i ∈ full.fifo, i.entry.reps < 0xFFFF) ∧ full.foldable = none ∧
    (full.raise { id := 1, cls := 2 }).fifo.length = 480 ∧ (full.raise { id := 1, cls := 3 }).fifo.length = 481 ∧
    ({} : Record).foldable = none ∧ ({} : Record).sums.all Option.isNone = true := by decide +kernel

theorem wit_RecordResults :
    let r := fun (f : Record → Record) => { live with ler := f live.ler }
    let f : Frame := { entries := [{}], flags := 1, sequence := 1 }
    (r fun x => { x with filling := [{}] }).ler.filling ≠ [] ∧ live.ler.closed = none ∧ 0 + bitsOf live.ler.lerCfg 8 8 * 10000000 ≤ live.time ∧
    (r fun x => { x with writing := some (4095, f) }).ler.writing = some (4095, f) ∧ live.ler.writing = none ∧ live.boot.stage ≠ .reset ∧
    (r fun x => { x with fatals := [{ cls := 3 }] }).ler.fatals = [{ cls := 3 }] ∧
    (r fun x => { x with fifo := [{}] }).ler.fifo.findIdx? (fun x => !x.forwarded) = some 0 ∧
    ({ r (fun x => { x with mram := [(4095, .frame f)] }) with boot := { live.boot with stage := .lerScan } } : Chip).atStage .lerScan = true ∧
    (r fun x => { x with mram := [(4095, .frame f)] }).ler.frames.getLast? = some (4095, f) ∧
    (r fun x => { x with mram := [(4095, .frame f)] }).ler.mram.lookup 4095 = some (.frame f) ∧ live.ler.sealWrites = 0 := by decide +kernel

theorem wit_SideBandAndRegisterResults :
    live.alive = true ∧ (Chip.reset .ha720 0).alive = false ∧ live.boot.pendingReset = none ∧ live.boot.stage ≠ .reset ∧
    (live.regWrite agSB 2 4 0).2 = cALIGN ∧ blockOf 0xFFFFF8 = none ∧ blockOf 0x60018 ≠ none ∧ (live.regWrite agSB 0xFFFFF8 8 0).2 = cBOUNDS ∧
    live.wide .chip 0x20 = true ∧ live.agentUp agSB = true ∧ live.takesFrom 0 = true ∧ (live.regLog.all fun w => w.at' != live.time) = true ∧ regRank agPF < regRank agTAP ∧ regRank agTAP < regRank agSB ∧ 0x40 + live.boot.straps = 0x40 ∧ live.regAbsent (.pod 0) 0x1010 = false ∧
    ({ live with pwr := { live.pwr with state := .idle } } : Chip).takesFrom agSB = true := by decide +kernel

/-! ## The host interface -/

/-- The PF answers; partition 0's rings of 8 entries are enabled, with the fields given. -/
def hosted (f : Rings → Rings) : Chip :=
  { live with
    boot := { live.boot with pcie := .up }
    host := { live.host with
      fns := live.host.fns.set 0 { bme := true, mem := true }
      rings := live.host.rings.set 0 (f { en := 15, sizes := 3 + 3 * 2 ^ 12 + 3 * 2 ^ 20 }) } }

theorem wit_DoorbellAndRefusalResults :
    let ch := hosted id
    ch.fnAnswers 0 = true ∧ 0 < ch.variant.maxParts ∧ ch.ownerFn 0 = 0 ∧ ((ch.leaveIdle.ring 0).cplProd < 2 ^ 32) ∧
    (let v := { ch with host := { ch.host with vfEnable := true, numVfs := 1 } }
     v.ownerFn 0 = 1 ∧ v.fnAnswers 1 = false ∧ v.fnAnswers 0 = true) ∧
    0xFFFFFC + 4 ≤ ch.barSize 0 0 ∧ ch.hostCode 0 0 0xFFFFFC 4 false 0 ≠ cOK ∧ ch.hostCode 0 0 0xFFFFFC 4 true 0 ≠ cOK ∧
    ch.barSize 0 1 < 0 + 4 ∧ live.fnAnswers 0 = false := by decide +kernel

theorem wit_Bar4AndEndpointResults :
    let ch := hosted id
    (ch.fnAnswers 0 = true ∧ 0 + 8 ≤ 2 ^ ch.host.pfBar4 ∧ (ch.leaveIdle.bar4Addr 0 0 8).toOption = some 0 ∧ ch.leaveIdle.writeCode 0 8 = cOK ∧
      Memory.wf ch.mem = true ∧ codeOf (ch.leaveIdle.bar4Addr 0 0xF0000 8) = some cBOUNDS) ∧
    (ch.alive = true ∧ ch.boot.pcie = .up ∧ ch.host.fns.length = 9) ∧
    (let v := { ch with host := { ch.host with vfEnable := true, numVfs := 8 } }
     v.host.vfEnable = true ∧ 8 ≤ v.host.numVfs) ∧
    (let t := { ch with boot := { ch.boot with pcie := .training } }
     t.boot.pcie = .training ∧ t.boot.pcieFirst = false ∧ (tray t).port.perst = false) ∧
    ({ tray ch with port := { perst := true } } : State).port.perst = true ∧
    (let r : Remote := { id := 1, link := noLink }
     ({ ch with remotes := [r] } : Chip).remote 1 = some r) := by decide +kernel

theorem wit_CommandRingResults :
    (let ch := hosted fun r => { r with cmdTail := 1 }
     let r := ch.ring 0
     ch.alive = true ∧ r.on 0 = true ∧ r.bad 0 = false ∧ r.blocked = false ∧ r.fetched = [] ∧ (r.cmdTail + 2 ^ 32 - r.cmdCons % 2 ^ 32) % 2 ^ 32 ≠ 0 ∧
     ch.busMaster (ch.ownerFn 0) = true ∧ ({ ch with host := { ch.host with fns := live.host.fns } } : Chip).busMaster 0 = false) ∧
    (∀ op ∈ List.range 5, (hosted fun r => { r with fetched := [{ opcode := op, bytes := List.replicate 64 0 }] }).frontCmd 0 =
      some { opcode := op, bytes := List.replicate 64 0 }) ∧
    (let x : HostCmd := { opcode := 1, bytes := List.replicate 64 0 }
     let ch := { hosted id with decisions := [.admission 0 x] }
     ch.stwRuns = true ∧ ch.decisions = [.admission 0 x] ∧ live.decisions = [] ∧ ch.takesCmds 0 = true ∧ ch.frontCmd 0 = none ∧
     (ch.modPart 0 fun q => { q with isDefined := false }).takesCmds 0 = false ∧ x.bad = false ∧ ({ x with opcode := 5 } : HostCmd).bad = true) := by
  decide +kernel

theorem wit_CompletionResults :
    let ch := hosted id
    (ch.ring 0).on 1 = true ∧ (ch.ring 0).waiting = [] ∧ (ch.ring 0).cplSpace = true ∧ ch.busMaster (ch.ownerFn 0) = true ∧ ch.time < 2 ^ 64 ∧
    (live.ring 0).on 1 = false ∧ 0 < live.host.rings.length ∧ ((hosted fun r => { r with cplProd := 8 }).ring 0).cplSpace = false ∧
    (let v : Vector := { fn := 0, vec := 0, last := 999999999, deferred := true }
     v.last + 1000 * 1 > ch.time ∧ v.last + 1000 * (ch.ring 0).cplMod ≤ ch.time) := by decide +kernel

theorem wit_MailboxResults :
    let m := fun (service : Nat) => { hosted id with mbox := { req := Memory.write [] 0 (leBytes 2 service ++ [0, 0, 7, 0, 0, 0, 0, 0]) } }
    (m 1).takesFrom agPF = true ∧ (m 1).wdg.steward = .running ∧ (m 1).mbox.busy = false ∧
    (∀ service ∈ [1, 0x10, 0x11, 0x20, 0x21, 0x30], (m service).mbox.service = service) ∧
    (∃ service ∈ List.range 0x40, (m service).mbox.valid = true) ∧ (∃ service ∈ List.range 0x40, (m service).mbox.valid = false) ∧
    live.takesFrom agSB = true := by decide +kernel

/-! ## Start-up and reset, the debugger -/

theorem wit_BootResults :
    let at' := fun (st : Stage) => { live with boot := { live.boot with stage := st } }
    (∀ st ∈ [Stage.reset, .fwRead, .waitRelease, .hbmTrain, .selfTest, .lerScan, .ready], (at' st).atStage st = true) ∧
    (at' .reset).ler.writing = none ∧ (at' .waitRelease).takesFrom agSB = true ∧ 0xB0 / 16 % 16 ≠ 12 ∧ 0xF1 / 16 % 16 ≠ 14 ∧ 0xC0 / 16 % 16 = 12 ∧
    (at' .waitRelease).boot.since + 500000000 ≤ live.time ∧ (at' .ready).boot.raised = false ∧
    ({ at' .fwRead with boot := { (at' .fwRead).boot with granted := true } } : Chip).boot.granted = true := by decide +kernel

theorem wit_ResetResults :
    let p := fun (k : ResetKind) => { live with boot := { live.boot with pendingReset := some k } }
    (∀ k ∈ [ResetKind.warm, .cold, .sideband, .pin, .watchdog, .twin], (p k).alive = true ∧ (p k).boot.pendingReset = some k ∧ (p k).sealed k = true) ∧
    (let off := { live with pwr := { live.pwr with armed := true } }
     off.pwr.powerGood = true ∧ off.pwr.armed = true ∧ off.alive = false) ∧
    live.pwr.pwrFail = false ∧ ({ live with pwr := { live.pwr with pwrFail := true } } : Chip).pwr.pwrFail = true ∧
    (let r := { live with boot := { live.boot with stage := .reset }, ler := { live.ler with writing := some (7, {}) } }
     r.alive = true ∧ r.boot.stage = .reset ∧ r.ler.writing.isSome = true) := by decide +kernel

theorem wit_DebugResults :
    isPfSb agSB = true ∧ isSb agSB = true ∧ 63 < live.cores.length ∧ live.regAbsent (.core 63) 0x100 = false ∧ live.unitAsleep (.core 63) = false ∧
    ((running 0).core 0).state = .running ∧ (live.core 0).state = .halted ∧
    (let x := live.modCore 0 fun y => { y with dbg := { y.dbg with maddr := coreBase 0 } }
     coreBase 0 ≤ (x.core 0).dbg.maddr ∧ (x.core 0).dbg.maddr + 8 ≤ coreBase 1 ∧ x.leaveIdle.writeCode (coreBase 0) 8 = cOK ∧
     x.clash (coreBase 0) 8 = none ∧ x.leaveIdle.readCode (coreBase 0) 8 = cOK) ∧
    live.takesFrom agTAP = true ∧ live.tapIn = true ∧ (Chip.reset .ha720 0).tapIn = false ∧
    (live.tapScan (some 0x11) 5 0).tap.ir = 0x11 ∧ (live.tapScan (some 0x55) 5 0).tap.ir = 0xFF ∧ (live.tapScan none 5 0).tap.ir = live.tap.ir ∧
    (live.tapScan (some 0x10) (0x60018 + 2 ^ 32) 0).tap.dbgWrite = true := by decide +kernel

/-! ## The management protocol and the TMC -/

/-- The TMC runs, session 0 is open with the role given, and chip 0 is live. -/
def managed (role : Nat) : State :=
  (tray live).modTmc fun t => { t with up := true, uptime := 60000000000, sessions := t.sessions.set 0 { isOpen := true, role := role, last := 1 } }

theorem wit_SessionResults :
    ((managed 0).up ∧ ((managed 0).session 0).isOpen = true ∧ ((managed 0).session 3).isOpen = false) ∧
    ((managed 0).session 0).last + 30000000000 ≤ (managed 0).tmc.uptime ∧ ((managed 0).session 0).role = 0 ∧ ((managed 1).session 0).role ≠ 0 ∧
    (managed 0).tmc.sessions.length = 4 ∧ ((managed 0).session 0).challenge = none ∧ mgmtTypes.contains 0x7E = false ∧
    (managed 0).tmc.beatAt + 5000000000 ≤ (managed 0).tmc.uptime := by
  refine ⟨⟨rfl, ?_⟩, ?_⟩ <;> decide +kernel

theorem wit_RequestResults :
    (managed 2).mayAsk 0 true ∧ (managed 1).mayAsk 0 false ∧ (managed 2).chips.length = 4 ∧
    (let s := (managed 2).modTmc fun t => { t with lease := some 1 }
     s.tmc.lease = some 1) ∧
    (managed 1).tmc.lease = none ∧
    (let l : List Nat := [3, 7]
     l.length = 2 ∧ l.getD 0 0 < 4 ∧ l.getD 1 0 < 8) ∧
    (let l : List Nat := [3, 15, 0xFF, 0x0F]
     l.length = 4 ∧ 1 ≤ l.getD 1 0 ∧ l.getD 1 0 ≤ 15 ∧ leAt l 2 2 < 4096) ∧
    (let l : List Nat := [1, 1, 0, 0, 0xFF, 0xFF, 0x3F, 0, 5]
     9 ≤ l.length ∧ l.getD 1 0 < 2 ∧ leAt l 4 4 + (l.length - 8) ≤ 0x400000) ∧
    (List.replicate 4096 0).length = 4096 := by
  refine ⟨⟨rfl, ?_⟩, ⟨rfl, ?_⟩, ?_⟩ <;> decide +kernel

theorem wit_TrayWorkResults :
    let s := managed 2
    s.live = [0] ∧ s.raiseWaits (s.targets 760 1) = false ∧ (s.divide 760 1).2 = none ∧ Memory.wf s.tmc.flash = true ∧
    (s.chip 0).offerable = true ∧ (s.offerAll [(0, 60)]).2 = none ∧ (s.offerAll [(0, 61)]).2 = some 0 ∧
    (s.flashAct 0x50 [0, 0, 0, 0, 0, 0, 0, 0, 1]).2 = cPERM ∧ (s.flashAct 0x50 [1, 1, 0, 0, 0, 0, 0, 0, 1]).2 = cOK := by decide +kernel

theorem wit_TmcOperationResults :
    let s := managed 2
    s.tmc.sleeping = false ∧ s.maskChips 1 = [0] ∧ s.tmc.pwrFail = false ∧ s.leaving 1 = false ∧ (s.chip 1).pwr.rails = false ∧
    (s.tmc.watch.getD 1 {}).failed = false ∧
    (let n := s.live.length + 1
     let cap := min (min s.tmc.hostCap s.tmc.mgmtCap) (min s.tmc.thermal (s.fanLimit n))
     s.trayType.allowance + 60 * n ≤ cap ∧ ((s.targets cap n).all fun x => !(x.2 < (s.chip x.1).pwr.share)) = true) ∧
    ((s.modTmc fun t => { t with mgmtCap := 260 }).trayType.allowance + 60 * 2 > 260) ∧ s.tmc.waits.all (fun w => !w.active 1) = true ∧
    (let d := { s with chips := s.chips.set 0 { live with pwr := { live.pwr with state := .dormantEntry } } }
     (d.modTmc fun t => { t with dormant := 1 }).leaving 0 = true) ∧
    ((s.modChip 1 fun ch => { ch with pwr := { ch.pwr with rails := true } }).chip 1).pwr.powerGood = false ∧
    ((s.modChip 0 fun ch => { ch with boot := { ch.boot with stage := .waitRelease } }).chip 0).stageNow = 3 ∧
    (s.modTmc fun t => { t with holder := some 0 }).tmc.holder = some 0 := by decide +kernel

theorem wit_TmcWatchResults :
    let s := managed 2
    s.tmc.dormant.testBit 0 = false ∧ 0 < s.tmc.watch.length ∧ 4 ≤ (s.chip 0).stageNow ∧ (s.chip 0).stageNow ≠ 0x0F ∧ (s.chip 0).pwr.rails = true ∧
    (s.chip 0).takesFrom agSB = true ∧ ((s.modChip 0 fun ch => { ch with ler := { ch.ler with fatals := [{}] } }).chip 0).ler.fatals = [{}] ∧
    (s.modTmc fun t => { t with pwrFail := true, goodSince := some 0 }).tmc.pwrFail = true ∧ 0 + 100000000 ≤ s.tmc.uptime ∧
    0 < s.trayType.fans ∧ s.tmc.fanFault.testBit 0 = false ∧
    (let h := s.modChip 0 fun ch => { ch with pwr := { ch.pwr with dieTemp := 95 * 16 } }
     (∃ c ∈ h.live, (h.chip c).alive = true ∧ 95 * 16 ≤ sgn 16 (h.chip c).pwr.dieTemp)) ∧
    (∀ c ∈ s.live, (s.chip c).alive = true → sgn 16 (s.chip c).pwr.dieTemp ≤ 85 * 16) ∧ s.tmc.thermalAt + 10000000000 ≤ s.tmc.uptime ∧
    (let t := s.modTmc fun t => { t with hotSince := some 0 }
     t.tmc.hotSince = some 0 ∧ 0 + 10000000000 ≤ t.tmc.uptime) ∧ s.tmc.inlet ≤ 25 * 16 := by decide +kernel

/-! ## The machine as a whole -/

/-- Instructions that core 0 has retired after a command of the tray. -/
def retiredAfter (i : Instr) (s : State) : Option Nat :=
  match exec i s with
  | .next t => t.chips[0]?.map fun ch => (ch.core 0).retired
  | _ => none

/-- Core 0 retires an instruction of each kind that writes a register: add, pand, vadd. -/
theorem wit_RegisterInstructionFrame :
    let w := fun (op : Nat) => word op (1 * 2 ^ 51)
    (retiredAfter (.add 0 0 (BitVec.ofNat 64 (w 0x01))) (tray (running (w 0x01))) = some 1 ∧ retiredAfter (.pand 0 0 (BitVec.ofNat 64 (w 0xA0))) (tray (running (w 0xA0))) = some 1) ∧
    retiredAfter (.vadd 0 0 (BitVec.ofNat 64 (w 0x60))) (tray (running (w 0x60))) = some 1 := by decide +kernel

theorem wit_invariants : State.reset.inv = true ∧ (∀ ch ∈ State.reset.chips, Memory.wf ch.mem = true) ∧ State.reset.pending = [] ∧
    (managed 2).inv = true := by decide +kernel

/-! ## WellFormed: a term that each check refuses -/

/-- A chip, a core, a partition, a session and an agent out of range, bytes, masks, types, sequences and values too wide, the word of another
opcode and of another sop function; and the same commands within their ranges. -/
theorem test_wf :
    (Instr.tickComplete 4 0).wf = false ∧ (Instr.tickComplete 3 8).wf = false ∧ (Instr.tickComplete 3 7).wf = true ∧
    (Instr.fetchFault 0 64).wf = false ∧ (Instr.fetchFault 0 63).wf = true ∧
    (Instr.mgmtBadFrame 4 []).wf = false ∧ (Instr.mgmtBadFrame 3 [256]).wf = false ∧ (Instr.mgmtBadFrame 3 [255]).wf = true ∧
    (Instr.flitReceive 0 1 0 (List.replicate 255 0)).wf = false ∧ (Instr.flitReceive 0 1 3 (List.replicate 256 0)).wf = true ∧
    (Instr.hello 0 (2 ^ 32) []).wf = false ∧ (Instr.hello 0 0 [256]).wf = false ∧ (Instr.hello 3 (2 ^ 32 - 1) [255]).wf = true ∧
    (Instr.mgmtUnknownType 0 0 256 0).wf = false ∧ (Instr.flashSwitchRequest 256).wf = false ∧ (Instr.flashSwitchRequest 255).wf = true ∧
    (Instr.registerWrite 0 256 0 4 0).wf = false ∧ (Instr.registerWrite 0 0 0 4 (2 ^ 64)).wf = false ∧ (Instr.registerWrite 0 255 0 4 0).wf = true ∧
    (Instr.remoteResponse 0 0 0 [256]).wf = false := by decide +kernel

theorem test_wf_word : (Instr.add 0 0 (BitVec.ofNat 64 (word 0x02 0))).wf = false ∧ (Instr.add 0 0 (BitVec.ofNat 64 (word 0x01 0))).wf = true ∧
    (Instr.sopPost 0 0 (BitVec.ofNat 64 (word 0xE4 0))).wf = false ∧ (Instr.sopPost 0 0 (BitVec.ofNat 64 (word 0xE4 (2 ^ 16)))).wf = true := by decide +kernel

/-! ## Values the spec writes out, or that follow from its tables by hand -/

/-- Core 0 after one command of a tray whose chip is `ch`. -/
def core0After (i : Instr) (ch : Chip) : Core :=
  match exec i (tray ch) with
  | .next t => ((t.chips.getD 0 ch).core 0)
  | _ => {}

/-- Arithmetic wraps modulo 2^64 (R314): all ones plus 1, with the source as destination. -/
theorem test_add_wraps :
    let w := word 0x01 (1 * 2 ^ 51 + 1 * 2 ^ 46 + 2 * 2 ^ 41)
    (core0After (.add 0 0 (BitVec.ofNat 64 w)) (withS 2 1 (withS 1 (2 ^ 64 - 1) (running w)))).getS 1 = 0 := by decide +kernel

/-- -2^63 divided by -1 gives -2^63, and anything divided by 0 all ones (R315). -/
theorem test_div_corners :
    let w := word 0x06 (3 * 2 ^ 51 + 1 * 2 ^ 46 + 2 * 2 ^ 41)
    (core0After (.div 0 0 (BitVec.ofNat 64 w)) (withS 2 (2 ^ 64 - 1) (withS 1 (2 ^ 63) (running w)))).getS 3 = BitVec.ofNat 64 (2 ^ 63) ∧
    (core0After (.div 0 0 (BitVec.ofNat 64 w)) (withS 1 5 (running w))).getS 3 = BitVec.allOnes 64 := by decide +kernel

/-- jal with OFF = -1 at PC 0 goes to 2^18 - 8 and leaves 8 in sD (R316). -/
theorem test_jal_wraps :
    let w := word 0x36 (5 * 2 ^ 51 + 0xFFFFFFFF)
    let x := core0After (.jal 0 0 (BitVec.ofNat 64 w)) (running w)
    x.pc = 2 ^ 18 - 8 ∧ x.getS 5 = 8 := by decide +kernel

/-- vadd of 8-bit lanes: lane 0 wraps and lane 1 is not carried into (R312, R327). -/
theorem test_vadd_lanes :
    let w := word 0x60 (3 * 2 ^ 51 + 1 * 2 ^ 46 + 2 * 2 ^ 41)
    let ch := (running w).modCore 0 fun x => (x.setV 1 0x01FF).setV 2 0x0101
    (core0After (.vadd 0 0 (BitVec.ofNat 64 w)) ch).getV 3 = 0x0200 := by decide +kernel

/-- 1 + 2^-24 in FP32 is a tie that RNE sends to 1, with NX (R263, R264); 0 / 0 is the canonical NaN with NV (R261). -/
theorem test_fp32 : finish fFP32 rmRNE (addFl rmRNE (decodeFl fFP32 0x3F800000) (decodeFl fFP32 0x33800000)) = (0x3F800000, 16) ∧
    finish fFP32 rmRNE (divFl (decodeFl fFP32 0) (decodeFl fFP32 0)) = (0x7FC00000, 1) := by decide +kernel

/-- The range coder codes two symbols into 5 bytes and gives them back (R596, R597). -/
theorem test_coder :
    let d : Dist := { cdf := fun i => [0, 32768].getD i 0, bins := 2, ident := (0, 0, 0) }
    let s : Session := { state := .enc, range := 0xFFFFFFFF }
    let a := s.encode d 1
    let b := a.1.encode d 0
    let bytes := a.2 ++ b.2 ++ b.1.flush
    let rd := fun (i : Nat) => (.ok (bytes.getD i 0) : Except Nat Nat)
    (decodeSym rd d (beNat (bytes.take 4)) 0xFFFFFFFF 4).toOption.map (fun x => x.1) = some 1 := by decide +kernel

/-- The check value of the CRC-32 of R669, with polynomial 0x04C11DB7. -/
theorem test_crc32 : crc32 [0x31, 0x32, 0x33, 0x34, 0x35, 0x36, 0x37, 0x38, 0x39] = 0xCBF43926 := by decide +kernel

/-- The check value of the CRC-64 of R729. -/
theorem test_crc64 : crc64 [0x31, 0x32, 0x33, 0x34, 0x35, 0x36, 0x37, 0x38, 0x39] = 0x6C40DF5F0B497347 := by decide +kernel

/-- Rows of the table of R881, and a share below every row. -/
theorem test_fc : Variant.ha720.fcOf 150 = some 1400 ∧ Variant.ha720.fcOf 60 = some 600 ∧ Variant.ha720.fcOf 55 = none ∧ Variant.ha708.fcOf 80 = some 1400 := by
  decide +kernel

/-- A period of 1,000 us with 4 percent has one slot of 40 us that ends at the deadline of 950 us (R843). -/
theorem test_slots : (slotsFor 1000 4).map (fun x => (x.start, x.stop)) = [(910000, 950000)] := by decide +kernel

/-- The register map (R964): PWR.CFG and STEWARD.HEARTBEAT's block stand where it says, and a gap stands in no block. -/
theorem test_blocks : blockOf 0x60018 = some (.pwr, 0x18) ∧ (blockOf 0x300000).isSome = true ∧ blockOf 0xFFFFF8 = none := by decide +kernel

/-- A command for a chip that the tray does not hold is the model's one fault. -/
theorem test_no_chip : (match exec (.bgStep 4) State.reset with | .fault (.noSuchChip c) => c == 4 | _ => false) = true := by decide +kernel

/-- On an empty queue a nanosecond passes, on a queue its front runs. -/
theorem test_step : (match step { tray live with pending := [] } with | .next t => (t.chip 0).time == 1000000001 | _ => false) = true ∧
    (match step { tray live with pending := [.bgStep 0, .bgStep 1] } with | .next t => t.pending == [.bgStep 1] | _ => false) = true := by decide +kernel

end Sys2Proof.Tests
end

/-! SUPPORT. What the operations on the management sessions do, and what each command of a session does to an open one (R60 to R68). -/
namespace Sys2Proof.Machine

/-! ### Commands that a running TMC performs -/

/-- A command that a running TMC performs does its effect. -/
theorem tmcRow_up {s : State} (h : s.up) (g : State → State) : tmcRow g s = .next (g s).trayWork := by
  have hup : s.tmc.up = true := h
  simp [tmcRow, trayRow, hup]

/-- To say what a command of the TMC does: a condition under which it runs, and its effect there. -/
theorem does_of_tmcRow {i : Instr} {cond : State → Prop} {f : State → State} (g : State → State) (hi : ∀ s, exec i s = tmcRow g s)
    (hup : ∀ s, cond s → s.up) (hf : ∀ s, cond s → g s = f s) : Does i cond f := fun s h => by
  rw [hi s, tmcRow_up (hup s h), hf s h]

/-! ### Sessions -/

/-- The TMC runs and session `n` is open. -/
def State.opened (s : State) (n : Nat) : Prop := s.up ∧ (s.session n).isOpen = true

/-- Session `n` has been closed: it is free, the lease it held is free, the client's connection is closed, and no chip has changed. -/
def State.closedTo (s : State) (n : Nat) (s' : State) : Prop :=
  s'.tmc.sessions = s.tmc.sessions.modify n (fun _ => {}) ∧ s'.tmc.lease = (if s.tmc.lease = some n then none else s.tmc.lease) ∧
  s'.tmc.out = .mgmtClose n :: s.tmc.out ∧ s'.chips = s.chips

/-- An open session is one that the TMC holds. -/
theorem State.lt_length_of_isOpen {s : State} {n : Nat} (h : (s.session n).isOpen = true) : n < s.tmc.sessions.length := by
  refine Nat.lt_of_not_le fun hn => ?_
  have hnone : s.session n = {} := by simp only [State.session, List.getD_eq_getElem?_getD, List.getElem?_eq_none hn, Option.getD_none]
  rw [hnone] at h
  exact Bool.noConfusion h

/-- A session that the TMC holds after it has changed. -/
theorem State.session_modSession {s : State} {n : Nat} (h : n < s.tmc.sessions.length) (f : Mgmt → Mgmt) :
    (s.modSession n f).session n = f (s.session n) := by
  simp [State.session, State.modSession, State.modTmc, h]

/-- What closing a session leaves. -/
theorem State.closeSession_closedTo (s : State) (n : Nat) : s.closedTo n (s.closeSession n) := by
  refine ⟨rfl, ?_, rfl, rfl⟩
  simp [State.closeSession, State.emit, State.modSession, State.modTmc]

/-- A session that the TMC holds after it has been closed. -/
theorem State.session_closeSession {s : State} {n : Nat} (h : n < s.tmc.sessions.length) : (s.closeSession n).session n = {} :=
  State.session_modSession h fun _ => {}

/-- An answer on one of the four sessions is sent, and nothing else happens. -/
theorem State.reply_of_lt {n : Nat} (h : n < 4) (s : State) (typ status seq : Nat) (bytes : List Nat) :
    s.reply n typ status seq bytes = s.emit (.mgmt n (mgmtFrame typ 1 status seq bytes)) := if_pos h

/-! ### Connections and frames (R60 to R62, R68) -/

/-- The session that a connection takes: the lowest free one. -/
theorem find_free_session {s : State} {n : Nat} (hn : n < 4) (hfree : (s.session n).isOpen = false)
    (hlow : ∀ m, m < n → (s.session m).isOpen = true) : ((List.range 4).find? fun m => !(s.session m).isOpen) = some n := by
  rw [List.find?_range_eq_some]
  exact ⟨by simp [hfree], by simpa using hn, fun m hm => by simp [hlow m hm]⟩

/-- A connection takes the lowest free session (R60). -/
theorem mgmtConnect_lowest_free {s : State} {n : Nat} (hup : s.up) (hn : n < 4) (hfree : (s.session n).isOpen = false)
    (hlow : ∀ m, m < n → (s.session m).isOpen = true) :
    exec .mgmtConnect s = .next (s.modSession n fun _ => { isOpen := true, last := s.tmc.uptime }).trayWork := by
  change execMgmtConnect s = _
  rw [execMgmtConnect, tmcRow_up hup, find_free_session hn hfree hlow]

/-- A fifth connection is closed (R60). -/
theorem mgmtConnect_full {s : State} (hup : s.up) (hall : ∀ n, n < 4 → (s.session n).isOpen = true) :
    exec .mgmtConnect s = .next (s.emit (.mgmtClose 4)).trayWork := by
  have hnone : ((List.range 4).find? fun m => !(s.session m).isOpen) = none := by
    rw [List.find?_range_eq_none]
    exact fun m hm => by simp [hall m hm]
  change execMgmtConnect s = _
  rw [execMgmtConnect, tmcRow_up hup, hnone]

/-- What makes a frame bad (R60, R61). -/
theorem frameBad_iff (b : List Nat) : frameBad b = true ↔
    b.take 4 ≠ [0x53, 0x54, 0x4D, 0x50] ∨ b.getD 4 0 ≠ 1 ∨ 65536 < leAt b 12 4 ∨ b.length ≠ 20 + leAt b 12 4 ∨
      crc32c (b.take (16 + leAt b 12 4)) ≠ leAt b (16 + leAt b 12 4) 4 := by
  simp only [frameBad, Bool.or_eq_true, bne_iff_ne, decide_eq_true_eq, or_assoc]

/-- A bad frame closes its session (R61). -/
theorem mgmtBadFrame_bad (n : Nat) {b : List Nat} (h : frameBad b = true) :
    Does (.mgmtBadFrame n b) (State.opened · n) fun s => s.closeSession n :=
  does_of_tmcRow _ (fun _ => rfl) (fun _ ho => ho.1) fun s ho => by simp [ho.2, h]

/-- A good frame is none of the bad ones. -/
theorem mgmtBadFrame_good (n : Nat) {b : List Nat} (h : frameBad b = false) : Does (.mgmtBadFrame n b) (State.opened · n) id :=
  does_of_tmcRow _ (fun _ => rfl) (fun _ ho => ho.1) fun s _ => by simp [h]

/-- 30 s without a frame close a session (R68). -/
theorem mgmtSessionTimeout_due (n : Nat) :
    Does (.mgmtSessionTimeout n) (fun s => s.opened n ∧ (s.session n).last + 30000000000 ≤ s.tmc.uptime) fun s => s.closeSession n :=
  does_of_tmcRow _ (fun _ => rfl) (fun _ h => h.1.1) fun s ⟨ho, hlast⟩ => by simp [ho.2, hlast]

/-- A request of an unlisted type is one that needs no OPERATOR and whose payload is never admitted. -/
theorem exec_mgmtUnknownType {typ : Nat} (h : mgmtTypes.contains typ = false) (n seq len : Nat) (s : State) :
    exec (.mgmtUnknownType n seq typ len) s = .next (s.request n seq typ len false false id).trayWork := by
  change execMgmtUnknownType n seq typ len s = _
  simp only [execMgmtUnknownType, h, Bool.false_eq_true, if_false]
  rfl

/-- A request that is too long closes its session (R61). -/
theorem State.request_tooLong {s : State} {n len : Nat} (ho : s.opened n) (hlen : 65536 < len) (seq typ : Nat) (operator ok : Bool)
    (act : State → State) : s.request n seq typ len operator ok act = s.closeSession n := by
  obtain ⟨hup, hopen⟩ := ho
  have hup : s.tmc.up = true := hup
  simp [State.request, hup, hopen, hlen]

/-- A reading request with a payload that is not admitted is answered with BOUNDS (R71). -/
theorem State.request_notAdmitted {s : State} {n len : Nat} (ho : s.opened n) (hrole : (s.session n).role ≠ 0) (hlen : len ≤ 65536)
    (seq typ : Nat) (act : State → State) :
    s.request n seq typ len false false act = (s.heard n).reply n typ cBOUNDS seq [] := by
  obtain ⟨hup, hopen⟩ := ho
  have hup : s.tmc.up = true := hup
  simp [State.request, hup, hopen, hrole, Nat.not_lt.2 hlen, State.heard]

/-! ### HELLO and AUTH (R63, R66) -/

/-- A HELLO that no frame can carry closes the session (R61). -/
theorem hello_tooLong (n seq : Nat) {p : List Nat} (hp : 65536 < p.length) :
    Does (.hello n seq p) (State.opened · n) fun s => s.closeSession n :=
  does_of_tmcRow _ (fun _ => rfl) (fun _ ho => ho.1) fun s ho => by simp [ho.2, hp]

/-- HELLO on an authenticated session is answered with BUSY (R63). -/
theorem hello_authenticated (n seq : Nat) {p : List Nat} (hp : p.length ≤ 65536) :
    Does (.hello n seq p) (fun s => s.opened n ∧ (s.session n).role ≠ 0) fun s => (s.heard n).reply n 1 cBUSY seq [] :=
  does_of_tmcRow _ (fun _ => rfl) (fun _ h => h.1.1) fun s ⟨ho, hrole⟩ => by simp [ho.2, hrole, Nat.not_lt.2 hp, State.heard]

/-- HELLO with a payload is answered with BOUNDS (R71). -/
theorem hello_withPayload (n seq : Nat) {p : List Nat} (hne : p ≠ []) (hp : p.length ≤ 65536) :
    Does (.hello n seq p) (fun s => s.opened n ∧ (s.session n).role = 0) fun s => (s.heard n).reply n 1 cBOUNDS seq [] :=
  does_of_tmcRow _ (fun _ => rfl) (fun _ h => h.1.1) fun s ⟨ho, hrole⟩ => by simp [ho.2, hrole, hne, Nat.not_lt.2 hp, State.heard]

/-- HELLO gives the session a new challenge in place of any earlier one (R63). -/
theorem hello_challenge (n seq : Nat) :
    Does (.hello n seq []) (fun s => s.opened n ∧ (s.session n).role = 0) fun s =>
      (((s.heard n).modSession n fun e => { e with challenge := some s.tmc.challenges }).modTmc fun t => { t with challenges := s.tmc.challenges + 1 }).reply
        n 1 cOK seq (leBytes 48 (Config.challenge s.tmc.challenges)) :=
  does_of_tmcRow _ (fun _ => rfl) (fun _ h => h.1.1) fun s ⟨ho, hrole⟩ => by
    simp [ho.2, hrole, State.heard, State.modSession, State.modTmc, challengeBytes]

/-- An AUTH that no frame can carry closes the session (R61). -/
theorem auth_tooLong (n seq : Nat) {p : List Nat} (hp : 65536 < p.length) :
    Does (.auth n seq p) (State.opened · n) fun s => s.closeSession n :=
  does_of_tmcRow _ (fun _ => rfl) (fun _ ho => ho.1) fun s ho => by simp [ho.2, hp]

/-- AUTH on an authenticated session is answered with BUSY (R63). -/
theorem auth_authenticated (n seq : Nat) {p : List Nat} (hp : p.length ≤ 65536) :
    Does (.auth n seq p) (fun s => s.opened n ∧ (s.session n).role ≠ 0) fun s => (s.heard n).reply n 2 cBUSY seq [] :=
  does_of_tmcRow _ (fun _ => rfl) (fun _ h => h.1.1) fun s ⟨ho, hrole⟩ => by simp [ho.2, hrole, Nat.not_lt.2 hp, State.heard]

/-- The AUTH with payload `p` succeeds on session `n`: the session holds a challenge, and the payload names a key that is not empty and
carries that key's signature of it. -/
def State.authVerifies (s : State) (n : Nat) (p : List Nat) : Prop :=
  ∃ i, (s.session n).challenge = some i ∧ p.length = 97 ∧ p.getD 0 0 < 8 ∧ s.cfg (112 + 104 * p.getD 0 0) 1 ≠ 0 ∧
    ecdsaOk (sliceB s.tmc.config (116 + 104 * p.getD 0 0) 97) (sha384 (leBytes 48 (Config.challenge i))) (p.drop 1) = true

/-- The code that refuses an AUTH (R63). -/
def State.authRefusal (s : State) (n : Nat) (p : List Nat) : Nat :=
  if (s.session n).challenge = none then cPERM else if p.length ≠ 97 ∨ 8 ≤ p.getD 0 0 then cBOUNDS else cPERM

/-- A refusal of an AUTH is never OK. -/
theorem State.authRefusal_ne_cOK (s : State) (n : Nat) (p : List Nat) : s.authRefusal n p ≠ cOK := by
  unfold State.authRefusal
  split
  · decide
  · split <;> decide

/-- An AUTH that succeeds gives the role of its key. -/
theorem State.authCode_of_verifies {s : State} {n : Nat} {p : List Nat} (h : s.authVerifies n p) :
    s.authCode (s.session n).challenge p = (cOK, s.cfg (112 + 104 * p.getD 0 0) 1) := by
  obtain ⟨i, hi, hlen, hk, hrole, hsig⟩ := h
  rw [show 116 + 104 * p.getD 0 0 = 112 + 104 * p.getD 0 0 + 4 by omega] at hsig
  have hform : (p.length != 97 || decide (8 ≤ p.getD 0 0)) = false := by simp [hlen, Nat.not_le.2 hk, -List.getD_eq_getElem?_getD]
  have hkey : (s.cfg (112 + 104 * p.getD 0 0) 1 == 0) = false := beq_false_of_ne hrole
  simp only [State.authCode, hi, hform, hkey, challengeBytes, hsig, Bool.not_true, Bool.or_self, Bool.false_eq_true, if_false]

/-- An AUTH that does not succeed is refused with its code, and gives no role. -/
theorem State.authCode_of_not_verifies {s : State} {n : Nat} {p : List Nat} (h : ¬ s.authVerifies n p) :
    s.authCode (s.session n).challenge p = (s.authRefusal n p, 0) := by
  cases hi : (s.session n).challenge with
  | none => simp [State.authCode, State.authRefusal, hi]
  | some i =>
    by_cases hform : p.length ≠ 97 ∨ 8 ≤ p.getD 0 0
    · have hform' : (p.length != 97 || decide (8 ≤ p.getD 0 0)) = true := by simpa only [Bool.or_eq_true, bne_iff_ne, decide_eq_true_eq]
      simp only [State.authCode, State.authRefusal, hi, hform', hform, if_true, reduceCtorEq, if_false]
    · have hform' : (p.length != 97 || decide (8 ≤ p.getD 0 0)) = false := by
        simpa only [← Bool.not_eq_true, Bool.or_eq_true, bne_iff_ne, decide_eq_true_eq]
      have hlen : p.length = 97 := Decidable.not_not.1 fun hne => hform (.inl hne)
      have hk : p.getD 0 0 < 8 := Nat.lt_of_not_le fun hle => hform (.inr hle)
      have hkey : (s.cfg (112 + 104 * p.getD 0 0) 1 == 0 ||
          !ecdsaOk (sliceB s.tmc.config (112 + 104 * p.getD 0 0 + 4) 97) (sha384 (challengeBytes i)) (p.drop 1)) = true := by
        rw [show 112 + 104 * p.getD 0 0 + 4 = 116 + 104 * p.getD 0 0 by omega, Bool.or_eq_true, Bool.not_eq_true', beq_iff_eq]
        refine Decidable.or_iff_not_imp_left.2 fun hrole => Bool.eq_false_iff.2 fun hsig => ?_
        exact h ⟨i, hi, hlen, hk, hrole, hsig⟩
      simp only [State.authCode, State.authRefusal, hi, hform', hform, hkey, if_true, reduceCtorEq, Bool.false_eq_true, if_false]

/-- The tray once an AUTH on session `n` is answered with `code`: its challenge is used up, it has `role`, and a refusal is counted. -/
def State.authAnswered (s : State) (n seq code role : Nat) : State :=
  ((s.heard n).modSession n fun e => { e with
    challenge := none, role := role, fails := if code == cOK then e.fails else e.fails + 1 }).reply n 2 code seq []

/-- The answer of an AUTH is sent. -/
theorem State.authAnswered_out {n : Nat} (hn : n < 4) (s : State) (seq code role : Nat) :
    (s.authAnswered n seq code role).tmc.out = .mgmt n (mgmtFrame 2 1 code seq []) :: s.tmc.out := by
  rw [State.authAnswered, State.reply_of_lt hn]
  rfl

/-- The answer of an AUTH leaves the lease. -/
theorem State.authAnswered_lease {n : Nat} (hn : n < 4) (s : State) (seq code role : Nat) :
    (s.authAnswered n seq code role).tmc.lease = s.tmc.lease := by
  rw [State.authAnswered, State.reply_of_lt hn]
  rfl

/-- The answer of an AUTH leaves as many sessions. -/
theorem State.authAnswered_length {n : Nat} (hn : n < 4) (s : State) (seq code role : Nat) :
    (s.authAnswered n seq code role).tmc.sessions.length = s.tmc.sessions.length := by
  rw [State.authAnswered, State.reply_of_lt hn]
  simp [State.emit, State.heard, State.modSession, State.modTmc]

/-- The session after the answer of its AUTH. -/
theorem State.session_authAnswered {s : State} {n : Nat} (hn : n < 4) (h : n < s.tmc.sessions.length) (seq code role : Nat) :
    (s.authAnswered n seq code role).session n = { s.session n with
      last := s.tmc.uptime, challenge := none, role := role,
      fails := if code == cOK then (s.session n).fails else (s.session n).fails + 1 } := by
  have hh : n < (s.heard n).tmc.sessions.length := by simpa [State.heard, State.modSession, State.modTmc] using h
  rw [State.authAnswered, State.reply_of_lt hn]
  change ((s.heard n).modSession n _).session n = _
  rw [State.session_modSession hh, State.heard, State.session_modSession h]

/-- The tray after an AUTH on session `n`: a success as OPERATOR takes a free lease, and a third failure closes the session (R63, R66). -/
def State.authSettled (s : State) (n seq : Nat) (p : List Nat) : State :=
  let r := s.authCode (s.session n).challenge p
  let b := s.authAnswered n seq r.1 r.2
  if r.1 == cOK then (if r.2 == 2 && b.tmc.lease.isNone then b.modTmc fun t => { t with lease := some n } else b)
  else if 3 ≤ (s.session n).fails + 1 then b.closeSession n else b

/-- What AUTH does on a session that has not authenticated. -/
theorem auth_settled (n seq : Nat) {p : List Nat} (hp : p.length ≤ 65536) :
    Does (.auth n seq p) (fun s => s.opened n ∧ (s.session n).role = 0) fun s => s.authSettled n seq p :=
  does_of_tmcRow _ (fun _ => rfl) (fun _ h => h.1.1) fun s ⟨ho, hrole⟩ => by
    simp only [ho.2, hrole, Nat.not_lt.2 hp, Bool.not_true, Bool.false_eq_true, if_false, bne_self_eq_false]
    rfl

/-- An AUTH that succeeds gives the session its key's role, and the lease where it is free and the role is OPERATOR. -/
theorem State.authSettled_of_verifies {s : State} {n : Nat} {p : List Nat} (hn : n < 4) (hlt : n < s.tmc.sessions.length)
    (h : s.authVerifies n p) (seq : Nat) :
    let role := s.cfg (112 + 104 * p.getD 0 0) 1
    let s' := s.authSettled n seq p
    s'.tmc.out = .mgmt n (mgmtFrame 2 1 cOK seq []) :: s.tmc.out ∧
    s'.session n = { s.session n with last := s.tmc.uptime, challenge := none, role := role } ∧
    s'.tmc.lease = (if role = 2 ∧ s.tmc.lease = none then some n else s.tmc.lease) := by
  intro role s'
  have hs' : s' = if role = 2 ∧ s.tmc.lease = none then (s.authAnswered n seq cOK role).modTmc fun t => { t with lease := some n }
      else s.authAnswered n seq cOK role := by
    simp [s', role, State.authSettled, State.authCode_of_verifies h, State.authAnswered_lease hn, -List.getD_eq_getElem?_getD]
  rw [hs']
  split
  · exact ⟨State.authAnswered_out hn s seq cOK role, State.session_authAnswered hn hlt seq cOK role, rfl⟩
  · exact ⟨State.authAnswered_out hn s seq cOK role, State.session_authAnswered hn hlt seq cOK role, State.authAnswered_lease hn s seq cOK role⟩

/-- A failed AUTH before the third is answered with its code, counts, and leaves the session open without a role. -/
theorem State.authSettled_of_failure {s : State} {n : Nat} {p : List Nat} (hn : n < 4) (hlt : n < s.tmc.sessions.length)
    (hrole : (s.session n).role = 0) (h : ¬ s.authVerifies n p) (hfails : (s.session n).fails < 2) (seq : Nat) :
    let s' := s.authSettled n seq p
    s'.tmc.out = .mgmt n (mgmtFrame 2 1 (s.authRefusal n p) seq []) :: s.tmc.out ∧
    s'.session n = { s.session n with last := s.tmc.uptime, challenge := none, fails := (s.session n).fails + 1 } ∧
    s'.tmc.lease = s.tmc.lease := by
  intro s'
  have hcode : (s.authRefusal n p == cOK) = false := beq_false_of_ne (s.authRefusal_ne_cOK n p)
  have hs' : s' = s.authAnswered n seq (s.authRefusal n p) 0 := by
    simp only [s', State.authSettled, State.authCode_of_not_verifies h, hcode, Bool.false_eq_true, if_false]
    exact if_neg (by omega)
  rw [hs']
  refine ⟨State.authAnswered_out hn .., ?_, State.authAnswered_lease hn ..⟩
  rw [State.session_authAnswered hn hlt, hcode, ← hrole]
  rfl

/-- The third failed AUTH is answered with its code, and closes the session. -/
theorem State.authSettled_of_thirdFailure {s : State} {n : Nat} {p : List Nat} (hn : n < 4) (hlt : n < s.tmc.sessions.length)
    (h : ¬ s.authVerifies n p) (hfails : 2 ≤ (s.session n).fails) (seq : Nat) :
    let s' := s.authSettled n seq p
    s'.tmc.out = .mgmtClose n :: .mgmt n (mgmtFrame 2 1 (s.authRefusal n p) seq []) :: s.tmc.out ∧ s'.session n = {} := by
  intro s'
  have hcode : (s.authRefusal n p == cOK) = false := beq_false_of_ne (s.authRefusal_ne_cOK n p)
  have hs' : s' = (s.authAnswered n seq (s.authRefusal n p) 0).closeSession n := by
    simp only [s', State.authSettled, State.authCode_of_not_verifies h, hcode, Bool.false_eq_true, if_false]
    exact if_pos (by omega)
  rw [hs']
  obtain ⟨-, -, hout, -⟩ := (s.authAnswered n seq (s.authRefusal n p) 0).closeSession_closedTo n
  refine ⟨?_, State.session_closeSession ?_⟩
  · rw [hout, State.authAnswered_out hn]
  · rwa [State.authAnswered_length hn]

/-! ### Unsolicited frames (R67) -/

/-- One frame to each of the sessions listed: the chips, the uptime and the frames sent before stay, and each session gets its own. -/
theorem State.forEach_sendTo (typ : Nat) (bytes : List Nat) (l : List Nat) (s : State) :
    let s' := s.forEach l fun n a => a.sendTo n typ bytes
    s'.chips = s.chips ∧ s'.tmc.uptime = s.tmc.uptime ∧ ∃ new, s'.tmc.out = new ++ s.tmc.out ∧ new.length = l.length ∧
      ∀ n ∈ l, ∃ q, .mgmt n (mgmtFrame typ 2 0 q bytes) ∈ new := by
  induction l generalizing s with
  | nil => exact ⟨rfl, rfl, [], rfl, rfl, by simp⟩
  | cons m l ih =>
    obtain ⟨hchips, hup, new, hout, hlen, hmem⟩ := ih (s.sendTo m typ bytes)
    obtain ⟨q, hq⟩ : ∃ q, (s.sendTo m typ bytes).tmc.out = .mgmt m (mgmtFrame typ 2 0 q bytes) :: s.tmc.out := ⟨_, rfl⟩
    refine ⟨hchips, hup, new ++ [.mgmt m (mgmtFrame typ 2 0 q bytes)], ?_, by simp [hlen], ?_⟩
    · rw [List.append_assoc, List.singleton_append, ← hq]
      exact hout
    · intro n hn
      rcases List.mem_cons.1 hn with rfl | hn
      · exact ⟨q, by simp⟩
      · obtain ⟨r, hr⟩ := hmem n hn
        exact ⟨r, List.mem_append_left _ hr⟩

/-- The payload of a HEARTBEAT: TIME of chip 0, 0 while it does not run, and the uptime in ms (R71). -/
def State.beatBytes (s : State) : List Nat :=
  leBytes 8 (if (s.chip 0).alive then (s.chip 0).time else 0) ++ leBytes 8 (s.tmc.uptime / 1000000)

/-- The tray once a HEARTBEAT has gone to each authenticated session. -/
def State.beatSent (s : State) : State :=
  (s.forEach s.authSessions fun n a => a.sendTo n 0x7F s.beatBytes).modTmc fun t => { t with beatAt := t.uptime }

/-- 5 s after the last one a HEARTBEAT is sent (R67). -/
theorem mgmtHeartbeat_due : Does .mgmtHeartbeat (fun s => s.up ∧ s.tmc.beatAt + 5000000000 ≤ s.tmc.uptime) State.beatSent :=
  does_of_tmcRow _ (fun _ => rfl) (fun _ h => h.1) fun _ h => if_pos h.2

/-! ### The statement -/

/-- Settles O50: an equation per command and case, the result of AUTH by whether its signature verifies, and the HEARTBEAT by induction
over the authenticated sessions. -/
theorem sessionResults : Obligations.SessionResults := by
  unfold Obligations.SessionResults
  refine ⟨fun _ hup hall => mgmtConnect_full hup hall, fun _ _ hup hn hfree hlow => mgmtConnect_lowest_free hup hn hfree hlow,
    fun n b => ⟨fun s => s.closeSession n, fun s ⟨ho, hbad⟩ => mgmtBadFrame_bad n ((frameBad_iff b).2 hbad) s ho,
      fun s => s.closeSession_closedTo n⟩,
    fun n _ hgood => mgmtBadFrame_good n hgood,
    fun n => ⟨fun s => s.closeSession n, mgmtSessionTimeout_due n, fun s => s.closeSession_closedTo n⟩,
    fun n seq _ hp => hello_authenticated n seq hp, fun n seq _ hp => ⟨hello_tooLong n seq hp, auth_tooLong n seq hp⟩,
    fun n seq _ hne hp => hello_withPayload n seq hne hp, fun n seq => hello_challenge n seq,
    fun n seq _ hp => auth_authenticated n seq hp, ?auth,
    fun n seq typ len htyp hlen s ho => ?tooLong, fun n seq typ len htyp hlen s ⟨ho, hrole⟩ => ?unlisted,
    State.beatSent, mgmtHeartbeat_due, fun s => ?beat⟩
  case auth =>
    intro n seq p hp
    refine ⟨fun s => s.authSettled n seq p, auth_settled n seq hp, fun s ho hrole hfour => ?_⟩
    have hlt := State.lt_length_of_isOpen ho.2
    have hn : n < 4 := hfour ▸ hlt
    exact ⟨fun hgood => State.authSettled_of_verifies hn hlt hgood seq,
      fun hbad hfails => State.authSettled_of_failure hn hlt hrole hbad hfails seq,
      fun hbad hfails => State.authSettled_of_thirdFailure hn hlt hbad hfails seq⟩
  case tooLong => rw [exec_mgmtUnknownType htyp, State.request_tooLong ho hlen]
  case unlisted => rw [exec_mgmtUnknownType htyp, State.request_notAdmitted ho hrole hlen]
  case beat =>
    obtain ⟨hchips, hup, new, hout, hlen, hmem⟩ := State.forEach_sendTo 0x7F s.beatBytes s.authSessions s
    exact ⟨hup, hchips, new, hout, hlen, hmem⟩

end Sys2Proof.Machine

/-! SUPPORT. What a transaction of the side-band does, and what a register access comes to (R103 to R113, R122, R964 to R982). -/
namespace Sys2Proof.Machine

/-! ### Events, violations and refusals: what they leave unchanged -/

/-- The chips agree in everything but what noting an event, a violation or a host's refusal touches: the violation log, the record, the
partitions' counts, the host interface and what has been sent outwards. -/
def Chip.Noted (ch ch' : Chip) : Prop := ∃ v r p h o, ch' = { ch with rcv := v, ler := r, parts := p, host := h, out := o }

theorem Chip.Noted.refl (ch : Chip) : ch.Noted ch := ⟨_, _, _, _, _, rfl⟩

theorem Chip.Noted.trans {a b c : Chip} (hab : a.Noted b) (hbc : b.Noted c) : a.Noted c := by
  obtain ⟨_, _, _, _, _, rfl⟩ := hab
  obtain ⟨v, r, p, h, o, rfl⟩ := hbc
  exact ⟨v, r, p, h, o, rfl⟩

theorem Chip.Noted.ite {ch a b : Chip} {q : Prop} [Decidable q] (ha : ch.Noted a) (hb : ch.Noted b) : ch.Noted (if q then a else b) := by
  split
  · exact ha
  · exact hb

/-- Sending something outwards is noted only. -/
theorem Chip.Noted.emit {ch a : Chip} (h : ch.Noted a) (o : Output) : ch.Noted (a.emit o) := h.trans ⟨_, _, _, _, _, rfl⟩

/-- An event is noted only. -/
theorem Chip.Noted.ev {ch a : Chip} (h : ch.Noted a) (id cls agent part code arg0 arg1 level : Nat) :
    ch.Noted (a.ev id cls agent part code arg0 arg1 level) := by
  obtain ⟨r, p, o, he⟩ := a.event_cases { id := id, cls := cls, agent := agent, part := part, code := code, arg0 := arg0, arg1 := arg1, level := level }
  exact h.trans ⟨_, r, p, _, o, he⟩

/-- A violation is noted only. -/
theorem Chip.Noted.violateIf {ch a : Chip} (h : ch.Noted a) (agent part kind code addr : Nat) (isRead : Bool) :
    ch.Noted (a.violateIf agent part kind code addr isRead) := by
  refine h.trans ?_
  unfold Chip.violateIf Chip.violate
  exact .ite (.ite ⟨_, _, _, _, _, rfl⟩ (.ite ⟨_, _, _, _, _, rfl⟩ (.ev ⟨_, _, _, _, _, rfl⟩ ..))) (.refl a)

/-- An interrupt vector is noted only. -/
theorem Chip.Noted.fireOf {ch a : Chip} (h : ch.Noted a) (fn vec us : Nat) : ch.Noted (a.fireOf fn vec us) := by
  refine h.trans ?_
  unfold Chip.fireOf
  dsimp only
  split
  · exact .ite ⟨_, _, _, _, _, rfl⟩ ⟨_, _, _, _, _, rfl⟩
  · exact ⟨_, _, _, _, _, rfl⟩

/-- A host access that is refused is noted only. -/
theorem Chip.Noted.hostRefused {ch a : Chip} (h : ch.Noted a) (fn bar off len code : Nat) (write : Bool) :
    ch.Noted (a.hostRefused fn bar off len code write) := by
  refine h.trans ?_
  unfold Chip.hostRefused
  have hrecorded : ∀ kind, a.Noted
      (let b := a.violateIf (fnAgent fn) (fnPart fn) kind code off (!write)
       { b with host := { b.host with fnErr := b.host.fnErr.modify fn fun e => e.record bar off code } }) := fun kind =>
    (Chip.Noted.violateIf (.refl a) ..).trans ⟨_, _, _, _, _, rfl⟩
  have hanswered : ∀ d : Chip, a.Noted d → a.Noted (if write then d else d.emit (.hostRead fn (List.replicate len 0xFF) false)) :=
    fun _ h => .ite h (h.emit _)
  exact hanswered _ (.ite (.ite (.fireOf (hrecorded _) ..) (hrecorded _)) (.ite (.fireOf (hrecorded _) ..) (hrecorded _)))

/-- Outside Idle there is nothing to end. -/
theorem Chip.leaveIdle_of_ne {ch : Chip} (h : ch.pwr.state ≠ .idle) : ch.leaveIdle = ch := if_neg (by simpa using h)

/-- The end of Idle starts fc, and is noted: the clock's frequency and the rest of the chip stay (R102, R871). -/
theorem Chip.leaveIdle_cases (ch : Chip) : ∃ w : Power, w.fc = ch.pwr.fc ∧
    w.state = (if ch.pwr.state = .idle then .active else ch.pwr.state) ∧ ({ ch with pwr := w } : Chip).Noted ch.leaveIdle := by
  by_cases hidle : ch.pwr.state = .idle
  · have hactive : ¬ (ch.pwr.state == .active) = true := by simp [hidle]
    rw [Chip.leaveIdle, if_pos (beq_iff_eq.2 hidle), Chip.setPower, if_neg hactive, if_pos hidle]
    exact ⟨{ ch.pwr with state := .active, idleSince := none, scrubRun := false }, rfl, rfl, .ev (.refl _) ..⟩
  · rw [Chip.leaveIdle_of_ne hidle, if_neg hidle]
    exact ⟨ch.pwr, rfl, rfl, .refl ch⟩

/-! ### Where an access stands: its place in the map, and the chip on which it acts (R102, R964, R966, R982) -/

/-- An access of 4 or 8 bytes at a multiple of its size (R91). -/
def regAligned (off size : Nat) : Prop := (size = 4 ∨ size = 8) ∧ off % size = 0

/-- The model's check of size and alignment. -/
theorem misaligned_iff (off size : Nat) : (!((size == 4 || size == 8) && off % size == 0)) = true ↔ ¬ regAligned off size := by
  simp only [regAligned, Bool.not_eq_true', ← Bool.not_eq_true, Bool.and_eq_true, Bool.or_eq_true, beq_iff_eq]

/-- A bad size or alignment is ALIGN. -/
theorem Chip.regPlace_misaligned (ch : Chip) {off size : Nat} (h : ¬ regAligned off size) (write : Bool) :
    ch.regPlace off size write = .error cALIGN := if_pos ((misaligned_iff off size).2 h)

/-- A gap is BOUNDS. -/
theorem Chip.regPlace_gap (ch : Chip) {off size : Nat} (h : regAligned off size) (hb : blockOf off = none) (write : Bool) :
    ch.regPlace off size write = .error cBOUNDS := by
  rw [Chip.regPlace, if_neg fun hbad => (misaligned_iff off size).1 hbad h, hb]

/-- An access in a block stands there, unless it writes half of a 64-bit register. -/
theorem Chip.regPlace_block (ch : Chip) {off size : Nat} {b : Block} {o : Nat} (h : regAligned off size) (hb : blockOf off = some (b, o))
    (write : Bool) : ch.regPlace off size write = if write && size == 4 && ch.wide b o then .error cALIGN else .ok (b, o) := by
  rw [Chip.regPlace, if_neg fun hbad => (misaligned_iff off size).1 hbad h, hb]

theorem Chip.regPlace_wide {ch : Chip} {off : Nat} {b : Block} {o : Nat} (h : regAligned off 4) (hb : blockOf off = some (b, o))
    (hw : ch.wide b o = true) : ch.regPlace off 4 true = .error cALIGN := by
  simp [ch.regPlace_block h hb, hw]

theorem Chip.regPlace_read (ch : Chip) {off size : Nat} {b : Block} {o : Nat} (h : regAligned off size) (hb : blockOf off = some (b, o)) :
    ch.regPlace off size false = .ok (b, o) := by
  simp [ch.regPlace_block h hb]

theorem Chip.regPlace_write {ch : Chip} {off size : Nat} {b : Block} {o : Nat} (h : regAligned off size) (hb : blockOf off = some (b, o))
    (hw : size = 4 → ch.wide b o = false) : ch.regPlace off size true = .ok (b, o) := by
  simpa [ch.regPlace_block h hb] using hw

/-- A block that ends at or below the offset does not hold it. -/
theorem inBlock_above {off base stride n : Nat} (h : base + stride * n ≤ off) (mk : Nat → Block) : inBlock off base stride n mk = none := by
  rw [inBlock, if_neg]
  simp [Nat.not_lt.2 h]

/-- An offset within the `i`-th of a block's register files. -/
theorem inBlock_within {base stride n i o : Nat} (hi : i < n) (ho : o < stride) (mk : Nat → Block) :
    inBlock (base + stride * i + o) base stride n mk = some (mk i, o) := by
  have hlt : stride * i + o < stride * n := by
    calc stride * i + o < stride * (i + 1) := by rw [Nat.mul_succ]; omega
      _ ≤ stride * n := Nat.mul_le_mul_left _ hi
  have hsub : base + stride * i + o - base = o + stride * i := by omega
  have hin : (base ≤ base + stride * i + o && base + stride * i + o < base + stride * n : Bool) = true := by
    rw [Bool.and_eq_true, decide_eq_true_eq, decide_eq_true_eq]
    omega
  rw [inBlock, if_pos hin, hsub, Nat.add_mul_div_left _ _ (by omega), Nat.div_eq_of_lt ho, Nat.add_mul_mod_self_left, Nat.mod_eq_of_lt ho,
    Nat.zero_add]

/-- The registers of core `k` (R963). -/
theorem blockOf_core {k o : Nat} (hk : k < 64) (ho : o < 0x1000) : blockOf (0x300000 + 0x1000 * k + o) = some (.core k, o) := by
  simp (disch := omega) only [blockOf, inBlock_above, inBlock_within hk ho]
  rfl

/-- The registers of pod `d` (R963). -/
theorem blockOf_pod {d o : Nat} (hd : d < 8) (ho : o < 0x10000) : blockOf (0x200000 + 0x10000 * d + o) = some (.pod d, o) := by
  simp (disch := omega) only [blockOf, inBlock_above, inBlock_within hd ho]
  rfl

/-- The loss of TIME's latch changes the latches alone. -/
theorem Chip.unlatch_cases (ch : Chip) (a : Nat) (b : Block) : ∃ l, ch.unlatch a b = { ch with timeLatch := l } := by
  unfold Chip.unlatch
  split
  · exact ⟨_, rfl⟩
  · exact ⟨ch.timeLatch, rfl⟩

/-- An access to a unit block starts fc, which is noted (R102). -/
theorem Chip.wakeFor_cases (ch : Chip) (b : Block) : ∃ w : Power, w.fc = ch.pwr.fc ∧ ({ ch with pwr := w } : Chip).Noted (ch.wakeFor b) := by
  unfold Chip.wakeFor
  split
  · obtain ⟨w, hfc, -, hw⟩ := ch.leaveIdle_cases
    exact ⟨w, hfc, hw⟩
  · exact ⟨ch.pwr, rfl, .refl ch⟩

/-- The chip on which a write of agent `a` to block `b` acts: TIME's latch is gone and Idle has ended (R102, R982). -/
def Chip.reached (ch : Chip) (a : Nat) (b : Block) : Chip := (ch.unlatch a b).wakeFor b

/-- What a write changes before it acts: TIME's latch, and the power state where it ends Idle. -/
theorem Chip.reached_cases (ch : Chip) (a : Nat) (b : Block) : ∃ (l : List (Nat × Nat)) (w : Power), w.fc = ch.pwr.fc ∧
    ({ ch with timeLatch := l, pwr := w } : Chip).Noted (ch.reached a b) := by
  obtain ⟨l, hl⟩ := ch.unlatch_cases a b
  obtain ⟨w, hfc, hw⟩ := (ch.unlatch a b).wakeFor_cases b
  rw [hl] at hfc hw
  rw [Chip.reached, hl]
  exact ⟨l, w, hfc, hw⟩

/-- The chips agree in memory, cores, pods, plate, watchdogs, fc, start-up and twin. -/
def Chip.Kept (ch ch' : Chip) : Prop :=
  ch'.mem = ch.mem ∧ ch'.cores = ch.cores ∧ ch'.pods = ch.pods ∧ ch'.loader = ch.loader ∧ ch'.wdg = ch.wdg ∧ ch'.pwr.fc = ch.pwr.fc ∧
  ch'.boot = ch.boot ∧ ch'.twin = ch.twin

theorem Chip.Kept.refl (ch : Chip) : ch.Kept ch := ⟨rfl, rfl, rfl, rfl, rfl, rfl, rfl, rfl⟩

/-- What is noted only is kept. -/
theorem Chip.Noted.kept {ch ch' : Chip} (h : ch.Noted ch') : ch.Kept ch' := by
  obtain ⟨_, _, _, _, _, rfl⟩ := h
  exact .refl ch

/-- An access that has not acted yet keeps the chip. -/
theorem Chip.kept_reached (ch : Chip) (a : Nat) (b : Block) : ch.Kept (ch.reached a b) := by
  obtain ⟨l, w, hfc, h⟩ := ch.reached_cases a b
  obtain ⟨hmem, hcores, hpods, hloader, hwdg, hpwr, hboot, htwin⟩ := h.kept
  exact ⟨hmem, hcores, hpods, hloader, hwdg, hpwr.trans hfc, hboot, htwin⟩

/-- Which registers are absent depends on the variant alone. -/
theorem Chip.absentAll_congr {ch ch' : Chip} (h : ch'.variant = ch.variant) (b : Block) (o size : Nat) :
    ch'.absentAll b o size = ch.absentAll b o size := by
  simp only [Chip.absentAll, Chip.regAbsent, h]

theorem Chip.reached_absentAll (ch : Chip) (a : Nat) (b b' : Block) (o size : Nat) :
    (ch.reached a b).absentAll b' o size = ch.absentAll b' o size := by
  obtain ⟨l, w, -, _, _, _, _, _, h⟩ := ch.reached_cases a b
  exact Chip.absentAll_congr (by rw [h]) ..

/-! ### Register writes (R122, R966, R971, R973) -/

/-- The chip answers agent `a`: no reset is under way for the side-band and the test access port (R101). -/
def Chip.answers (ch : Chip) (a : Nat) : Prop := isSb a = true → ch.boot.pendingReset = none ∧ ch.boot.stage ≠ .reset

/-- No write of this cycle comes after one of agent `a` (R971). -/
def Chip.isLast (ch : Chip) (a : Nat) : Prop := (ch.regLog.all fun w => w.at' != ch.time || regRank w.agent ≤ regRank a) = true

theorem Chip.answers.check {ch : Chip} {a : Nat} (h : ch.answers a) :
    ¬ (isSb a && (ch.boot.pendingReset.isSome || ch.boot.stage == .reset)) = true := by
  simp only [Bool.and_eq_true, Bool.or_eq_true, beq_iff_eq]
  rintro ⟨ha, hr⟩
  obtain ⟨hnone, hstage⟩ := h ha
  rcases hr with hr | hr
  · simp [hnone] at hr
  · exact hstage hr

/-- What it takes for the chip to take a register access. -/
theorem Chip.takesFrom_iff (ch : Chip) (a : Nat) : ch.takesFrom a = true ↔ ch.agentUp a = true ∧ ch.answers a ∧ ch.isLast a := by
  rw [Chip.takesFrom, Bool.and_eq_true, Bool.and_eq_true, and_assoc]
  refine and_congr_right fun _ => and_congr_left fun _ => ⟨fun h ha => ?_, fun h => ?_⟩
  · simpa [ha] using h
  · simpa only [Bool.not_eq_true', ← Bool.not_eq_true] using h.check

/-- Where no write of the cycle comes later, none stands again (R971). -/
theorem Chip.isLast.laterWrites {ch : Chip} {a : Nat} (h : ch.isLast a) (off size : Nat) : ch.laterWrites a off size = [] := by
  have hnone : (ch.regLog.filter fun w => w.after ch.time a off size && (w.locks || ch.holdsValue w.off w.size w.v)) = [] := by
    refine List.filter_eq_nil_iff.2 fun w hw hlater => ?_
    have hearly := List.all_eq_true.1 h w hw
    simp only [RegWrite.after, Bool.and_eq_true, Bool.or_eq_true, beq_iff_eq, bne_iff_ne, decide_eq_true_eq] at hlater hearly
    omega
  rw [Chip.laterWrites, hnone, List.mergeSort_nil]

/-- The outcome of a write at a place of the map: BUSY while the unit sleeps, where no refusal of its requester comes first (R966, R973). -/
def Chip.putResult (ch : Chip) (a : Nat) (b : Block) (o size v : Nat) : Except Nat Chip :=
  if ch.unitAsleep b && !ch.absentAll b o size then permFirst (ch.regPut a b o size v) cBUSY else ch.regPut a b o size v

theorem Chip.writeOnce_misplaced {ch : Chip} {a off size e : Nat} (ha : ch.answers a) (hp : ch.regPlace off size true = .error e) (v : Nat) :
    ch.writeOnce a off size v = (ch, e) := by
  rw [Chip.writeOnce, if_neg ha.check, hp]

theorem Chip.writeOnce_refused {ch : Chip} {a off size v e : Nat} {b : Block} {o : Nat} (ha : ch.answers a)
    (hp : ch.regPlace off size true = .ok (b, o)) (hr : (ch.reached a b).putResult a b o size v = .error e) :
    ch.writeOnce a off size v = (ch.reached a b, e) := by
  unfold Chip.putResult Chip.reached at hr
  rw [Chip.writeOnce, if_neg ha.check, hp]
  simp only [hr]
  rfl

theorem Chip.writeOnce_done {ch d : Chip} {a off size v : Nat} {b : Block} {o : Nat} (ha : ch.answers a)
    (hp : ch.regPlace off size true = .ok (b, o)) (hr : (ch.reached a b).putResult a b o size v = .ok d) :
    ch.writeOnce a off size v = (d, cOK) := by
  unfold Chip.putResult Chip.reached at hr
  rw [Chip.writeOnce, if_neg ha.check, hp]
  simp only [hr]

/-- The writes of the cycle once agent `a` has performed one, after which WDG.PERIOD is locked or not (R971). -/
def Chip.logAfter (ch : Chip) (a off size v : Nat) (locked : Bool) : List RegWrite :=
  let mine : RegWrite := { agent := a, off := off, size := size, v := v, at' := ch.time, locks := !ch.wdg.locked && locked }
  (ch.regLog.filter fun w => w.at' == ch.time && !(locked && mine.locks && w.locks)) ++ [mine]

/-- A write with the later writes `l` of its cycle, none of which took the lock of WDG.PERIOD: they stand again after it (R971). -/
theorem Chip.regWrite_eq {ch : Chip} {a off size : Nat} {l : List RegWrite} (hl : ch.laterWrites a off size = l)
    (hlocks : l.any RegWrite.locks = false) (v : Nat) : ch.regWrite a off size v =
      let r := ch.writeOnce a off size v
      let d := l.foldl (fun (x : Chip) w => (x.writeOnce w.agent w.off w.size w.v).1) r.1
      if r.2 != cOK then (d, r.2) else ({ d with regLog := ch.logAfter a off size v r.1.wdg.locked }, cOK) := by
  have hbefore : ch.beforeLock l = ch := if_neg (by simp [hlocks])
  rw [Chip.regWrite, hl, hbefore]
  rfl

/-- A refused write is the write alone. -/
theorem Chip.regWrite_refused {ch : Chip} {a off size v : Nat} (hl : ch.isLast a) (he : (ch.writeOnce a off size v).2 ≠ cOK) :
    ch.regWrite a off size v = ch.writeOnce a off size v := by
  simp [Chip.regWrite_eq (hl.laterWrites off size) rfl, he]

/-- A write that its check refuses with a code leaves what the write alone leaves. -/
theorem Chip.regWrite_error {ch d : Chip} {a off size v e : Nat} (hl : ch.isLast a) (hw : ch.writeOnce a off size v = (d, e)) (he : e ≠ cOK) :
    ch.regWrite a off size v = (d, e) := (Chip.regWrite_refused hl (hw ▸ he)).trans hw

/-- A write that fails steps 1 and 2 of R966 changes nothing. -/
theorem Chip.regWrite_misplaced {ch : Chip} {a off size e : Nat} (ha : ch.answers a) (hl : ch.isLast a)
    (hp : ch.regPlace off size true = .error e) (he : e ≠ cOK) (v : Nat) : ch.regWrite a off size v = (ch, e) :=
  Chip.regWrite_error hl (Chip.writeOnce_misplaced ha hp v) he

/-- A write that is performed stands in the list of its cycle's writes, and does nothing else beyond itself. -/
theorem Chip.regWrite_done {ch d : Chip} {a off size v : Nat} (hl : ch.isLast a) (hw : ch.writeOnce a off size v = (d, cOK)) :
    ch.regWrite a off size v = ({ d with regLog := ch.logAfter a off size v d.wdg.locked }, cOK) := by
  simp [Chip.regWrite_eq (hl.laterWrites off size) rfl, hw]

/-- The code of an agent's write that none follows is that of the write alone. -/
theorem Chip.regWrite_code {ch : Chip} {a : Nat} (hl : ch.isLast a) (off size v : Nat) :
    (ch.regWrite a off size v).2 = (ch.writeOnce a off size v).2 := by
  by_cases hok : (ch.writeOnce a off size v).2 = cOK
  · rw [Chip.regWrite_done hl (Prod.ext rfl hok), hok]
  · rw [Chip.regWrite_refused hl hok]

/-- A write to absent registers is ignored (R978). -/
theorem Chip.putResult_absent {ch : Chip} {b : Block} {o size : Nat} (h : ch.absentAll b o size = true) (a v : Nat) :
    ch.putResult a b o size v = .ok ch := by
  simp [Chip.putResult, Chip.regPut, h]

/-- PERM does not reach the side-band (R110). -/
theorem forAgent_sb_ne_perm (b : Block) (o v : Nat) (ch : Chip) (r : Except Nat Chip) : forAgent agSB b o v ch r ≠ .error cPERM := by
  have hbar : (agSB == agTAP && tapBarred b o v) = false := rfl
  unfold forAgent
  rw [hbar, if_neg Bool.false_ne_true]
  split
  · exact fun h => nomatch h
  next h => exact h

theorem Chip.regPut_sb_ne_perm (ch : Chip) (b : Block) (o size v : Nat) : ch.regPut agSB b o size v ≠ .error cPERM := by
  have hhalf : ∀ (x : Chip) o v, x.writeHalf agSB b o v ≠ .error cPERM := fun x o v => by
    unfold Chip.writeHalf
    split
    · simp
    · exact forAgent_sb_ne_perm _ _ _ _ _
  unfold Chip.regPut
  split
  · simp
  split
  · exact forAgent_sb_ne_perm _ _ _ _ _
  split
  · exact hhalf _ _ _
  split
  next e he => exact he ▸ hhalf _ _ _
  next c _ => exact hhalf c _ _

theorem Chip.putResult_sb_ne_perm (ch : Chip) (b : Block) (o size v : Nat) : ch.putResult agSB b o size v ≠ .error cPERM := by
  have hput := ch.regPut_sb_ne_perm b o size v
  unfold Chip.putResult
  split
  · unfold permFirst
    split
    next h => exact absurd h hput
    · exact fun h => absurd (Except.error.inj h) (show cBUSY ≠ cPERM by decide)
  · exact hput

/-- What a write in a block comes to: the chip that it makes, or its code and the chip on which it did not act. -/
theorem Chip.writeOnce_cases {ch : Chip} {a off size : Nat} {b : Block} {o : Nat} (ha : ch.answers a)
    (hp : ch.regPlace off size true = .ok (b, o)) (v : Nat) :
    (∃ d, (ch.reached a b).putResult a b o size v = .ok d ∧ ch.writeOnce a off size v = (d, cOK)) ∨
    ∃ e, (ch.reached a b).putResult a b o size v = .error e ∧ ch.writeOnce a off size v = (ch.reached a b, e) := by
  cases hr : (ch.reached a b).putResult a b o size v with
  | ok d => exact .inl ⟨d, rfl, Chip.writeOnce_done ha hp hr⟩
  | error e => exact .inr ⟨e, rfl, Chip.writeOnce_refused ha hp hr⟩

/-- A write to absent registers is performed and keeps the chip (R978). -/
theorem Chip.regWrite_absent {ch : Chip} {a off size : Nat} {b : Block} {o : Nat} (ha : ch.answers a) (hl : ch.isLast a)
    (hp : ch.regPlace off size true = .ok (b, o)) (habs : ch.absentAll b o size = true) (v : Nat) :
    (ch.regWrite a off size v).2 = cOK ∧ ch.Kept (ch.regWrite a off size v).1 := by
  have hput := Chip.putResult_absent ((ch.reached_absentAll a b b o size).trans habs) a v
  rw [Chip.regWrite_done hl (Chip.writeOnce_done ha hp hput)]
  exact ⟨rfl, ch.kept_reached a b⟩

/-- A refused write keeps the chip (R966). -/
theorem Chip.regWrite_refused_kept {ch : Chip} {a off size v : Nat} {b : Block} {o : Nat} (ha : ch.answers a) (hl : ch.isLast a)
    (hp : ch.regPlace off size true = .ok (b, o)) (he : (ch.regWrite a off size v).2 ≠ cOK) : ch.Kept (ch.regWrite a off size v).1 := by
  rw [Chip.regWrite_code hl] at he
  rw [Chip.regWrite_refused hl he]
  rcases Chip.writeOnce_cases ha hp v with ⟨d, -, hd⟩ | ⟨e, -, hr⟩
  · exact absurd (congrArg Prod.snd hd) he
  · rw [hr]
    exact ch.kept_reached a b

/-- A write of the side-band is not refused with PERM (R110). -/
theorem Chip.regWrite_sb_ne_perm {ch : Chip} {off size : Nat} {b : Block} {o : Nat} (ha : ch.answers agSB) (hl : ch.isLast agSB)
    (hp : ch.regPlace off size true = .ok (b, o)) (v : Nat) : (ch.regWrite agSB off size v).2 ≠ cPERM := by
  rw [Chip.regWrite_code hl]
  rcases Chip.writeOnce_cases ha hp v with ⟨d, -, hd⟩ | ⟨e, hput, hr⟩
  · rw [hd]
    exact show cOK ≠ cPERM by decide
  · rw [hr]
    rintro rfl
    exact Chip.putResult_sb_ne_perm _ b o size v hput

/-- The checks of a register write, in the order of R966, for an agent that no later write of the cycle follows. -/
theorem Chip.regWrite_checks {ch : Chip} {a : Nat} (ha : ch.answers a) (hl : ch.isLast a) (off size v : Nat) :
    let r := ch.regWrite a off size v
    (¬ ((size = 4 ∨ size = 8) ∧ off % size = 0) → r = (ch, cALIGN)) ∧
    ((size = 4 ∨ size = 8) → off % size = 0 → blockOf off = none → r = (ch, cBOUNDS)) ∧
    (∀ b o, (size = 4 ∨ size = 8) → off % size = 0 → blockOf off = some (b, o) →
      (size = 4 → ch.wide b o = true → r = (ch, cALIGN)) ∧
      ((size = 4 → ch.wide b o = false) → ch.absentAll b o size = true → r.2 = cOK ∧ ch.Kept r.1) ∧
      (r.2 ≠ cOK → ch.Kept r.1) ∧
      (isSb a = true → a = agSB → r.2 ≠ cPERM)) := by
  intro r
  refine ⟨fun hbad => Chip.regWrite_misplaced ha hl (ch.regPlace_misaligned hbad true) (by decide) v,
    fun hs hm hgap => Chip.regWrite_misplaced ha hl (ch.regPlace_gap ⟨hs, hm⟩ hgap true) (by decide) v,
    fun b o hs hm hb => ?_⟩
  have hwide : size = 4 → ch.wide b o = true → r = (ch, cALIGN) := by
    rintro rfl hw
    exact Chip.regWrite_misplaced ha hl (Chip.regPlace_wide ⟨hs, hm⟩ hb hw) (by decide) v
  by_cases hw : size = 4 ∧ ch.wide b o = true
  · obtain ⟨h4, hw⟩ := hw
    rw [hwide h4 hw]
    exact ⟨fun _ _ => rfl, fun hn => absurd (hn h4) (by simp [hw]), fun _ => .refl ch, fun _ _ => show cALIGN ≠ cPERM by decide⟩
  · have hp := Chip.regPlace_write ⟨hs, hm⟩ hb fun h4 => Bool.eq_false_iff.2 fun h => hw ⟨h4, h⟩
    refine ⟨hwide, fun _ habs => Chip.regWrite_absent ha hl hp habs v, Chip.regWrite_refused_kept ha hl hp, fun _ hsb => ?_⟩
    subst hsb
    exact Chip.regWrite_sb_ne_perm ha hl hp v

/-! ### How a requester learns of a write (R107, R108, R391, R760, R905) -/

/-- The report of a write changes the registers of the side-band and of the test access port, and is noted. -/
theorem Chip.reportWrite_cases (ch : Chip) (a off size code : Nat) :
    ∃ (b : SideBand) (t : Tap), ({ ch with sb := b, tap := t } : Chip).Noted (ch.reportWrite a off size code) := by
  unfold Chip.reportWrite
  have hserved : ∃ b, (if a == agSB then { ch with sb := { ch.sb with served := ch.time } } else ch) = ({ ch with sb := b } : Chip) := by
    split
    · exact ⟨_, rfl⟩
    · exact ⟨ch.sb, rfl⟩
  obtain ⟨b, hb⟩ := hserved
  rw [hb]
  extract_lets x y
  have hx : ({ ch with sb := b, tap := ch.tap } : Chip).Noted x := .refl x
  clear_value x
  have hy : ({ ch with sb := b, tap := ch.tap } : Chip).Noted y := hx.violateIf ..
  clear_value y
  split
  · exact ⟨b, ch.tap, hx⟩
  split
  · exact ⟨b, ch.tap, .ite (hx.emit _) (hx.hostRefused ..)⟩
  obtain ⟨v, r, p, h, o, rfl⟩ := hy
  split
  · exact ⟨_, ch.tap, v, r, p, h, o, rfl⟩
  split
  · exact ⟨b, _, v, r, p, h, o, rfl⟩
  · exact ⟨b, ch.tap, v, r, p, h, _, rfl⟩

/-- The report of a write keeps the chip. -/
theorem Chip.kept_reportWrite {ch ch' : Chip} (h : ch.Kept ch') (a off size code : Nat) : ch.Kept (ch'.reportWrite a off size code) := by
  obtain ⟨b, t, _, _, _, _, _, hr⟩ := ch'.reportWrite_cases a off size code
  rw [hr]
  exact h

/-- The report of a write leaves the power controller. -/
theorem Chip.reportWrite_pwr (ch : Chip) (a off size code : Nat) : (ch.reportWrite a off size code).pwr = ch.pwr := by
  obtain ⟨b, t, _, _, _, _, _, hr⟩ := ch.reportWrite_cases a off size code
  rw [hr]

/-- A write that the chip takes: its effect and its report. -/
theorem regRow_up {s : State} {c : Nat} {ch : Chip} (hc : s.chips[c]? = some ch) {a : Nat} (hup : ch.agentUp a = true) (off size v : Nat) :
    regRow c a off size v s =
      .next (s.withChip c ((ch.regWrite a off size v).1.reportWrite a off size (ch.regWrite a off size v).2)) := by
  rw [regRow, onChip_some hc]
  simp [hup]

/-! ### Registers of the power controller, and writes of one cycle (R892, R971) -/

/-- The chip once PWR.CFG holds `v`: AUTO_IDLE and IDLE_DELAY (R892). -/
def Chip.pwrCfg (ch : Chip) (v : Nat) : Chip := { ch with pwr := { ch.pwr with idleDelay := bitsOf v 8 8, autoIdle := bitOf v 0 } }

/-- Registers of the power controller below 0x28 are 32 bits wide. -/
theorem Chip.regPlace_pwr (ch : Chip) {off o : Nat} (hb : blockOf off = some (.pwr, o)) (ho : o < 0x28) (hoff : off % 4 = 0) :
    ch.regPlace off 4 true = .ok (.pwr, o) := by
  refine Chip.regPlace_write ⟨.inl rfl, hoff⟩ hb fun _ => ?_
  have hne : o / 8 * 8 ≠ 0x28 := by omega
  simp [Chip.wide, Chip.reg64, hne]

/-- The power controller is no unit block, and not CHIP: an access changes nothing before it acts. -/
theorem Chip.reached_pwr (ch : Chip) (a : Nat) : ch.reached a .pwr = ch := rfl

/-- A write to a register of the power controller: it sleeps in no state, and is absent on no variant. -/
theorem Chip.putResult_pwr (ch : Chip) (a o : Nat) {v : Nat} (hv : v < 2 ^ 32) :
    ch.putResult a .pwr o 4 v = forAgent a .pwr o v ch (ch.write32 a .pwr o v) := by
  have h : ch.putResult a .pwr o 4 v = forAgent a .pwr o (v % 2 ^ 32) ch (ch.write32 a .pwr o (v % 2 ^ 32)) := rfl
  rw [h, Nat.mod_eq_of_lt hv]

/-- What is performed for the requester is performed. -/
theorem forAgent_ok {b : Block} {o v : Nat} (hbar : tapBarred b o v = false) (a : Nat) (ch d : Chip) : forAgent a b o v ch (.ok d) = .ok d := by
  simp [forAgent, hbar]

/-- A refusal with another code than PERM is one for every requester. -/
theorem forAgent_error {b : Block} {o v e : Nat} (hbar : tapBarred b o v = false) (he : e ≠ cPERM) (a : Nat) (ch : Chip) :
    forAgent a b o v ch (.error e) = .error e := by
  unfold forAgent
  rw [if_neg (by simp [hbar])]
  split
  next h => exact absurd (Except.error.inj h) he
  · rfl

/-- The physical function, the side-band and the test access port set PWR.CFG. -/
theorem Chip.writeOnce_pwrCfg {ch : Chip} {a v : Nat} (ha : ch.answers a) (hw : isPfSb a = true) (hv : v < 2 ^ 32) (h0 : bitsOf v 8 8 ≠ 0) :
    ch.writeOnce a 0x60018 4 v = (ch.pwrCfg v, cOK) := by
  refine Chip.writeOnce_done ha (ch.regPlace_pwr (o := 0x18) rfl (by decide) rfl) ?_
  have hset : ch.write32 a .pwr 0x18 v = .ok (ch.pwrCfg v) := by
    simp [Chip.write32, Chip.pwrWrite, permitted, inBounds, hw, h0, Chip.pwrCfg]
  rw [Chip.reached_pwr, Chip.putResult_pwr ch a 0x18 hv, hset, forAgent_ok rfl]

/-- An IDLE_DELAY of 0 is BOUNDS (R892). -/
theorem Chip.writeOnce_pwrCfg_bounds {ch : Chip} {a v : Nat} (ha : ch.answers a) (hw : isPfSb a = true) (hv : v < 2 ^ 32) (h0 : bitsOf v 8 8 = 0) :
    ch.writeOnce a 0x60018 4 v = (ch, cBOUNDS) := by
  refine Chip.writeOnce_refused ha (ch.regPlace_pwr (o := 0x18) rfl (by decide) rfl) ?_
  have hset : ch.write32 a .pwr 0x18 v = .error cBOUNDS := by
    simp [Chip.write32, Chip.pwrWrite, permitted, inBounds, hw, h0]
  rw [Chip.reached_pwr, Chip.putResult_pwr ch a 0x18 hv, hset, forAgent_error rfl (by decide)]

/-- PWR.FC is read-only, and ignores writes (R892, R966). -/
theorem Chip.writeOnce_pwrFc {ch : Chip} {a : Nat} (ha : ch.answers a) (v : Nat) : ch.writeOnce a 0x60004 4 v = (ch, cOK) :=
  Chip.writeOnce_done ha (ch.regPlace_pwr (o := 0x04) rfl (by decide) rfl) (forAgent_ok (v := v % 2 ^ 32) rfl a ch ch)

/-- The first write of a cycle, where the lock of WDG.PERIOD stays, is the one in the list of its writes. -/
theorem Chip.logAfter_first {ch : Chip} (hnone : (ch.regLog.all fun w => w.at' != ch.time) = true) (a off size v : Nat) :
    ch.logAfter a off size v ch.wdg.locked = [{ agent := a, off := off, size := size, v := v, at' := ch.time, locks := false }] := by
  simpa [Chip.logAfter] using hnone

/-- A write with one later write of its cycle: both are performed, the later one again after it (R971). -/
theorem Chip.regWrite_before {ch b d : Chip} {a off size v : Nat} {w : RegWrite} (hlater : ch.laterWrites a off size = [w])
    (hlock : w.locks = false) (hw : ch.writeOnce a off size v = (b, cOK)) (hagain : b.writeOnce w.agent w.off w.size w.v = (d, cOK)) :
    ch.regWrite a off size v = ({ d with regLog := ch.logAfter a off size v b.wdg.locked }, cOK) := by
  rw [Chip.regWrite_eq hlater (by simp [hlock])]
  simp [hw, hagain]

/-- The value of PWR.CFG with IDLE_DELAY `d` and AUTO_IDLE `b`. -/
theorem pwrCfg_value {d : Nat} (hd : d < 256) (b : Bool) :
    bitsOf (256 * d + b2n b) 8 8 = d ∧ bitOf (256 * d + b2n b) 0 = b ∧ 256 * d + b2n b < 2 ^ 32 := by
  have hb : b2n b < 2 := by cases b <;> decide
  refine ⟨?_, ?_, by omega⟩
  · rw [bitsOf, Nat.shiftRight_eq_div_pow]
    omega
  · cases b <;> simp [bitOf, b2n, Nat.testBit_zero] <;> omega

/-- The chip after a cycle's first write, by agent `a` to PWR.CFG. -/
def Chip.cfgWritten (ch : Chip) (a v : Nat) : Chip :=
  { ch.pwrCfg v with regLog := [{ agent := a, off := 0x60018, size := 4, v := v, at' := ch.time, locks := false }] }

/-- PWR.CFG reads back what was written, where the value has no bits beside its fields (R892). -/
theorem Chip.cfgWritten_holdsValue (ch : Chip) (a : Nat) {d : Nat} (hd : d < 256) (b : Bool) :
    (ch.cfgWritten a (256 * d + b2n b)).holdsValue 0x60018 4 (256 * d + b2n b) = true := by
  obtain ⟨hbits, hbit, -⟩ := pwrCfg_value hd b
  have hhalf : (ch.cfgWritten a (256 * d + b2n b)).half .pwr 0x18 = (256 * d + b2n b) % 2 ^ 32 := by
    change (bitsOf (256 * d + b2n b) 8 8 * 2 ^ 8 + b2n (bitOf (256 * d + b2n b) 0)) % 2 ^ 32 = _
    rw [hbits, hbit]
    omega
  rw [Chip.holdsValue, Chip.regPlace_read _ (b := .pwr) (o := 0x18) ⟨.inl rfl, rfl⟩ rfl]
  simp [hhalf]

/-- A cycle's first write to PWR.CFG. -/
theorem Chip.regWrite_pwrCfg_first {ch : Chip} {a v : Nat} (hans : ch.answers a) (ha : isPfSb a = true) (hv : v < 2 ^ 32) (h0 : bitsOf v 8 8 ≠ 0)
    (hnone : (ch.regLog.all fun w => w.at' != ch.time) = true) : ch.regWrite a 0x60018 4 v = (ch.cfgWritten a v, cOK) := by
  have hlast : ch.isLast a := List.all_eq_true.2 fun w hw => by simp [bne_iff_ne.1 (List.all_eq_true.1 hnone w hw)]
  have hlog : ch.logAfter a 0x60018 4 v (ch.pwrCfg v).wdg.locked = (ch.cfgWritten a v).regLog := Chip.logAfter_first hnone ..
  rw [Chip.regWrite_done hlast (Chip.writeOnce_pwrCfg hans ha hv h0), hlog]
  rfl

/-- The higher agent's write to PWR.CFG, second in the queue, is performed after the other. -/
theorem Chip.regWrite_pwrCfg_higher {ch : Chip} {e f v u : Nat} (hans : ch.answers f) (hf : isPfSb f = true) (hu : u < 2 ^ 32)
    (hu0 : bitsOf u 8 8 ≠ 0) (hrank : regRank e < regRank f) :
    ∃ w, (ch.cfgWritten e v).regWrite f 0x60018 4 u = ({ ch.pwrCfg u with regLog := w }, cOK) := by
  have hlast : (ch.cfgWritten e v).isLast f := by simp [Chip.isLast, Chip.cfgWritten, Nat.le_of_lt hrank]
  have hdone := Chip.regWrite_done hlast (Chip.writeOnce_pwrCfg (ch := ch.cfgWritten e v) hans hf hu hu0)
  exact ⟨_, hdone⟩

/-- The lower agent's write to PWR.CFG, second in the queue, is performed before the other, which stands again (R971). -/
theorem Chip.regWrite_pwrCfg_lower {ch : Chip} {e f v d : Nat} {b : Bool} (hanse : ch.answers e) (hansf : ch.answers f) (he : isPfSb e = true)
    (hf : isPfSb f = true) (hv : v < 2 ^ 32) (hv0 : bitsOf v 8 8 ≠ 0) (hd0 : 0 < d) (hd : d < 256) (hrank : regRank e < regRank f) :
    ∃ w, (ch.cfgWritten f (256 * d + b2n b)).regWrite e 0x60018 4 v = ({ ch.pwrCfg (256 * d + b2n b) with regLog := w }, cOK) := by
  obtain ⟨hbits, -, hlt⟩ := pwrCfg_value hd b
  have hholds := ch.cfgWritten_holdsValue f hd b
  generalize 256 * d + b2n b = u at *
  have hu0 : bitsOf u 8 8 ≠ 0 := by omega
  have hlater : (ch.cfgWritten f u).laterWrites e 0x60018 4 = (ch.cfgWritten f u).regLog := by
    rw [Chip.laterWrites, List.filter_eq_self.2 fun w hw => ?_]
    · exact List.mergeSort_singleton _
    · obtain rfl := List.mem_singleton.1 hw
      have htime : (ch.cfgWritten f u).time = ch.time := rfl
      simp [RegWrite.after, hrank, hholds, htime]
  have hdone := Chip.regWrite_before hlater rfl (Chip.writeOnce_pwrCfg (ch := ch.cfgWritten f u) hanse he hv hv0)
    (Chip.writeOnce_pwrCfg (ch := (ch.cfgWritten f u).pwrCfg v) hansf hf hlt hu0)
  have hagain : ((ch.cfgWritten f u).pwrCfg v).pwrCfg u = ch.cfgWritten f u := rfl
  rw [hdone, hagain]
  exact ⟨_, rfl⟩

/-- Of two writes of one cycle to PWR.CFG the higher agent's, `f`, comes second, whichever stood first in the queue (R971). -/
theorem Chip.regWrite_pwrCfg_order {ch : Chip} {d v e f : Nat} {b : Bool} (hanse : ch.answers e) (hansf : ch.answers f)
    (he : isPfSb e = true) (hf : isPfSb f = true) (hrank : regRank e < regRank f) (hd0 : 0 < d) (hd : d < 256) (hv : v < 2 ^ 32)
    (hv0 : bitsOf v 8 8 ≠ 0) (hnone : (ch.regLog.all fun w => w.at' != ch.time) = true) :
    let mine := fun (x : Chip) => x.regWrite f 0x60018 4 (256 * d + b2n b)
    let other := fun (x : Chip) => x.regWrite e 0x60018 4 v
    (mine ch).2 = cOK ∧ (other (mine ch).1).2 = cOK ∧
    (other (mine ch).1).1.pwr = { ch.pwr with idleDelay := d, autoIdle := b } ∧
    (mine (other ch).1).1.pwr = { ch.pwr with idleDelay := d, autoIdle := b } := by
  intro mine other
  obtain ⟨hbits, hbit, hlt⟩ := pwrCfg_value hd b
  have hu0 : bitsOf (256 * d + b2n b) 8 8 ≠ 0 := by omega
  have hpwr : (ch.pwrCfg (256 * d + b2n b)).pwr = { ch.pwr with idleDelay := d, autoIdle := b } := by
    rw [Chip.pwrCfg, hbits, hbit]
  have hmine : mine ch = (ch.cfgWritten f (256 * d + b2n b), cOK) := Chip.regWrite_pwrCfg_first hansf hf hlt hu0 hnone
  have hother : other ch = (ch.cfgWritten e v, cOK) := Chip.regWrite_pwrCfg_first hanse he hv hv0 hnone
  obtain ⟨w, hlower⟩ : ∃ w, other (mine ch).1 = ({ ch.pwrCfg (256 * d + b2n b) with regLog := w }, cOK) :=
    hmine ▸ Chip.regWrite_pwrCfg_lower hanse hansf he hf hv hv0 hd0 hd hrank
  obtain ⟨w', hhigher⟩ : ∃ w, mine (other ch).1 = ({ ch.pwrCfg (256 * d + b2n b) with regLog := w }, cOK) :=
    hother ▸ Chip.regWrite_pwrCfg_higher hansf hf hlt hu0 hrank
  rw [hlower, hhigher, hmine]
  exact ⟨rfl, rfl, hpwr, hpwr⟩

/-! ### Register reads (R966 to R969, R982) -/

/-- The chip after a read: fc runs for a unit block, TIME's latch is gone, and a read of TIME's lower half takes a new one (R102, R982). -/
def Chip.afterRead (ch : Chip) (a : Nat) (b : Block) (o size : Nat) : Chip :=
  let d := (ch.wakeFor b).unlatch a b
  if b == .chip && o == 0x20 && size == 4 then { d with timeLatch := (a, ch.half .chip 0x24) :: d.timeLatch } else d

theorem Chip.regRead_misplaced {ch : Chip} {a off size e : Nat} (ha : ch.answers a) (hp : ch.regPlace off size false = .error e) :
    ch.regRead a off size = (ch, e, 0) := by
  rw [Chip.regRead, if_neg ha.check, hp]

/-- A read of 4 bytes that no check refuses. -/
theorem Chip.regRead_word {ch : Chip} {a off : Nat} {b : Block} {o : Nat} (ha : ch.answers a) (hp : ch.regPlace off 4 false = .ok (b, o))
    (hr : (ch.wakeFor b).readRefusal a b o = cOK) : ch.regRead a off 4 = (ch.afterRead a b o 4, cOK, (ch.wakeFor b).readHalf a b o 4) := by
  rw [Chip.regRead, if_neg ha.check, hp]
  simp only [hr]
  rfl

/-- A read leaves the side-band's registers. -/
theorem Chip.regRead_sb (ch : Chip) (a off size : Nat) : (ch.regRead a off size).1.sb = ch.sb := by
  have hafter : ∀ b o, (ch.afterRead a b o size).sb = ch.sb := fun b o => by
    obtain ⟨w, -, _, _, _, _, _, hw⟩ := ch.wakeFor_cases b
    obtain ⟨l, hl⟩ := (ch.wakeFor b).unlatch_cases a b
    rw [Chip.afterRead, hl, hw]
    split <;> rfl
  unfold Chip.regRead
  split
  · rfl
  split
  · rfl
  next b o _ => exact (congrArg Chip.sb ((apply_ite Prod.fst _ _ _).trans (ite_self (ch.afterRead a b o size)))).trans (hafter b o)

/-- Every agent may read CHIP (R110, R976). -/
theorem Chip.mayRead_chip (ch : Chip) (a o : Nat) : ch.mayRead a .chip o = true := by
  unfold Chip.mayRead
  split
  · rfl
  · simp [Chip.holds, Chip.regHolder]

/-- A read of TIME's lower half latches the upper one (R982). -/
theorem Chip.regRead_time {ch : Chip} {a : Nat} (ha : ch.answers a) :
    ∃ l, ch.regRead a 0x20 4 = ({ ch with timeLatch := (a, ch.time / 2 ^ 32 % 2 ^ 32) :: l }, cOK, ch.time % 2 ^ 32) := by
  have hr : (ch.wakeFor .chip).readRefusal a .chip 0x20 = cOK := by
    simp [Chip.readRefusal, Chip.regAbsent, Chip.mayRead_chip, Chip.unitAsleep, Block.isUnit]
  have hlow : ch.half .chip 0x20 = ch.time % 2 ^ 32 := by
    change bitsOf (ch.time % 2 ^ 64) 0 32 = _
    rw [bitsOf, Nat.shiftRight_eq_div_pow]
    omega
  have hhigh : ch.half .chip 0x24 = ch.time / 2 ^ 32 % 2 ^ 32 := by
    change bitsOf (ch.time % 2 ^ 64) 32 32 = _
    rw [bitsOf, Nat.shiftRight_eq_div_pow]
    omega
  rw [Chip.regRead_word ha (ch.regPlace_read (b := .chip) (o := 0x20) ⟨.inl rfl, rfl⟩ rfl) hr, ← hhigh, ← hlow]
  exact ⟨_, rfl⟩

/-- A read of CORE.STATE by the side-band or the test access port in Idle starts fc and is answered (R102, R110). -/
theorem Chip.regRead_core_idle {ch : Chip} {a k : Nat} (ha : ch.answers a) (hsb : isSb a = true) (hk : k < 64) (hidle : ch.pwr.state = .idle) :
    ∃ v, ch.regRead a (0x300000 + 0x1000 * k) 4 = (ch.leaveIdle, cOK, v) := by
  obtain ⟨w, -, hw, _, _, _, _, _, hx⟩ := ch.leaveIdle_cases
  have hstate : ch.leaveIdle.pwr.state = .active := by rw [hx]; exact hw.trans (if_pos hidle)
  have hr : (ch.wakeFor (.core k)).readRefusal a (.core k) 0 = cOK := by
    change ch.leaveIdle.readRefusal a (.core k) 0 = cOK
    simp [Chip.readRefusal, Chip.mayRead, hsb, Chip.unitAsleep, hstate, Chip.debugCode]
  exact ⟨_, Chip.regRead_word ha (ch.regPlace_read ⟨.inl rfl, by omega⟩ (blockOf_core hk (by decide))) hr⟩

/-! ### A core arms its context (R555) -/

/-- The place of context `x` in the array of POD.SE_CTX_ARM. -/
theorem regIx_ctxArm {x : Nat} (hx : x < 32) : regIx (0x1010 + 0x20 * x) 0x1000 0x20 32 0x10 = some x := by
  have hin : (0x1000 ≤ 0x1010 + 0x20 * x && 0x1010 + 0x20 * x < 0x1000 + 0x20 * 32 && (0x1010 + 0x20 * x - 0x1000) % 0x20 == 0x10 : Bool) = true := by
    simp only [Bool.and_eq_true, decide_eq_true_eq, beq_iff_eq]
    omega
  have hdiv : (0x1010 + 0x20 * x - 0x1000) / 0x20 = x := by omega
  rw [regIx, if_pos hin, hdiv]

/-- POD.SE_CTX_ARM of a context is 64 bits wide. -/
theorem Chip.wide_ctxArm (ch : Chip) (d : Nat) {x : Nat} (hx : x < 32) : ch.wide (.pod d) (0x1010 + 0x20 * x) = true := by
  have hfloor : (0x1010 + 0x20 * x) / 8 * 8 = 0x1010 + 0x20 * x := by omega
  have hreg : (ch.pod d).reg64 (0x1010 + 0x20 * x) = some 0 := by
    unfold Pod.reg64
    split
    case h_7 => rw [regIx_ctxArm hx, Option.map_some]
    all_goals omega
  rw [Chip.wide, hfloor, Chip.reg64, hreg, Option.isSome_some]

/-- Everything that arming a context can answer. -/
theorem Chip.ctxArm_cases (ch : Chip) (k d x far : Nat) : (ch.ctxArm k d x far).1 = cOK ∨ ch.ctxArm k d x far = (cPERM, ch) := by
  unfold Chip.ctxArm
  dsimp only
  split
  · exact .inr rfl
  split
  · split
    · exact .inl rfl
    · exact .inl rfl
  · exact .inl rfl

/-- A core's 64-bit write to POD.SE_CTX_ARM arms the context, where it may. -/
theorem Chip.write64_ctxArm (ch : Chip) {k x : Nat} (hk : k < 64) (hx : x < 32) (d far : Nat) :
    ch.write64 k (.pod d) (0x1010 + 0x20 * x) far = if (ch.ctxArm k d x far).1 = cOK then .ok (ch.ctxArm k d x far).2 else .error cPERM := by
  simp only [Chip.write64, regIx_ctxArm hx, if_pos hk]
  rcases ch.ctxArm_cases k d x far with hok | hperm
  · generalize ch.ctxArm k d x far = r at hok
    obtain ⟨e, y⟩ := r
    subst hok
    rfl
  · rw [hperm]
    rfl

/-- A core is neither the side-band nor the test access port, nor a function of the host. -/
theorem core_agent {k : Nat} (hk : k < 64) : (k == agSB) = false ∧ (k == agTAP) = false ∧ (k == agPF || isVf k) = false := by
  have hvf : isVf k = false := by
    rw [isVf, Bool.and_eq_false_iff]
    exact .inl (decide_eq_false (by omega))
  exact ⟨beq_false_of_ne (show k ≠ 0x90 by omega), beq_false_of_ne (show k ≠ 0x91 by omega),
    by rw [hvf, Bool.or_false]; exact beq_false_of_ne (show k ≠ 0x80 by omega)⟩

/-- A core's write to POD.SE_CTX_ARM of a chip in Active arms the context, or is refused with PERM. -/
theorem Chip.writeOnce_ctxArm {ch : Chip} {k d x : Nat} (hk : k < 64) (hd : d < 8) (hx : x < 32)
    (habs : ch.regAbsent (.pod d) (0x1010 + 0x20 * x) = false) (hactive : ch.pwr.state = .active) (far : Nat) :
    ch.writeOnce k (0x200000 + 0x10000 * d + 0x1010 + 0x20 * x) 8 far =
      if (ch.ctxArm k d x far).1 = cOK then ((ch.ctxArm k d x far).2, cOK) else (ch, cPERM) := by
  obtain ⟨hsb', htap, -⟩ := core_agent hk
  have hsb : isSb k = false := by rw [isSb, hsb', htap, Bool.or_self]
  have hans : ch.answers k := fun h => absurd h (by simp [hsb])
  have hoff : 0x200000 + 0x10000 * d + 0x1010 + 0x20 * x = 0x200000 + 0x10000 * d + (0x1010 + 0x20 * x) := Nat.add_assoc ..
  have hp : ch.regPlace (0x200000 + 0x10000 * d + 0x1010 + 0x20 * x) 8 true = .ok (.pod d, 0x1010 + 0x20 * x) :=
    Chip.regPlace_write ⟨.inr rfl, by omega⟩ (hoff ▸ blockOf_pod hd (by omega)) fun h => absurd h (by decide)
  have hreached : ch.reached k (.pod d) = ch := Chip.leaveIdle_of_ne (show ch.pwr.state ≠ .idle by simp [hactive])
  have hput : (ch.reached k (.pod d)).putResult k (.pod d) (0x1010 + 0x20 * x) 8 far =
      forAgent k (.pod d) (0x1010 + 0x20 * x) far ch (ch.write64 k (.pod d) (0x1010 + 0x20 * x) far) := by
    simp [hreached, Chip.putResult, Chip.unitAsleep, hactive, Chip.regPut, Chip.absentAll, habs, Chip.wide_ctxArm ch d hx]
  rw [Chip.write64_ctxArm ch hk hx] at hput
  split
  case isTrue hok =>
    rw [if_pos hok, forAgent_ok rfl] at hput
    exact Chip.writeOnce_done hans hp hput
  case isFalse hperm =>
    have hrefused : forAgent k (.pod d) (0x1010 + 0x20 * x) far ch (.error cPERM) = .error cPERM := by simp [forAgent, htap, hsb]
    rw [if_neg hperm, hrefused] at hput
    rw [Chip.writeOnce_refused hans hp hput, hreached]

/-- A core learns nothing of a write that is performed. -/
theorem Chip.reportWrite_core (ch : Chip) {k : Nat} (hk : k < 64) (off size : Nat) : ch.reportWrite k off size cOK = ch := by
  obtain ⟨hsb, -, -⟩ := core_agent hk
  simp [Chip.reportWrite, hsb]

/-- A core learns the code of a write that is refused (R966). -/
theorem Chip.reportWrite_core_refused (ch : Chip) {k code : Nat} (hk : k < 64) (hcode : code ≠ cOK) (off size : Nat) :
    (ch.reportWrite k off size code).out.head? = some (.value k code 0) := by
  obtain ⟨hsb, htap, hhost⟩ := core_agent hk
  simp [Chip.reportWrite, hsb, htap, hhost, hcode, Chip.emit]

/-! ### Transactions of the side-band (R96, R103 to R113) -/

/-- The chip once its side-band has taken a transaction (R717). -/
def Chip.sbServed (ch : Chip) : Chip := { ch with sb := { ch.sb with served := ch.time } }

/-- The command is a transaction of the side-band, which the chip that has the address serves by `f`. -/
def SideBandBy (i : Sys2Proof.Instr) (addr : Nat) (f : Chip → Chip) : Prop := ∀ s, exec i s = onSideBand addr f s

theorem onSideBand_chip {s : State} {addr c : Nat} {ch : Chip} (hi : (s.chips.findIdx? fun x => x.sbAddress == addr) = some c)
    (hc : s.chips[c]? = some ch) (f : Chip → Chip) : onSideBand addr f s = .next (s.withChip c (ch.sbServe f)) := by
  rw [onSideBand, hi]
  exact onChip_some hc _

/-- A chip that runs serves the transaction. -/
theorem SideBandBy.serves {i : Sys2Proof.Instr} {addr : Nat} {f : Chip → Chip} (h : SideBandBy i addr f) {post : Chip → Chip → Prop}
    (hf : ∀ ch : Chip, post ch (f ch.sbServed)) : AtAddress i addr (fun ch => ch.alive = true) post := fun s c ch hi hc hon =>
  ⟨f ch.sbServed, by rw [h s, onSideBand_chip hi hc, Chip.sbServe, if_pos hon]; rfl, hf ch⟩

/-- A chip that does not run does not acknowledge. -/
theorem SideBandBy.refuses {i : Sys2Proof.Instr} {addr : Nat} {f : Chip → Chip} (h : SideBandBy i addr f) :
    AtAddress i addr (fun ch => ch.alive = false) fun ch ch' => ch' = ch.emit .sideBandNack := fun s c ch hi hc hoff =>
  ⟨_, by rw [h s, onSideBand_chip hi hc, Chip.sbServe, if_neg (by simp [hoff])], rfl⟩

/-- An address that no chip has is not answered (R96). -/
theorem SideBandBy.unanswered {i : Sys2Proof.Instr} {addr : Nat} {f : Chip → Chip} (h : SideBandBy i addr f) {s : State}
    (hno : ∀ ch ∈ s.chips, 0x40 + ch.boot.straps ≠ addr) : exec i s = .next s := by
  have hidx : (s.chips.findIdx? fun x => x.sbAddress == addr) = none :=
    List.findIdx?_eq_none_iff.2 fun ch hch => beq_false_of_ne (hno ch hch)
  rw [h s, onSideBand, hidx]

/-! ### The record and the resets under the side-band (R106, R111, R836)

The record at work and an event hold no window and release none: `held` stays, operation by operation. -/

theorem Record.startWrite_held (r : Record) : r.startWrite.held = r.held := by
  unfold Record.startWrite
  split <;> rfl

theorem Record.close_held (r : Record) (now flags : Nat) : (r.close now flags).held = r.held := by
  unfold Record.close
  split
  · rfl
  · exact Record.startWrite_held _

theorem Record.pump_held (now n : Nat) (r : Record) : (Record.pump now n r).held = r.held := by
  induction n generalizing r with
  | zero => rfl
  | succ n ih =>
    unfold Record.pump
    split
    · rfl
    split
    · rfl
    dsimp only
    split
    · rw [ih]
      split
      · rw [Record.close_held]
      · rfl
    · rw [ih]

theorem Record.closeSums_held (r : Record) : r.closeSums.held = r.held := by
  unfold Record.closeSums
  extract_lets r1
  have h1 : r1.held = r.held := by
    unfold r1
    split
    · split <;> rfl
    · rfl
  split
  · refine List.foldlRecOn (motive := fun x : Record => x.held = r.held) _ _ h1 fun a ha c _ => ?_
    split <;> exact ha
  · exact h1

theorem Record.work_held (r : Record) (now : Nat) : (r.work now).held = r.held := by
  rw [Record.work, Record.pump_held, Record.closeSums_held, Record.pump_held, Record.startWrite_held]

theorem Record.take_held (r : Record) (e : Entry) : (r.take e).held = r.held := by
  unfold Record.take
  split
  · rfl
  split
  · split <;> rfl
  · split <;> rfl

theorem Record.raise_held (r : Record) (e : Entry) : (r.raise e).held = r.held := by
  unfold Record.raise
  split
  · split
    · rfl
    · exact r.take_held e
  · exact r.take_held e

/-- An event holds no window and releases none. -/
theorem Chip.ev_held (ch : Chip) (id cls agent part code arg0 arg1 level : Nat) :
    (ch.ev id cls agent part code arg0 arg1 level).ler.held = ch.ler.held := by
  have hwork : ∀ r, (ch.lerWork r).ler.held = r.held := fun r => by
    unfold Chip.lerWork
    dsimp only
    split
    · exact r.work_held ch.time
    · exact r.work_held ch.time
  unfold Chip.ev Chip.event
  rw [Chip.modPart_ler, hwork, Record.raise_held]

/-- A release keeps no window that has been written (R836). -/
theorem Chip.lerRelease_held (ch : Chip) (a : Nat) : (ch.lerRelease a).ler.held = ch.ler.held.filter fun w => ch.ler.newestSeq < w.1 :=
  Chip.ev_held ..

/-- A message to the twin changes links and what has been sent outwards (R717). -/
theorem Chip.sendFail_cases (ch : Chip) (mask cause : Nat) : ∃ l o, ch.sendFail mask cause = { ch with links := l, out := o } := by
  unfold Chip.sendFail Chip.twinSend
  dsimp only
  split
  · exact ⟨ch.links, ch.out, rfl⟩
  split
  · exact ⟨_, _, rfl⟩
  · exact ⟨_, _, rfl⟩
  · exact ⟨ch.links, ch.out, rfl⟩

/-- A reset that is asked for while none waits waits, and leaves memory and cores (R111, R945). -/
theorem Chip.askReset_first {ch : Chip} (hnone : ch.boot.pendingReset = none) (k : ResetKind) :
    (ch.askReset k).boot.pendingReset = some k ∧ (ch.askReset k).mem = ch.mem ∧ (ch.askReset k).cores = ch.cores := by
  have hsent : ∃ l o, (if k == .pin then ch else ch.sendFail 0xFF failReset) = { ch with links := l, out := o } := by
    split
    · exact ⟨ch.links, ch.out, rfl⟩
    · exact ch.sendFail_cases ..
  obtain ⟨l, o, hsent⟩ := hsent
  simp only [Chip.askReset, hnone, hsent, and_self]

/-! ### The commands of the side-band -/

theorem sbAddr_by (c off : Nat) : SideBandBy (.sbAddr c off) c fun x =>
    if off < 0x1000000 then { x with sb := { x.sb with addr := off } } else x.sbError cBOUNDS := fun _ => rfl

theorem lerFrame_by (c n : Nat) : SideBandBy (.lerFrame c n) c fun x =>
    if n < 4096 then { x with sb := { x.sb with frame := n, pos := 0 } } else x.sbError cBOUNDS := fun _ => rfl

theorem lerRelease_by (c v : Nat) : SideBandBy (.lerRelease c v) c fun x =>
    if v == 1 then x.lerRelease agSB else x.sbError cBOUNDS := fun _ => rfl

theorem sbReset_by (c kind key : Nat) : SideBandBy (.sbReset c kind key) c fun x => x.sbReset kind key := fun _ => rfl

theorem sbStatus_by (c : Nat) : SideBandBy (.sbStatus c) c fun x => (x.sbError cOK).emit (.sideBand x.sbStatus) := fun _ => rfl

/-- The side-band's answer to LER_READ, and its read position after it (R106, R838). -/
def Chip.lerReadAnswer (x : Chip) : Chip :=
  if x.slotBusy x.sb.frame then x.emit (.sideBand (cBUSY :: List.replicate 32 0))
  else
    let r := x.slotBytes x.sb.frame
    let data := if r.2.1 == cOK then sliceB r.2.2 (32 * x.sb.pos) 32 else List.replicate 32 0
    ({ r.1 with sb := r.1.sb.advance } : Chip).emit (.sideBand (r.2.1 :: data))

theorem lerRead_by (c : Nat) : SideBandBy (.lerRead c) c Chip.lerReadAnswer := fun _ => rfl

/-- DATA32 and DATA64, as Block Reads. -/
theorem sbRead_by {i : Nat → Sys2Proof.Instr} {size : Nat} (hi : (i = .sbData32Read ∧ size = 4) ∨ (i = .sbData64Read ∧ size = 8)) (c : Nat) :
    SideBandBy (i c) c fun x => x.sbRead size := by
  rcases hi with ⟨rfl, rfl⟩ | ⟨rfl, rfl⟩
  · exact fun _ => rfl
  · exact fun _ => rfl

/-- DATA32 and DATA64, as Block Writes. -/
theorem sbWrite_by {i : Nat → Nat → Sys2Proof.Instr} {size : Nat} (hi : (i = .sbData32Write ∧ size = 4) ∨ (i = .sbData64Write ∧ size = 8))
    (c v : Nat) : SideBandBy (i c v) c fun x => x.sbWrite size v := by
  rcases hi with ⟨rfl, rfl⟩ | ⟨rfl, rfl⟩
  · exact fun _ => rfl
  · exact fun _ => rfl

/-- Every command of the side-band is a transaction of it (R103). -/
theorem sideBand_by {i : Nat → Sys2Proof.Instr} (h : (∃ x, i = (.sbAddr · x)) ∨ (∃ x, i = (.lerFrame · x)) ∨ (∃ x, i = (.lerRelease · x)) ∨
    i = .sbData32Read ∨ i = .sbData64Read ∨ (∃ x, i = (.sbData32Write · x)) ∨ (∃ x, i = (.sbData64Write · x)) ∨ i = .lerRead ∨
    (∃ x y, i = (.sbReset · x y)) ∨ i = .sbStatus) (c : Nat) : ∃ f, SideBandBy (i c) c f := by
  rcases h with ⟨x, rfl⟩ | ⟨x, rfl⟩ | ⟨x, rfl⟩ | rfl | rfl | ⟨x, rfl⟩ | ⟨x, rfl⟩ | rfl | ⟨x, y, rfl⟩ | rfl
  · exact ⟨_, sbAddr_by c x⟩
  · exact ⟨_, lerFrame_by c x⟩
  · exact ⟨_, lerRelease_by c x⟩
  · exact ⟨_, sbRead_by (.inl ⟨rfl, rfl⟩) c⟩
  · exact ⟨_, sbRead_by (.inr ⟨rfl, rfl⟩) c⟩
  · exact ⟨_, sbWrite_by (.inl ⟨rfl, rfl⟩) c x⟩
  · exact ⟨_, sbWrite_by (.inr ⟨rfl, rfl⟩) c x⟩
  · exact ⟨_, lerRead_by c⟩
  · exact ⟨_, sbReset_by c x y⟩
  · exact ⟨_, sbStatus_by c⟩

/-- A DATA32 or DATA64 read moves ADDR on and answers the register's bytes; its violation changes neither memory nor cores (R104, R107). -/
theorem Chip.sbRead_result (x : Chip) (size : Nat) :
    let r := x.regRead agSB x.sb.addr size
    (x.sbRead size).sb.addr = (x.sb.addr + size) % 2 ^ 32 ∧ (x.sbRead size).sb.lastError = r.1.sb.lastError ∧
    (x.sbRead size).mem = r.1.mem ∧ (x.sbRead size).cores = r.1.cores ∧
    (x.sbRead size).out.head? = some (.sideBand (r.2.1 :: leBytes size r.2.2)) := by
  intro r
  have hnoted : r.1.Noted (r.1.violateIf agSB 0xFF vRegRead r.2.1 x.sb.addr true) := .violateIf (.refl _) ..
  have hread : x.sbRead size = ((r.1.violateIf agSB 0xFF vRegRead r.2.1 x.sb.addr true).sbStep size).emit (.sideBand (r.2.1 :: leBytes size r.2.2)) := rfl
  have hsb : r.1.sb = x.sb := x.regRead_sb ..
  obtain ⟨_, _, _, _, _, hv⟩ := hnoted
  rw [hread, hv, ← hsb]
  exact ⟨rfl, rfl, rfl, rfl, rfl⟩

/-- A DATA32 or DATA64 write that is performed moves ADDR on (R104). -/
theorem Chip.sbWrite_done {x : Chip} {size v : Nat} (h : (x.regWrite agSB x.sb.addr size v).2 = cOK) :
    let y := (x.regWrite agSB x.sb.addr size v).1
    x.sbWrite size v = { y with sb := { y.sb with served := y.time, addr := (y.sb.addr + size) % 2 ^ 32 } } := by
  unfold Chip.sbWrite
  simp only [h]
  rfl

/-- A refused write of the side-band is a violation, and notes its code in STATUS byte 1 (R108). -/
theorem Chip.reportWrite_sb_refused (x : Chip) {code : Nat} (h : code ≠ cOK) (off size : Nat) :
    x.reportWrite agSB off size code = (x.sbServed.violateIf agSB (x.sbServed.agentField agSB) vRegWrite code off false).sbError code := by
  have hcode : (code == cOK) = false := beq_false_of_ne h
  have hhost : (agSB == agPF || isVf agSB) = false := rfl
  simp only [Chip.reportWrite, beq_self_eq_true, if_true, hcode, hhost, Bool.false_eq_true, if_false]
  rfl

/-- A code in STATUS byte 1 after what is noted only, and ADDR moved on (R104, R108). -/
theorem Chip.sbError_sbStep_of_noted {x y : Chip} (h : x.Noted y) (code size : Nat) :
    ((y.sbError code).sbStep size).sb.lastError = code ∧ ((y.sbError code).sbStep size).sb.addr = (x.sb.addr + size) % 2 ^ 32 ∧
    ((y.sbError code).sbStep size).mem = x.mem ∧ ((y.sbError code).sbStep size).cores = x.cores := by
  obtain ⟨_, _, _, _, _, rfl⟩ := h
  exact ⟨rfl, rfl, rfl, rfl⟩

/-- A DATA32 or DATA64 write that is refused notes its code, and moves ADDR on (R104, R108). -/
theorem Chip.sbWrite_refused {x : Chip} {size v : Nat} (h : (x.regWrite agSB x.sb.addr size v).2 ≠ cOK) :
    let r := x.regWrite agSB x.sb.addr size v
    (x.sbWrite size v).sb.lastError = r.2 ∧ (x.sbWrite size v).sb.addr = (r.1.sb.addr + size) % 2 ^ 32 ∧
    (x.sbWrite size v).mem = r.1.mem ∧ (x.sbWrite size v).cores = r.1.cores := by
  simp only [Chip.sbWrite, Chip.reportWrite_sb_refused _ h]
  exact Chip.sbError_sbStep_of_noted (.violateIf (.refl _) ..) ..

/-- The slot that LER_READ names is being written (R838). -/
theorem Chip.lerReadAnswer_busy {x : Chip} {f : Frame} (h : x.ler.writing = some (x.sb.frame, f)) :
    x.lerReadAnswer = x.emit (.sideBand (cBUSY :: List.replicate 32 0)) := by
  simp [Chip.lerReadAnswer, Chip.slotBusy, h]

/-- LER_READ of a slot that is not being written: the code and bytes of the slot, and the read position moves on (R106). -/
theorem Chip.lerReadAnswer_idle {x : Chip} (hw : x.ler.writing = none) {code : Nat} {bytes : List Nat}
    (hs : x.slotBytes x.sb.frame = (x, code, bytes)) : x.lerReadAnswer =
      ({ x with sb := x.sb.advance } : Chip).emit
        (.sideBand (code :: if code == cOK then sliceB bytes (32 * x.sb.pos) 32 else List.replicate 32 0)) := by
  have hidle : x.slotBusy x.sb.frame = false := by rw [Chip.slotBusy, hw]
  rw [Chip.lerReadAnswer, hidle, hs]
  rfl

/-- The bytes of a valid frame. -/
theorem Chip.slotBytes_frame {x : Chip} {i : Nat} {f : Frame} (h : x.ler.mram.lookup i = some (.frame f)) :
    x.slotBytes i = (x, cOK, f.bytes) := by
  unfold Chip.slotBytes
  rw [h]

/-- A frame that the MRAM cannot correct (R838). -/
theorem Chip.slotBytes_torn {x : Chip} {i : Nat} (h : x.ler.mram.lookup i = some (.torn true)) :
    x.slotBytes i = (x, cECC, List.replicate 4096 0) := by
  unfold Chip.slotBytes
  rw [h]

/-- RESET of a listed kind with its key asks for that reset (R111). -/
theorem Chip.sbReset_listed (x : Chip) {kind : Nat} (hk : kind = 1 ∨ kind = 2 ∨ kind = 3) :
    x.sbReset kind 0xA5 = x.askReset (if kind = 1 then .warm else if kind = 2 then .cold else .sideband) := by
  rcases hk with rfl | rfl | rfl
  · simp [Chip.sbReset, resetKindOf]
  · simp [Chip.sbReset, resetKindOf]
  · simp [Chip.sbReset, resetKindOf]

/-- RESET of an unlisted kind, or with another key, is BOUNDS (R112). -/
theorem Chip.sbReset_unlisted (x : Chip) {kind key : Nat} (h : ¬ (key = 0xA5 ∧ (kind = 1 ∨ kind = 2 ∨ kind = 3))) :
    x.sbReset kind key = x.sbError cBOUNDS := by
  have hkind : ∀ {k}, resetKindOf kind = some k → kind = 1 ∨ kind = 2 ∨ kind = 3 := fun hk => by
    unfold resetKindOf at hk
    split at hk
    · exact .inl rfl
    · exact .inr (.inl rfl)
    · exact .inr (.inr rfl)
    · exact absurd hk (by simp)
  unfold Chip.sbReset
  split
  next k hk => exact if_neg fun hkey => h ⟨beq_iff_eq.1 hkey, hkind hk⟩
  · rfl

/-- The listed commands without a Block Write (R103). -/
theorem sbCommands_readOnly {code : Nat} {r : Option Nat} (h : sbCommands.lookup code = some (none, r)) : code ∈ [0x21, 0x40] := by
  obtain ⟨l, l', hl, -⟩ := List.lookup_eq_some_iff.1 h
  have hmem : (code, none, r) ∈ sbCommands := hl ▸ List.mem_append_right l List.mem_cons_self
  have hall : ∀ e ∈ sbCommands, e.2.1 = none → e.1 ∈ [0x21, 0x40] := by decide
  exact hall _ hmem rfl

/-- A Block Write with a wrong PEC byte, or a code that is not listed, is not performed (R103, R109). -/
theorem sbBadPec_nack {c code : Nat} (hcode : code ∉ [0x21, 0x40]) :
    AtAddress (.sbBadPec c code) c (fun _ => True) fun ch ch' => ch' = ch.emit .sideBandNack := by
  intro s j ch hi hc _
  refine ⟨_, ?_, rfl⟩
  change execSbBadPec c code s = _
  unfold execSbBadPec
  rw [hi]
  match hl : sbCommands.lookup code with
  | some (none, _) => exact absurd (sbCommands_readOnly hl) hcode
  | some (some _, _) => exact onChip_some hc _
  | none => exact onChip_some hc _

/-! ### The statement -/

/-- ADDR keeps an offset of the register space, and notes BOUNDS for another (R105). -/
theorem sbAddr_result (c off : Nat) : AtAddress (.sbAddr c off) c (fun ch => ch.alive = true) fun ch ch' =>
    ch' = { ch.sbServed with sb := if off < 0x1000000 then { ch.sbServed.sb with addr := off } else { ch.sbServed.sb with lastError := cBOUNDS } } :=
  (sbAddr_by c off).serves fun _ => by split <;> rfl

/-- LER_FRAME selects a slot of the ring, and notes BOUNDS for another (R106). -/
theorem lerFrame_result (c n : Nat) : AtAddress (.lerFrame c n) c (fun ch => ch.alive = true) fun ch ch' =>
    ch' = { ch.sbServed with sb := if n < 4096 then { ch.sbServed.sb with frame := n, pos := 0 } else { ch.sbServed.sb with lastError := cBOUNDS } } :=
  (lerFrame_by c n).serves fun _ => by split <;> rfl

/-- LER_RELEASE with the value 1 releases, and notes BOUNDS for another (R836). -/
theorem lerRelease_result (c v : Nat) : AtAddress (.lerRelease c v) c (fun ch => ch.alive = true) fun ch ch' =>
    if v = 1 then ∀ w ∈ ch'.ler.held, w ∈ ch.ler.held ∧ ch.ler.newestSeq < w.1 else ch' = ch.sbServed.sbError cBOUNDS :=
  (lerRelease_by c v).serves fun ch => by
    by_cases hv : v = 1
    · simp only [hv, beq_self_eq_true, if_true, Chip.lerRelease_held]
      exact fun w hw => ⟨(List.mem_filter.1 hw).1, of_decide_eq_true (List.mem_filter.1 hw).2⟩
    · rw [if_neg hv, if_neg (by simpa using hv)]

/-- LER_READ (R106, R838). -/
theorem lerRead_result (c : Nat) : AtAddress (.lerRead c) c (fun ch => ch.alive = true) fun ch ch' =>
    (∀ f, ch.ler.writing = some (ch.sb.frame, f) → ch'.sb = ch.sbServed.sb ∧ ch'.out = .sideBand (cBUSY :: List.replicate 32 0) :: ch.out) ∧
    (ch.ler.writing = none → ∀ f, ch.ler.mram.lookup ch.sb.frame = some (.frame f) →
      ch'.out = .sideBand (cOK :: sliceB f.bytes (32 * ch.sb.pos) 32) :: ch.out ∧
      (ch.sb.pos + 1 < 128 → ch'.sb.pos = ch.sb.pos + 1 ∧ ch'.sb.frame = ch.sb.frame) ∧
      (128 ≤ ch.sb.pos + 1 → ch'.sb.pos = 0 ∧ ch'.sb.frame = (ch.sb.frame + 1) % 4096)) ∧
    (ch.ler.writing = none → ch.ler.mram.lookup ch.sb.frame = some (.torn true) →
      ch'.out = .sideBand (cECC :: List.replicate 32 0) :: ch.out) :=
  (lerRead_by c).serves fun ch => by
    refine ⟨fun f hf => ?_, fun hw f hf => ?_, fun hw hf => ?_⟩
    · rw [Chip.lerReadAnswer_busy (x := ch.sbServed) hf]
      exact ⟨rfl, rfl⟩
    · rw [Chip.lerReadAnswer_idle (x := ch.sbServed) hw (Chip.slotBytes_frame hf)]
      refine ⟨rfl, fun hpos => ?_, fun hpos => ?_⟩
      · have hnext : ch.sbServed.sb.advance = { ch.sbServed.sb with pos := ch.sb.pos + 1 } := if_pos hpos
        rw [Chip.emit_sb, hnext]
        exact ⟨rfl, rfl⟩
      · have hnext : ch.sbServed.sb.advance = { ch.sbServed.sb with pos := 0, frame := (ch.sb.frame + 1) % 4096 } := if_neg (Nat.not_lt.2 hpos)
        rw [Chip.emit_sb, hnext]
        exact ⟨rfl, rfl⟩
    · rw [Chip.lerReadAnswer_idle (x := ch.sbServed) hw (Chip.slotBytes_torn hf)]
      rfl

/-- RESET (R111, R112). -/
theorem sbReset_result (c kind key : Nat) : AtAddress (.sbReset c kind key) c (fun ch => ch.alive = true) fun ch ch' =>
    let ok := key = 0xA5 ∧ (kind = 1 ∨ kind = 2 ∨ kind = 3)
    (ok → ch.boot.pendingReset = none →
      ch'.boot.pendingReset = some (if kind = 1 then .warm else if kind = 2 then .cold else .sideband) ∧ ch'.mem = ch.mem ∧ ch'.cores = ch.cores) ∧
    (¬ ok → ch' = ch.sbServed.sbError cBOUNDS) :=
  (sbReset_by c kind key).serves fun ch => by
    refine ⟨fun ⟨hkey, hkind⟩ hnone => ?_, fun hbad => ch.sbServed.sbReset_unlisted hbad⟩
    rw [hkey, ch.sbServed.sbReset_listed hkind]
    exact Chip.askReset_first (ch := ch.sbServed) hnone _

/-- STATUS gives its nine bytes and clears byte 1 (R113). -/
theorem sbStatus_result (c : Nat) : AtAddress (.sbStatus c) c (fun ch => ch.alive = true) fun ch ch' =>
    ch'.sb.lastError = cOK ∧
    ch'.out = .sideBand ([cOK, ch.sb.lastError, ch.stateByte, 0] ++ leBytes 4 ch.wdg.heartbeat ++ [ch.ler.bootCount % 256]) :: ch.out :=
  (sbStatus_by c).serves fun _ => ⟨rfl, rfl⟩

/-- A write to PWR.CFG by the physical function or the side-band (R892). -/
theorem registerWrite_pwrCfg (c a v : Nat) (ha : pfOrSb a) :
    Makes (.registerWrite c a 0x60018 4 v) c (fun ch => ch.takesFrom a = true ∧ v < 2 ^ 32)
      fun ch ch' => if bitsOf v 8 8 = 0 then ch'.pwr = ch.pwr else ch'.pwr = { ch.pwr with idleDelay := bitsOf v 8 8, autoIdle := bitOf v 0 } := by
  rintro s ch hc ⟨htakes, hv⟩
  obtain ⟨hup, hans, hlast⟩ := (ch.takesFrom_iff a).1 htakes
  have hwho : isPfSb a = true := by
    rcases ha with rfl | rfl
    · rfl
    · rfl
  refine ⟨_, regRow_up hc hup .., ?_⟩
  simp only [Chip.reportWrite_pwr]
  split
  case isTrue h0 => rw [Chip.regWrite_error hlast (Chip.writeOnce_pwrCfg_bounds hans hwho hv h0) (by decide)]
  case isFalse h0 =>
    rw [Chip.regWrite_done hlast (Chip.writeOnce_pwrCfg hans hwho hv h0)]
    rfl

/-- A write to PWR.FC is performed and changes nothing of the chip's registers (R966). -/
theorem registerWrite_pwrFc (c a v : Nat) : Makes (.registerWrite c a 0x60004 4 v) c (fun ch => ch.takesFrom a = true)
    fun ch ch' => ch'.pwr = ch.pwr ∧ ch.Kept ch' := by
  intro s ch hc htakes
  obtain ⟨hup, hans, hlast⟩ := (ch.takesFrom_iff a).1 htakes
  have hdone := Chip.regWrite_done hlast (Chip.writeOnce_pwrFc hans v)
  refine ⟨_, regRow_up hc hup .., ?_, Chip.kept_reportWrite ?_ ..⟩
  · rw [Chip.reportWrite_pwr, hdone]
  · rw [hdone]
    exact .refl ch

/-- A read of TIME's lower half (R982). -/
theorem timeLowRead_result (c a : Nat) : Makes (.timeLowRead c a) c (fun ch => ch.takesFrom a = true ∧ (a < 0x40 ∨ pfOrSb a)) fun ch ch' =>
    ch'.out = .value a cOK (ch.time % 2 ^ 32) :: ch.out ∧ ch'.timeLatch.lookup a = some (ch.time / 2 ^ 32 % 2 ^ 32) ∧ ch'.time = ch.time ∧
    ch.Kept ch' := by
  rintro s ch hc ⟨htakes, -⟩
  obtain ⟨hup, hans, -⟩ := (ch.takesFrom_iff a).1 htakes
  obtain ⟨l, hread⟩ := Chip.regRead_time hans
  refine ⟨_, onChip_some hc _, ?_⟩
  rw [if_neg (by simp [hup]), hread]
  exact ⟨rfl, List.lookup_cons_self, rfl, .refl ch⟩

/-- A read of a core's registers by the side-band or the test access port ends Idle (R102). -/
theorem unitBlockAccessIdle_core (c a k : Nat) : Makes (.unitBlockAccessIdle c a (0x300000 + 0x1000 * k) 4) c
    (fun ch => k < 64 ∧ isSb a = true ∧ ch.takesFrom a = true ∧ ch.pwr.state = .idle) fun ch ch' =>
      ch'.pwr.state = .active ∧ ch'.mem = ch.mem ∧ ch'.cores = ch.cores ∧ ∃ v, ch'.out.head? = some (.value a cOK v) := by
  rintro s ch hc ⟨hk, hsb, htakes, hidle⟩
  obtain ⟨hup, hans, -⟩ := (ch.takesFrom_iff a).1 htakes
  obtain ⟨v, hread⟩ := Chip.regRead_core_idle hans hsb hk hidle
  have hblock : blockOf (0x300000 + 0x1000 * k) = some (.core k, 0) := blockOf_core (o := 0) hk (by decide)
  have hhost : (a == agPF || isVf a) = false := by
    simp only [isSb, Bool.or_eq_true, beq_iff_eq] at hsb
    rcases hsb with rfl | rfl
    · decide
    · decide
  have hexec : exec (.unitBlockAccessIdle c a (0x300000 + 0x1000 * k) 4) s = .next (s.withChip c (ch.leaveIdle.emit (.value a cOK v))) := by
    refine (onChip_some hc _).trans ?_
    simp [hup, hidle, hread, hhost, hblock, Block.isUnit]
  obtain ⟨w, -, hw, _, _, _, _, _, hwoken⟩ := ch.leaveIdle_cases
  refine ⟨_, hexec, ?_⟩
  rw [hwoken]
  exact ⟨hw.trans (if_pos hidle), rfl, rfl, v, rfl⟩

/-- A core's write to POD.SE_CTX_ARM (R555). -/
theorem seCtxArmWrite_result (c k d x far : Nat) : Makes (.seCtxArmWrite c k d x far) c (fun ch => ch.takesFrom k = true ∧ k < 64 ∧ d < 8 ∧
      x < 32 ∧ far < 2 ^ 64 ∧ ch.regAbsent (.pod d) (0x1010 + 0x20 * x) = false ∧ ch.pwr.state = .active)
    fun ch ch' => ((ch.ctxArm k d x far).1 = cOK → ∃ w, ch' = { (ch.ctxArm k d x far).2 with regLog := w }) ∧
      ((ch.ctxArm k d x far).1 ≠ cOK → ch.Kept ch' ∧ ch'.out.head? = some (.value k (ch.ctxArm k d x far).1 0)) := by
  rintro s ch hc ⟨htakes, hk, hd, hx, -, habs, hactive⟩
  obtain ⟨hup, hans, hlast⟩ := (ch.takesFrom_iff k).1 htakes
  have hwrite := Chip.writeOnce_ctxArm hk hd hx habs hactive far
  refine ⟨_, regRow_up hc hup .., fun hok => ?_, fun hperm => ?_⟩
  · rw [if_pos hok] at hwrite
    rw [Chip.regWrite_done hlast hwrite, Chip.reportWrite_core _ hk]
    exact ⟨_, rfl⟩
  · rw [if_neg hperm] at hwrite
    have hcode : (ch.ctxArm k d x far).1 = cPERM := (ch.ctxArm_cases k d x far).elim (absurd · hperm) (congrArg Prod.fst)
    rw [Chip.regWrite_error hlast hwrite (by decide), hcode]
    exact ⟨Chip.kept_reportWrite (.refl ch) .., Chip.reportWrite_core_refused ch hk (show cPERM ≠ cOK by decide) ..⟩

/-- Settles O41: each transaction of the side-band by what its command does once the chip serves it, and the register accesses by the checks of
R966 in their order; of two writes of one cycle the higher agent's stands, in both orders of the queue. -/
theorem sideBandAndRegisterResults : Obligations.SideBandAndRegisterResults := by
  unfold Obligations.SideBandAndRegisterResults
  refine ⟨⟨sbAddr_result, lerFrame_result, lerRelease_result, fun i size hi c => (sbRead_by hi c).serves fun ch => ch.sbServed.sbRead_result size,
    fun i size hi c v => (sbWrite_by hi c v).serves fun ch => ⟨Chip.sbWrite_done, Chip.sbWrite_refused⟩,
    lerRead_result, sbReset_result, sbStatus_result, fun c code => sbBadPec_nack, fun i hi => ⟨fun c => ?off, fun s c hno => ?nobody⟩⟩,
    fun ch a off size v hans hlast => Chip.regWrite_checks hans hlast off size v, ?reads, ?order, ?report, registerWrite_pwrCfg,
    registerWrite_pwrFc, timeLowRead_result, unitBlockAccessIdle_core, seCtxArmWrite_result⟩
  case off =>
    obtain ⟨f, hf⟩ := sideBand_by hi c
    exact hf.refuses
  case nobody =>
    obtain ⟨f, hf⟩ := sideBand_by hi c
    exact hf.unanswered hno
  case reads =>
    exact fun ch a off size hans => ⟨fun hbad => Chip.regRead_misplaced hans (ch.regPlace_misaligned hbad false),
      fun hs hm hgap => Chip.regRead_misplaced hans (ch.regPlace_gap ⟨hs, hm⟩ hgap false)⟩
  case order =>
    intro ch d v e f b hd0 hd hv hv0 hagents hreset hstage hnone
    have hans : ∀ a, ch.answers a := fun _ _ => ⟨hreset, hstage⟩
    rcases hagents with ⟨rfl, rfl⟩ | ⟨rfl, rfl⟩ | ⟨rfl, rfl⟩
    · exact Chip.regWrite_pwrCfg_order (hans _) (hans _) rfl rfl (by decide) hd0 hd hv hv0 hnone
    · exact Chip.regWrite_pwrCfg_order (hans _) (hans _) rfl rfl (by decide) hd0 hd hv hv0 hnone
    · exact Chip.regWrite_pwrCfg_order (hans _) (hans _) rfl rfl (by decide) hd0 hd hv hv0 hnone
  case report => exact fun c a off size v s ch hc hup => ⟨_, regRow_up hc hup .., rfl⟩

end Sys2Proof.Machine

/-! SUPPORT. What a completion leaves of a command ring, and what each command of a ring does when its turn comes (R205, R213 to R218, R900,
R907, R913 to R917). -/
namespace Sys2Proof.Machine

/-! ### A command that only changes a chip -/

/-- To say what a command to one chip does: its effect, and what that is where the condition holds. -/
theorem acts_of_onChip {i : Instr} {c : Nat} {cond : Chip → Prop} {f : Chip → Chip} (g : Chip → Chip) (hi : ∀ s, exec i s = onChip c g s)
    (hg : ∀ ch, cond ch → g ch = f ch) : Acts i c cond f := fun s ch hc h => by rw [hi s, onChip_some hc, hg ch h]

/-- The same where the effect is told by what holds of it. -/
theorem makes_of_onChip {i : Instr} {c : Nat} {cond : Chip → Prop} {post : Chip → Chip → Prop} (g : Chip → Chip)
    (hi : ∀ s, exec i s = onChip c g s) (hg : ∀ ch, cond ch → post ch (g ch)) : Makes i c cond post :=
  fun s ch hc h => ⟨g ch, by rw [hi s, onChip_some hc], hg ch h⟩

/-! ### Rings and events -/

theorem Chip.modRing_ring (ch : Chip) (q p : Nat) (f : Rings → Rings) :
    (ch.modRing q f).ring p = if p = q ∧ q < ch.host.rings.length then f (ch.ring q) else ch.ring p := by
  simp only [Chip.ring, Chip.modRing, List.getD_eq_getElem?_getD, List.getElem?_modify]
  by_cases h : p = q
  · subst h; by_cases hl : p < ch.host.rings.length <;> simp [hl]
  · have h' : q ≠ p := fun e => h e.symm
    simp [h, h']

/-- A ring that is enabled is a ring of the chip. -/
theorem Chip.ring_exists {ch : Chip} {p i : Nat} (hon : (ch.ring p).on i = true) : p < ch.host.rings.length := by
  refine Nat.lt_of_not_le fun hp => ?_
  have hnone : ch.ring p = {} := by simp [Chip.ring, List.getElem?_eq_none hp]
  simp [hnone, Rings.on, bitOf] at hon

/-- What the record sends outwards comes before all that was sent. -/
theorem Chip.out_suffix_lerWork (ch : Chip) (r : Record) : ch.out <:+ (ch.lerWork r).out := by
  unfold Chip.lerWork
  dsimp only
  split
  · exact List.suffix_cons ..
  · exact List.suffix_rfl

theorem Chip.out_suffix_event (ch : Chip) (e : Entry) : ch.out <:+ (ch.event e).out := ch.out_suffix_lerWork _

/-- An event counts in the telemetry of a partition, and leaves the rest of each as it was. -/
theorem Chip.event_part (ch : Chip) (e : Entry) (p : Nat) : ∃ t, (ch.event e).part p = { ch.part p with tel := t } := by
  unfold Chip.event
  obtain ⟨r, o, h⟩ := ch.lerWork_cases (ch.ler.raise { e with time := ch.time, tick := ch.tickOf e.part })
  rw [h, Chip.modPart_part]
  split
  · rename_i hp; rw [hp.1]; exact ⟨_, rfl⟩
  · exact ⟨_, rfl⟩

/-- So does the end of Idle (R871). -/
theorem Chip.leaveIdle_part (ch : Chip) (p : Nat) : ∃ t, ch.leaveIdle.part p = { ch.part p with tel := t } := by
  unfold Chip.leaveIdle Chip.setPower
  split
  · split
    · exact ⟨_, rfl⟩
    · exact Chip.event_part _ _ p
  · exact ⟨_, rfl⟩

/-! ### What a completion leaves of the command ring it belongs to -/

/-- The side of a partition's rings that commands come from: the consumer counter, the commands fetched, what is enabled and in ERROR. -/
def Rings.cmdSide (r : Rings) : Nat × List HostCmd × Nat × Nat := (r.cmdCons, r.fetched, r.en, r.err)

/-- Nothing that was sent outwards is taken back, the command side of partition `p`'s rings stays, and `p` takes commands as before. -/
structure Chip.KeepsCmds (p : Nat) (ch ch' : Chip) : Prop where
  out : ch.out <:+ ch'.out
  cmds : (ch'.ring p).cmdSide = (ch.ring p).cmdSide
  takes : ch'.takesCmds p = ch.takesCmds p

namespace Chip.KeepsCmds

variable {p : Nat} {ch a b : Chip}

theorem refl (p : Nat) (ch : Chip) : ch.KeepsCmds p ch := ⟨List.suffix_rfl, rfl, rfl⟩

theorem trans (hab : ch.KeepsCmds p a) (hbc : a.KeepsCmds p b) : ch.KeepsCmds p b :=
  ⟨hab.out.trans hbc.out, hbc.cmds.trans hab.cmds, hbc.takes.trans hab.takes⟩

theorem ite {q : Prop} [Decidable q] (ha : ch.KeepsCmds p a) (hb : ch.KeepsCmds p b) : ch.KeepsCmds p (if q then a else b) := by
  split
  · exact ha
  · exact hb

theorem emit (h : ch.KeepsCmds p a) (o : Output) : ch.KeepsCmds p (a.emit o) := h.trans ⟨List.suffix_cons .., rfl, rfl⟩

theorem ev (h : ch.KeepsCmds p a) (id cls agent part code arg0 arg1 level : Nat) :
    ch.KeepsCmds p (a.ev id cls agent part code arg0 arg1 level) := by
  obtain ⟨_, _, _, he⟩ := a.event_cases { id := id, cls := cls, agent := agent, part := part, code := code, arg0 := arg0, arg1 := arg1, level := level }
  obtain ⟨_, hpart⟩ := a.event_part { id := id, cls := cls, agent := agent, part := part, code := code, arg0 := arg0, arg1 := arg1, level := level } p
  refine h.trans ⟨a.out_suffix_event _, ?_, ?_⟩
  · rw [Chip.ev, he]; rfl
  · rw [Chip.takesCmds, Chip.ev, hpart, he]; rfl

/-- A change of rings that keeps the command side. -/
theorem modRing (h : ch.KeepsCmds p a) (q : Nat) {f : Rings → Rings} (hf : ∀ r, (f r).cmdSide = r.cmdSide) :
    ch.KeepsCmds p (a.modRing q f) := by
  refine h.trans ⟨List.suffix_rfl, ?_, rfl⟩
  rw [Chip.modRing_ring]
  split
  · rename_i hq; rw [hf, hq.1]
  · rfl

theorem fireOf (h : ch.KeepsCmds p a) (fn vec us : Nat) : ch.KeepsCmds p (a.fireOf fn vec us) := by
  have hvectors : ∀ l, ch.KeepsCmds p { a with host := { a.host with vectors := l } } := fun _ => h.trans ⟨List.suffix_rfl, rfl, rfl⟩
  unfold Chip.fireOf
  dsimp only
  split
  · exact .ite (hvectors _) ((hvectors _).emit _)
  · exact (hvectors _).emit _

theorem hostPut (h : ch.KeepsCmds p a) (fn at' : Nat) (bytes : List Nat) : ch.KeepsCmds p (a.hostPut fn at' bytes) :=
  .ite (h.emit _) (h.ev ..)

theorem writeCpl (h : ch.KeepsCmds p a) (q : Nat) (x : Cpl) : ch.KeepsCmds p (a.writeCpl q x) := by
  have hput := ((h.modRing q (f := fun r => { r with cplProd := ctrInc r.cplProd }) fun _ => rfl).hostPut (a.ownerFn q)
    ((a.ring q).cplBase + 32 * ((a.ring q).cplProd % (a.ring q).size 1)) (x.bytes (a.ring q).cplProd ((a.ring q).size 1)))
  exact .ite (hput.fireOf ..) hput

theorem dropCpl (h : ch.KeepsCmds p a) (q : Nat) : ch.KeepsCmds p (a.dropCpl q) := (h.modRing q fun _ => by rfl).ev ..

/-- A completion made for any partition, written, waiting or dropped. -/
theorem postCpl (h : ch.KeepsCmds p a) (q : Nat) (x : Cpl) : ch.KeepsCmds p (a.postCpl q x) :=
  .ite (h.dropCpl q) (.ite (h.writeCpl ..) (.ite (h.dropCpl q) (h.modRing q fun _ => by rfl)))

/-- The completion of a command, with the FENCEs that it lets complete. -/
theorem cmdCpl (h : ch.KeepsCmds p a) (q : Nat) (x : HostCmd) (code sub value : Nat) : ch.KeepsCmds p (a.cmdCpl q x code sub value) := by
  unfold Chip.cmdCpl
  refine List.foldlRecOn _ _ ((h.modRing q fun _ => by rfl).postCpl ..) fun b hb f _ => ?_
  exact .ite hb ((hb.modRing q fun _ => by rfl).postCpl ..)

end Chip.KeepsCmds

/-! ### Taking commands from a ring -/

/-- The command that a ring takes next, where no completion waits, it is enabled and it is not in ERROR. -/
theorem Chip.frontCmd_eq {ch : Chip} {p : Nat} (hon : (ch.ring p).on 0 = true) (hbad : (ch.ring p).bad 0 = false) :
    ch.frontCmd p = if (ch.ring p).blocked then none else (ch.ring p).fetched.head? := by simp [Chip.frontCmd, hon, hbad]

theorem Chip.acceptCmd_ring {ch : Chip} {p : Nat} (hon : (ch.ring p).on 0 = true) : (ch.acceptCmd p).ring p =
    { ch.ring p with fetched := (ch.ring p).fetched.drop 1, live := (ch.ring p).live ++ ((ch.ring p).fetched.take 1).map HostCmd.seq } := by
  rw [Chip.acceptCmd, Chip.modRing_ring, if_pos ⟨rfl, Chip.ring_exists hon⟩]

/-- From `ch` to `ch'` some of the commands fetched for partition `p`, all of a bad form or of a partition that takes none, have left the
front of its ring, and no such command is left at the front unless a completion waits. -/
def Chip.DropsBad (p : Nat) (ch ch' : Chip) : Prop :=
  ch.out <:+ ch'.out ∧ (ch'.ring p).cmdCons = (ch.ring p).cmdCons ∧
  ∃ j, (ch'.ring p).fetched = (ch.ring p).fetched.drop j ∧ (∀ x ∈ (ch.ring p).fetched.take j, x.bad = true ∨ ch.takesCmds p = false) ∧
    ((ch'.ring p).blocked = true ∨ ∀ x, ((ch.ring p).fetched.drop j).head? = some x → x.bad = false ∧ ch.takesCmds p = true)

/-- A ring whose front needs no refusal drops nothing. -/
theorem Chip.DropsBad.refl {p : Nat} {ch : Chip} (h : (ch.ring p).blocked = true ∨
    ∀ x, (ch.ring p).fetched.head? = some x → x.bad = false ∧ ch.takesCmds p = true) : ch.DropsBad p ch :=
  ⟨List.suffix_rfl, rfl, 0, rfl, by simp, h⟩

/-- A command that is refused goes first. -/
theorem Chip.DropsBad.cons {p : Nat} {ch a ch' : Chip} {x : HostCmd} {rest : List HostCmd} (hfetched : (ch.ring p).fetched = x :: rest)
    (hx : x.bad = true ∨ ch.takesCmds p = false) (hout : ch.out <:+ a.out) (hcons : (a.ring p).cmdCons = (ch.ring p).cmdCons)
    (hrest : (a.ring p).fetched = rest) (htakes : a.takesCmds p = ch.takesCmds p) (h : a.DropsBad p ch') : ch.DropsBad p ch' := by
  obtain ⟨hout', hcons', j, hj, hdropped, hfront⟩ := h
  rw [hrest, htakes] at hdropped hfront
  rw [hrest] at hj
  refine ⟨hout.trans hout', hcons'.trans hcons, j + 1, ?_⟩
  rw [hfetched, List.drop_succ_cons, List.take_succ_cons]
  exact ⟨hj, List.forall_mem_cons.2 ⟨hx, hdropped⟩, hfront⟩

/-- The refusals at the front of a ring of at most `n` commands end with a command that is not refused (R900, R913). -/
theorem Chip.dropBad_result (p n : Nat) (ch : Chip) (hon : (ch.ring p).on 0 = true) (hbad : (ch.ring p).bad 0 = false)
    (hlen : (ch.ring p).fetched.length ≤ n) : ch.DropsBad p (Chip.dropBad p n ch) := by
  induction n generalizing ch with
  | zero => exact .refl (.inr (by simp [List.length_eq_zero_iff.1 (Nat.le_zero.1 hlen)]))
  | succ n ih =>
    rw [Chip.dropBad, Chip.frontCmd_eq hon hbad]
    by_cases hblocked : (ch.ring p).blocked = true
    · rw [if_pos hblocked]
      exact .refl (.inl hblocked)
    rw [if_neg hblocked]
    cases hfetched : (ch.ring p).fetched with
    | nil => exact .refl (.inr (by simp [hfetched]))
    | cons x rest =>
      dsimp only [List.head?_cons]
      by_cases hx : (x.bad || !ch.takesCmds p) = true
      · rw [if_pos hx]
        have hkeeps := (Chip.KeepsCmds.refl p (ch.acceptCmd p)).cmdCpl p x cBOUNDS 0 0
        have hside := hkeeps.cmds
        rw [Chip.acceptCmd_ring hon, hfetched] at hside
        simp only [Rings.cmdSide, Prod.mk.injEq] at hside
        obtain ⟨hcons, hrest, hen, herr⟩ := hside
        refine .cons hfetched (by simpa using hx) hkeeps.out hcons hrest hkeeps.takes (ih _ ?_ ?_ ?_)
        · rw [Rings.on, hen]; exact hon
        · rw [Rings.bad, herr]; exact hbad
        · rw [hrest]; rw [hfetched] at hlen; exact Nat.le_of_succ_le_succ hlen
      · rw [if_neg hx]
        exact .refl (.inr (by simpa [hfetched] using hx))

/-! ### Fetching a burst (R907, R913) -/

/-- A burst of commands of partition `p` is due: its ring is enabled and not in ERROR, nothing fetched and no completion waits, and there is an
entry that the device has not read. -/
def Chip.burstDue (ch : Chip) (p : Nat) : Prop :=
  ch.alive = true ∧ (ch.ring p).on 0 = true ∧ (ch.ring p).bad 0 = false ∧ (ch.ring p).blocked = false ∧ (ch.ring p).fetched = [] ∧
    ctrDiff (ch.ring p).cmdTail (ch.ring p).cmdCons ≠ 0

/-- Where the next burst of a ring stands in host memory. -/
def Rings.burstAddr (r : Rings) : Nat := r.cmdBase + 64 * (r.cmdCons % r.size 0 / 8 * 8)

/-- The entries that the next burst of a ring uses. -/
def Rings.burstLength (r : Rings) : Nat := min (ctrDiff r.cmdTail r.cmdCons) (8 - r.cmdCons % r.size 0 % 8)

/-- The commands in the bytes of the next burst of a ring. -/
def Rings.burst (r : Rings) (data : List Nat) : List HostCmd :=
  (List.range r.burstLength).map fun i => HostCmd.of ((data.drop (64 * i)).take 64) ((r.cmdCons + i) % 2 ^ 32)

theorem Rings.burst_length_le (r : Rings) (data : List Nat) : (r.burst data).length ≤ 8 := by
  simp only [Rings.burst, Rings.burstLength, List.length_map, List.length_range]
  omega

/-- The entries of a command ring are told by the low four bits of SIZES (R941). -/
theorem Rings.size_cmd (r : Rings) : r.size 0 = 2 ^ (r.sizes % 16) := by simp [Rings.size, bitsOf]

/-- The chip once the read of a burst has been sent. -/
def Chip.askBurst (ch : Chip) (p : Nat) : Chip := ch.emit (.hostFetch (ch.ownerFn p) (ch.ring p).burstAddr 512)

/-- The chip once the commands of a burst have arrived. -/
def Chip.takeBurst (ch : Chip) (p : Nat) (data : List Nat) : Chip :=
  (ch.askBurst p).modRing p fun x => { x with fetched := (ch.ring p).burst data, cmdCons := (x.cmdCons + (ch.ring p).burstLength) % 2 ^ 32 }

/-- What the fetch of a burst that is due comes to. -/
theorem exec_cmdFetch {s : State} {c p : Nat} {ch : Chip} (hc : s.chips[c]? = some ch) (hdue : ch.burstDue p) (code : Nat) (data : List Nat) :
    exec (.cmdFetch c p code data) s = .next (s.withChip c (
      if ch.busMaster (ch.ownerFn p) = false then ch.hostMemError (ch.ownerFn p) (ch.ring p).burstAddr cPERM
      else if code ≠ cOK then (ch.askBurst p).hostMemError (ch.ownerFn p) (ch.ring p).burstAddr code
      else Chip.dropBad p 8 (ch.takeBurst p data))) := by
  obtain ⟨halive, hon, hbad, hblocked, hfetched, hnew⟩ := hdue
  refine (onChip_some hc _).trans ?_
  simp only [halive, hon, hbad, hblocked, hfetched, Bool.not_true, List.isEmpty_nil, Bool.or_self, Bool.false_or, beq_iff_eq, if_neg hnew,
    Bool.not_eq_true', bne_iff_ne, Chip.takeBurst, Chip.askBurst, Rings.burst, Rings.burstAddr, Rings.burstLength]

/-- The ring after the commands of a burst have arrived. -/
theorem Chip.takeBurst_ring {ch : Chip} {p : Nat} (hon : (ch.ring p).on 0 = true) (data : List Nat) : (ch.takeBurst p data).ring p =
    { ch.ring p with fetched := (ch.ring p).burst data, cmdCons := ((ch.ring p).cmdCons + (ch.ring p).burstLength) % 2 ^ 32 } := by
  rw [Chip.takeBurst, Chip.modRing_ring, if_pos ⟨rfl, Chip.ring_exists hon⟩]
  rfl

@[simp] theorem Chip.takeBurst_takesCmds (ch : Chip) (p : Nat) (data : List Nat) : (ch.takeBurst p data).takesCmds p = ch.takesCmds p := rfl

/-- The read of a burst that arrives has been sent. -/
theorem Chip.hostFetch_mem_takeBurst (ch : Chip) (p : Nat) (data : List Nat) :
    .hostFetch (ch.ownerFn p) (ch.ring p).burstAddr 512 ∈ (ch.takeBurst p data).out := List.mem_cons_self ..

/-- A burst that is read: the counter advances by its entries, and the refusals at its front are dropped (R900, R907, R913). -/
theorem cmdFetch_ok (c p : Nat) (data : List Nat) : Makes (.cmdFetch c p cOK data) c
    (fun ch => ch.burstDue p ∧ ch.busMaster (ch.ownerFn p) = true) fun ch ch' =>
      .hostFetch (ch.ownerFn p) (ch.ring p).burstAddr 512 ∈ ch'.out ∧
      (ch'.ring p).cmdCons = ((ch.ring p).cmdCons + (ch.ring p).burstLength) % 2 ^ 32 ∧
      ∃ j, (ch'.ring p).fetched = ((ch.ring p).burst data).drop j ∧
        (∀ x ∈ ((ch.ring p).burst data).take j, x.bad = true ∨ ch.takesCmds p = false) ∧
        ((ch'.ring p).blocked = true ∨ ∀ x, (((ch.ring p).burst data).drop j).head? = some x → x.bad = false ∧ ch.takesCmds p = true) := by
  rintro s ch hc ⟨hdue, hmaster⟩
  refine ⟨_, exec_cmdFetch hc hdue cOK data, ?_⟩
  rw [if_neg (by simp [hmaster]), if_neg (by simp)]
  obtain ⟨-, hon, hbad, -⟩ := hdue
  have hring := ch.takeBurst_ring hon data
  have hdrop := Chip.dropBad_result p 8 (ch.takeBurst p data) (by simpa only [hring, Rings.on] using hon)
    (by simpa only [hring, Rings.bad] using hbad) (by simpa only [hring] using (ch.ring p).burst_length_le data)
  rw [Chip.DropsBad, hring, Chip.takeBurst_takesCmds] at hdrop
  obtain ⟨hout, hrest⟩ := hdrop
  exact ⟨hout.subset (ch.hostFetch_mem_takeBurst p data), hrest⟩

/-- A burst whose read fails leaves the ring as it was (R907; DEDUCED, log entry 38). -/
theorem cmdFetch_failed (c p code : Nat) (data : List Nat) (hcode : code ≠ cOK) : Acts (.cmdFetch c p code data) c
    (fun ch => ch.burstDue p ∧ ch.busMaster (ch.ownerFn p) = true)
    fun ch => (ch.askBurst p).hostMemError (ch.ownerFn p) (ch.ring p).burstAddr code := by
  rintro s ch hc ⟨hdue, hmaster⟩
  rw [exec_cmdFetch hc hdue, if_neg (by simp [hmaster]), if_pos hcode]

/-- So does a burst that may not be asked for (R897, R907). -/
theorem cmdFetch_barred (c p code : Nat) (data : List Nat) : Acts (.cmdFetch c p code data) c
    (fun ch => ch.burstDue p ∧ ch.busMaster (ch.ownerFn p) = false)
    fun ch => ch.hostMemError (ch.ownerFn p) (ch.ring p).burstAddr cPERM := by
  rintro s ch hc ⟨hdue, hmaster⟩
  rw [exec_cmdFetch hc hdue, if_pos hmaster]

/-- Of the bytes from 8 to 63 of an entry, those that its opcode leaves reserved are 0 (R913). -/
theorem all_reserved_iff (used : List Nat) (bytes : List Nat) :
    ((List.range 56).any fun i => !used.contains (8 + i) && leAt bytes (8 + i) 1 != 0) = false ↔
      ∀ b, 8 ≤ b → b < 64 → b ∉ used → leAt bytes b 1 = 0 := by
  simp only [List.any_eq_false, List.mem_range, Bool.and_eq_true, Bool.not_eq_true', List.contains_eq_mem, decide_eq_false_iff_not,
    bne_iff_ne, ne_eq, not_and, Decidable.not_not]
  constructor
  · intro h b hlow hhigh
    obtain ⟨i, rfl⟩ := Nat.exists_eq_add_of_le hlow
    exact h i (by omega)
  · exact fun h i hi => h (8 + i) (by omega) (by omega)

/-- A command of a good form: a listed opcode, no reserved flag, and every byte that its opcode leaves reserved 0 (R913 to R917). -/
theorem HostCmd.bad_eq_false_iff (x : HostCmd) : x.bad = false ↔
    x.opcode ≤ 4 ∧ (if x.opcode = 1 then x.flags < 4 else x.flags < 2) ∧ leAt x.bytes 2 2 = 0 ∧
      ∀ b, 8 ≤ b → b < 64 → (x.opcode = 1 → 16 ≤ b) → (x.opcode = 2 → 12 ≤ b) → (x.opcode = 3 → b = 11 ∨ 16 ≤ b) → leAt x.bytes b 1 = 0 := by
  obtain ⟨opcode, flags, cmdId, seq, bytes⟩ := x
  simp only [HostCmd.bad, Bool.or_eq_false_iff, decide_eq_false_iff_not, all_reserved_iff, bne_eq_false_iff_eq, Nat.not_lt, and_assoc]
  refine and_congr_right fun hlisted => and_congr ?flags (and_congr_right fun _ => forall₃_congr fun b hlow hhigh => ?reserved)
  case flags => by_cases h : opcode = 1 <;> simp [h]
  case reserved =>
    rw [← and_imp, ← and_imp]
    refine imp_congr_left ?_
    have hopcode : opcode = 0 ∨ opcode = 1 ∨ opcode = 2 ∨ opcode = 3 ∨ opcode = 4 := by omega
    obtain rfl | rfl | rfl | rfl | rfl := hopcode <;>
      simp only [List.mem_cons, List.not_mem_nil, or_false, not_false_eq_true, Nat.reduceEqDiff, Nat.zero_ne_one, forall_const,
        false_implies, and_true, true_and] <;> omega

/-! ### What the next command of a ring does (R913, R914, R917) -/

/-- The next command of partition `p` is `x`, of opcode `op`, and the chip is alive to take it. -/
def Chip.nextCmd (ch : Chip) (p op : Nat) (x : HostCmd) : Prop := ch.alive = true ∧ ch.frontCmd p = some x ∧ x.opcode = op

/-- The next command is accepted and carried out, and the refusals that come to the front after it are dropped. -/
theorem Chip.takeCmd_next {ch : Chip} {p op : Nat} {x : HostCmd} (h : ch.nextCmd p op x) (f : HostCmd → Chip → Chip) :
    ch.takeCmd p op f = Chip.dropBad p 8 (f x (ch.acceptCmd p)) := by
  obtain ⟨halive, hfront, hop⟩ := h
  simp [Chip.takeCmd, hfront, halive, hop]

/-- To say what a host command does: what carrying it out comes to on the chip that has accepted it. -/
theorem acts_of_takeCmd {i : Instr} {c p op : Nat} {x : HostCmd} {cond : Chip → Prop} {g : Chip → Chip} (f : HostCmd → Chip → Chip)
    (hi : ∀ s, exec i s = onChip c (fun ch => ch.takeCmd p op f) s) (hnext : ∀ ch, cond ch → ch.nextCmd p op x)
    (hg : ∀ ch, cond ch → f x (ch.acceptCmd p) = g ch) : Acts i c cond fun ch => Chip.dropBad p 8 (g ch) :=
  acts_of_onChip _ hi fun ch h => by rw [Chip.takeCmd_next (hnext ch h), hg ch h]

/-- NOP completes (R914). -/
theorem hostNop_result (c p : Nat) (x : HostCmd) : Acts (.hostNop c p) c (fun ch => ch.nextCmd p 0 x)
    fun ch => Chip.dropBad p 8 ((ch.acceptCmd p).cmdCpl p x cOK 0 0) :=
  acts_of_takeCmd _ (fun _ => rfl) (fun _ h => h) fun _ _ => rfl

/-- The commands that a FENCE waits for: those accepted before it and not completed (R914). -/
def Chip.before (ch : Chip) (p : Nat) (x : HostCmd) : List Nat := (ch.ring p).live.filter (· ≠ x.seq)

/-- FENCE completes at once where it waits for nothing (R914). -/
theorem hostFence_result (c p : Nat) (x : HostCmd) : Acts (.hostFence c p) c (fun ch => ch.nextCmd p 4 x) fun ch => Chip.dropBad p 8
    (if (ch.acceptCmd p).before p x = [] then (ch.acceptCmd p).cmdCpl p x cOK 0 0
     else (ch.acceptCmd p).modRing p fun r => { r with fences := r.fences ++ [(x, (ch.acceptCmd p).before p x)] }) := by
  refine acts_of_takeCmd _ (fun _ => rfl) (fun _ h => h) fun ch _ => ?_
  have hbefore : ((ch.acceptCmd p).ring p).live.filter (fun i => i != x.seq) = (ch.acceptCmd p).before p x :=
    List.filter_congr fun i _ => Bool.eq_iff_iff.2 (by simp)
  dsimp only
  rw [hbefore]
  simp only [List.isEmpty_iff]

/-- SYNC_POST needs an object of its partition, then one of its operation's kind (R421, R917; the order is a DESIGN CHOICE, log entry 69). -/
theorem syncPost_result (c p : Nat) (x : HostCmd) : Acts (.syncPost c p) c (fun ch => ch.nextCmd p 3 x) fun ch =>
    let a := ch.acceptCmd p
    let op := leAt x.bytes 10 1
    Chip.dropBad p 8 (match a.sync (leAt x.bytes 8 2) with
      | none => a.cmdCpl p x cPERM 0 0
      | some o =>
        if o.part ≠ p then a.cmdCpl p x cPERM 0 0
        else if ¬ ((op = 1 ∧ o.kind = kCOUNTER) ∨ (op = 2 ∧ o.kind = kEVENT)) then a.cmdCpl p x cBOUNDS 0 0
        else match a.postTo (leAt x.bytes 8 2) 0 (leAt x.bytes 12 4) with
          | .error e => a.cmdCpl p x e 0 0
          | .ok b => b.cmdCpl p x cOK 0 o.value) := by
  refine acts_of_takeCmd _ (fun _ => rfl) (fun _ h => h) fun ch _ => ?_
  dsimp only
  cases (ch.acceptCmd p).sync (leAt x.bytes 8 2) with
  | none => rfl
  | some o =>
    have hkind : ∀ op, (!(op == 1 && o.kind == kCOUNTER || op == 2 && o.kind == kEVENT)) = true ↔
        ¬ ((op = 1 ∧ o.kind = kCOUNTER) ∨ (op = 2 ∧ o.kind = kEVENT)) := fun op => by
      simp only [Bool.not_eq_true', ← Bool.not_eq_true, Bool.or_eq_true, Bool.and_eq_true, beq_iff_eq]
    exact ite_congr (propext bne_iff_ne) (fun _ => rfl) fun _ => ite_congr (propext (hkind _)) (fun _ => rfl) fun _ => rfl

/-! ### Decisions of the steward (R213 to R218, R873, R915) -/

/-- A decision waits for a steward that does not run (R218). -/
theorem Chip.submit_waits {ch : Chip} (h : ch.wdg.steward ≠ .running) (d : Decision) :
    ch.submit d = { ch with decisions := ch.decisions ++ [d] } :=
  if_neg (by simp [Chip.stwRuns, h])

/-- A running steward makes it at once where none waits (R218). -/
theorem Chip.submit_decided {ch : Chip} (halive : ch.alive = true) (h : ch.wdg.steward = .running) (hnone : ch.decisions = []) (d : Decision) :
    ch.submit d = ch.decideOne d := by
  have hruns : ({ ch with decisions := ch.decisions ++ [d] } : Chip).stwRuns = true :=
    Bool.and_eq_true_iff.2 ⟨halive, beq_iff_eq.2 h⟩
  have hsame : ({ ch with decisions := [] } : Chip) = ch := by rw [← hnone]
  rw [Chip.submit, if_pos hruns, Chip.decideAll, hnone, List.nil_append, List.foldl_cons, List.foldl_nil, hsame]

/-- Decisions are made in the order in which they wait (R218). -/
theorem Chip.decideAll_cons {ch : Chip} {d : Decision} {l : List Decision} (h : ch.decisions = d :: l) :
    ch.decideAll = l.foldl (fun a e => a.decideOne e) (({ ch with decisions := [] } : Chip).decideOne d) := by
  rw [Chip.decideAll, h, List.foldl_cons]

/-- A command that the steward decides, while it does not run (R218). -/
theorem submitCmd_waits {i : Instr} {c p op : Nat} {x : HostCmd} (d : HostCmd → Decision)
    (hi : ∀ s, exec i s = onChip c (fun ch => ch.takeCmd p op fun x a => a.submit (d x)) s) :
    Acts i c (fun ch => ch.nextCmd p op x ∧ ch.wdg.steward ≠ .running)
      fun ch => Chip.dropBad p 8 { ch.acceptCmd p with decisions := ch.decisions ++ [d x] } :=
  acts_of_takeCmd _ hi (fun _ h => h.1) fun ch h => (ch.acceptCmd p).submit_waits h.2 _

/-- A command that the steward decides at once (R218). -/
theorem Chip.submitCmd_decided {ch : Chip} {p op : Nat} {x : HostCmd} (hnext : ch.nextCmd p op x) (hsteward : ch.wdg.steward = .running)
    (hnone : ch.decisions = []) (d : Decision) : (ch.acceptCmd p).submit d = (ch.acceptCmd p).decideOne d :=
  (ch.acceptCmd p).submit_decided hnext.1 hsteward hnone d

/-- RETIRE_JOB of a running steward: the job is to be retired at the end of its tick; a handle of no job is BOUNDS (R217, R915). -/
theorem retireJob_decided (c p : Nat) (x : HostCmd) : Acts (.retireJob c p) c
    (fun ch => ch.nextCmd p 2 x ∧ ch.wdg.steward = .running ∧ ch.decisions = []) fun ch =>
      let a := ch.acceptCmd p
      let h := leAt x.bytes 8 4
      Chip.dropBad p 8 (if ∃ j ∈ (a.part p).jobs, j.handle = h then
          a.modPart p fun q => { q with jobs := q.jobs.map fun j => if j.handle = h then { j with retire := j.retire ++ [x] } else j }
        else a.cmdCpl p x cBOUNDS 0 0) := by
  refine acts_of_takeCmd _ (fun _ => rfl) (fun _ h => h.1) fun ch ⟨hnext, hsteward, hnone⟩ => ?_
  rw [Chip.submitCmd_decided hnext hsteward hnone, Chip.decideOne, Chip.decideRetire]
  simp only [List.any_eq_true, beq_iff_eq]

/-- ADMIT_JOB of a partition that takes no commands (R900). -/
theorem admitJob_undefined (c p : Nat) (x : HostCmd) : Acts (.admitJob c p) c
    (fun ch => ch.nextCmd p 1 x ∧ ch.wdg.steward = .running ∧ ch.decisions = [] ∧ ch.takesCmds p = false)
    fun ch => Chip.dropBad p 8 ((ch.acceptCmd p).cmdCpl p x cBOUNDS 0 0) := by
  refine acts_of_takeCmd _ (fun _ => rfl) (fun _ h => h.1) fun ch ⟨hnext, hsteward, hnone, htakes⟩ => ?_
  rw [Chip.submitCmd_decided hnext hsteward hnone]
  exact if_neg (by rw [show (ch.acceptCmd p).takesCmds p = false from htakes]; decide)

/-- The lowest free slot of a partition with fewer than 64 jobs (R915). -/
theorem Part.freeSlot_spec {q : Part} (hroom : q.jobs.length < 64) :
    q.freeSlot < 64 ∧ (∀ j ∈ q.jobs, j.slot ≠ q.freeSlot) ∧ ∀ i, i < q.freeSlot → ∃ j ∈ q.jobs, j.slot = i := by
  have hfree : ∃ i ∈ List.range 64, i ∉ q.jobs.map Job.slot := by
    refine Classical.byContradiction fun hall => ?_
    have hsub : List.range 64 ⊆ q.jobs.map Job.slot := fun i hi => Classical.byContradiction fun hfree => hall ⟨i, hi, hfree⟩
    have hle := List.nodup_range.length_le_of_subset hsub
    rw [List.length_range, List.length_map] at hle
    omega
  obtain ⟨i, hi, hifree⟩ := hfree
  cases hfind : (List.range 64).find? fun i => !q.jobs.any fun j => j.slot == i with
  | none => exact absurd (List.find?_eq_none.1 hfind i hi) (by simpa using hifree)
  | some slot =>
    have hslot : q.freeSlot = slot := by rw [Part.freeSlot, hfind, Option.getD_some]
    rw [List.find?_range_eq_some] at hfind
    obtain ⟨hunused, hlt, hlower⟩ := hfind
    rw [hslot]
    exact ⟨List.mem_range.1 hlt, by simpa using hunused, fun i hi => by simpa using hlower i hi⟩

/-- The work of a partition with a job of `cyc` cycles and `us` microseconds added stays within the partition's share and passes the work test
at `fc` MHz (R210, R213, R214). -/
abbrev Part.fits (q : Part) (cyc us fc : Nat) : Prop :=
  q.admCycles + cyc ≤ q.plate.workCycles ∧ q.admUs + us ≤ q.plate.fixedUs ∧
    workTest q.plate.budget (q.admCycles + cyc) (q.admUs + us) fc = true

/-- The job that an ADMIT_JOB makes in a partition: in the lowest free slot, its handle from the slot and the count of admissions (R915). -/
def Part.newJob (q : Part) (x : HostCmd) : Job :=
  { slot := q.freeSlot, handle := (q.admissions + 1) % 0x10000 * 0x10000 + q.freeSlot, cycles := leAt x.bytes 8 4, us := leAt x.bytes 12 4,
    tickCpl := x.flags.testBit 1, cmdId := x.cmdId }

/-- The admission of a job: the power state and the partition count as they were before the command ended Idle (R213 to R216, R871, R873). -/
theorem Chip.decideJob_eq (ch : Chip) (p : Nat) (x : HostCmd) : ch.decideJob p x =
    if (ch.pwr.state ≠ .active ∧ ch.pwr.state ≠ .idle) ∨ 64 ≤ (ch.part p).jobs.length then ch.leaveIdle.cmdCpl p x cBUSY 0 0
    else if (ch.part p).plate.rt = true ∧ ¬ (ch.part p).fits (leAt x.bytes 8 4) (leAt x.bytes 12 4) ch.leaveIdle.fcAdm then
      ch.leaveIdle.cmdCpl p x cFIT sFITBUDGET 0
    else (ch.leaveIdle.modPart p fun y =>
      { y with admissions := ((ch.part p).admissions + 1) % 0x10000, jobs := y.jobs ++ [(ch.part p).newJob x] }).cmdCpl
        p x cOK 0 ((ch.part p).newJob x).handle := by
  obtain ⟨t, ht⟩ := ch.leaveIdle_part p
  generalize hq : ch.part p = q at ht ⊢
  have hfree : ({ q with tel := t } : Part).freeSlot = q.freeSlot := rfl
  have hcycles : ({ q with tel := t } : Part).admCycles = q.admCycles := rfl
  have hus : ({ q with tel := t } : Part).admUs = q.admUs := rfl
  simp only [Chip.decideJob, ht, hfree, hcycles, hus, Part.newJob, bitOf, Bool.or_eq_true, Bool.and_eq_true, Bool.not_eq_true',
    ← Bool.not_eq_true, decide_eq_true_eq, beq_iff_eq, not_or, and_assoc, ne_eq]

/-- ADMIT_JOB of a partition that takes commands (R213 to R216, R873, R915). -/
theorem admitJob_decided (c p : Nat) (x : HostCmd) : Makes (.admitJob c p) c
    (fun ch => ch.nextCmd p 1 x ∧ ch.wdg.steward = .running ∧ ch.decisions = [] ∧ ch.takesCmds p = true) fun ch0 ch' =>
      let ch := ch0.acceptCmd p
      let q := ch.part p
      let a := ch.leaveIdle
      if (ch.pwr.state ≠ .active ∧ ch.pwr.state ≠ .idle) ∨ 64 ≤ q.jobs.length then ch' = Chip.dropBad p 8 (a.cmdCpl p x cBUSY 0 0)
      else if q.plate.rt = true ∧ ¬ q.fits (leAt x.bytes 8 4) (leAt x.bytes 12 4) a.fcAdm then
        ch' = Chip.dropBad p 8 (a.cmdCpl p x cFIT sFITBUDGET 0)
      else ch' = Chip.dropBad p 8 ((a.modPart p fun y =>
          { y with admissions := (q.admissions + 1) % 0x10000, jobs := y.jobs ++ [q.newJob x] }).cmdCpl p x cOK 0 (q.newJob x).handle) ∧
        q.freeSlot < 64 ∧ (∀ j ∈ q.jobs, j.slot ≠ q.freeSlot) ∧ ∀ i, i < q.freeSlot → ∃ j ∈ q.jobs, j.slot = i := by
  refine makes_of_onChip _ (fun _ => rfl) fun ch ⟨hnext, hsteward, hnone, htakes⟩ => ?_
  have hdecided : (ch.acceptCmd p).decideOne (.admission p x) = (ch.acceptCmd p).decideJob p x := if_pos htakes
  rw [Chip.takeCmd_next hnext, Chip.submitCmd_decided hnext hsteward hnone, hdecided, Chip.decideJob_eq]
  dsimp only
  split
  · rfl
  · rename_i hbusy
    split
    · rfl
    · exact ⟨rfl, Part.freeSlot_spec (Nat.lt_of_not_le fun hfull => hbusy (.inr hfull))⟩

/-! ### The statement -/

/-- Settles O44: the fetch of a burst by what the refusals at the front of a ring leave, each command by what carrying it out comes to on the
chip that has accepted it, and an admission by the partition as it was before the command ended Idle. -/
theorem commandRingResults : Obligations.CommandRingResults := by
  unfold Obligations.CommandRingResults
  refine ⟨⟨fun c p data => ?fetched, fun c p code data hcode => ?failed, fun c p code data => ?barred, HostCmd.bad_eq_false_iff⟩,
    hostNop_result, hostFence_result, syncPost_result, fun c p x => submitCmd_waits (.retire p) fun _ => rfl, retireJob_decided,
    fun c p x => submitCmd_waits (.admission p) fun _ => rfl, admitJob_undefined, fun ch d l => Chip.decideAll_cons, fun c p x => ?admitted⟩
  case fetched =>
    simpa only [Chip.burstDue, Rings.burstAddr, Rings.burst, Rings.burstLength, Rings.size_cmd, ctrDiff, Chip.takesCmds] using cmdFetch_ok c p data
  case failed =>
    simpa only [Chip.burstDue, Chip.askBurst, Chip.hostMemError, Rings.burstAddr, Rings.size_cmd, ctrDiff] using cmdFetch_failed c p code data hcode
  case barred =>
    simpa only [Chip.burstDue, Chip.hostMemError, Rings.burstAddr, Rings.size_cmd, ctrDiff] using cmdFetch_barred c p code data
  case admitted =>
    exact fun s ch hc ⟨hnext, hsteward, hnone, htakes, _⟩ => admitJob_decided c p x s ch hc ⟨hnext, hsteward, hnone, htakes⟩

end Sys2Proof.Machine

namespace Sys2Proof.Machine

/-- A choice by a condition is one by any that holds with it. -/
theorem ite_of_iff {α : Type} {p q : Prop} [Decidable p] [Decidable q] {x y : α} (h : p ↔ q) : (if p then x else y) = if q then x else y :=
  ite_congr (propext h) (fun _ => rfl) fun _ => rfl

/-! ### Registers that exist and registers that do not (R303) -/

/-- s0 reads 0. -/
theorem Core.getS_zero (x : Core) : x.getS 0 = 0 := rfl

/-- p0 reads all ones. -/
theorem Core.getP_zero (x : Core) : x.getP 0 = BitVec.allOnes 64 := rfl

/-- s0 discards what is written. -/
theorem Core.setS_zero (x : Core) (v : W64) : x.setS 0 v = x := rfl

/-- p0 discards what is written. -/
theorem Core.setP_zero (x : Core) (v : W64) : x.setP 0 v = x := rfl

/-- A scalar register that the core lacks discards what is written. -/
theorem Core.setS_of_length_le {x : Core} {d : Nat} (h : x.s.length ≤ d) (v : W64) : x.setS d v = x := by
  rw [Core.setS, List.set_eq_of_length_le h, ite_self]

/-- A predicate register that the core lacks discards what is written. -/
theorem Core.setP_of_length_le {x : Core} {d : Nat} (h : x.p.length ≤ d) (v : W64) : x.setP d v = x := by
  rw [Core.setP, List.set_eq_of_length_le h, ite_self]

/-- A vector register that the core lacks discards what is written. -/
theorem Core.setV_of_length_le {x : Core} {d : Nat} (h : x.v.length ≤ d) (v : V512) : x.setV d v = x := by
  rw [Core.setV, List.set_eq_of_length_le h]

/-- Settles O55: a write to a register that exists by the rule of its bank, one to a register that does not by its being discarded. -/
theorem hardwiredRegisters : Obligations.HardwiredRegisters := by
  unfold Obligations.HardwiredRegisters
  refine ⟨fun x r d v => ?scalar, fun x r d v => ?pred, fun x v => ⟨x.setS_zero v, x.setP_zero v⟩, fun x r d v => ?vector⟩
  case scalar =>
    rcases Nat.eq_zero_or_pos r with rfl | hr
    · exact Core.getS_zero _
    rw [if_neg (Nat.ne_of_gt hr)]
    rcases Nat.lt_or_ge d x.s.length with hd | hd
    · rw [Core.getS_setS x d r v hd]
      exact ite_of_iff (by omega)
    · rw [Core.setS_of_length_le hd, if_neg fun h => Nat.not_lt_of_le hd h.2]
  case pred =>
    rcases Nat.eq_zero_or_pos r with rfl | hr
    · exact Core.getP_zero _
    rw [if_neg (Nat.ne_of_gt hr)]
    rcases Nat.lt_or_ge d x.p.length with hd | hd
    · rw [Core.getP_setP x d r v hd]
      exact ite_of_iff (by omega)
    · rw [Core.setP_of_length_le hd, if_neg fun h => Nat.not_lt_of_le hd h.2]
  case vector =>
    rcases Nat.lt_or_ge d x.v.length with hd | hd
    · rw [Core.getV_setV x d r v hd]
      exact ite_of_iff (by omega)
    · rw [Core.setV_of_length_le hd, if_neg fun h => Nat.not_lt_of_le hd h.2]

end Sys2Proof.Machine

namespace Sys2Proof.Machine

/-! ### The fetch of an instruction -/

/-- A fetch changes the counts of corrected errors, and nothing else. -/
theorem Chip.fetched_cases (ch : Chip) (k : Nat) : ∃ r, ch.fetched k = { ch with rcv := r } := by
  unfold Chip.fetched Chip.countFetch
  dsimp only
  split
  · split
    · exact ⟨_, rfl⟩
    · exact ⟨ch.rcv, rfl⟩
  · exact ⟨ch.rcv, rfl⟩

/-- A fetch leaves every core as it is. -/
theorem Chip.fetched_core (ch : Chip) (k j : Nat) : (ch.fetched k).core j = ch.core j := by
  obtain ⟨r, h⟩ := ch.fetched_cases k
  rw [h]
  rfl

/-- To say what an instruction does: what its effect comes to on the chip after the fetch. -/
theorem executes_of_issueOn {i : Nat → Nat → W64 → Instr} {op used : Nat} (body : Nat → W64 → Chip → Core → Res)
    {f : Nat → W64 → Chip → Core → Chip} (hi : ∀ c k w s, exec (i c k w) s = issueOn c k w used (body k w) s)
    (hf : ∀ k w ch, ch.settleRes k (body k w ch (ch.core k)) = f k w ch (ch.core k)) (ho : opcodeListed op = true := by decide) :
    Executes i op used f := by
  intro s c k w ch hc hr
  rw [hi, issueOn_ready hc hr ho, ← ch.fetched_core k k, hf]

/-- To say what an instruction that writes a scalar register computes: the same value from the word and the core's registers. -/
theorem computes_setS {i : Nat → Nat → W64 → Instr} {op used : Nat} {g f : W64 → Core → W64}
    (hi : ∀ c k w s, exec (i c k w) s = regOp c k w used (fun x => x.setS (fD w) (g w x)) s) (hgf : ∀ w x, g w x = f w x)
    (ho : opcodeListed op = true := by decide) : Computes i op used fun w x => x.setS (fD w) (f w x) := by
  obtain rfl : g = f := funext fun w => funext (hgf w)
  exact executes_of_issueOn (fun k w ch _ => .next (ch.modCore k fun x => x.setS (fD w) (g w x))) hi (fun _ _ _ => rfl) ho

/-! ### Words -/

/-- Bits of a word, read as a signed number. -/
theorem toInt_ofNat_eq_sgn {m : Nat} (hm : 0 < m) (n : Nat) : (BitVec.ofNat m n).toInt = sgn m n := by
  obtain ⟨m, rfl⟩ : ∃ j, m = j + 1 := ⟨m - 1, by omega⟩
  simp only [BitVec.toInt_eq_toNat_cond, BitVec.toNat_ofNat, sgn, Nat.add_sub_cancel, Nat.pow_succ]
  split <;> split <;> omega

/-- A number is read as signed from its low bits alone. -/
theorem sgn_bitsOf (m n : Nat) : sgn m (bitsOf n 0 m) = sgn m n := by
  simp [sgn, bitsOf]

/-- IMM32 and OFF as a signed number (R309). -/
theorem toInt_simm (w : W64) : (simm w).toInt = sgn 32 w.toNat := by
  rw [simm, BitVec.toInt_signExtend_of_le (by decide), toInt_ofNat_eq_sgn (by decide), fIMM, sgn_bitsOf]

/-- IMM32 as a word (R309). -/
theorem simm_eq_ofInt (w : W64) : simm w = BitVec.ofInt 64 (sgn 32 w.toNat) := by
  rw [← toInt_simm, BitVec.ofInt_toInt]

/-- IMM48 as a word (R314). -/
theorem imm48_eq_ofInt (w : W64) : (BitVec.ofNat 48 (fIMM48 w)).signExtend 64 = BitVec.ofInt 64 (sgn 48 w.toNat) := by
  rw [BitVec.signExtend, toInt_ofNat_eq_sgn (by decide), fIMM48, sgn_bitsOf]

/-- The signed difference is the difference. -/
theorem sub_eq_ofInt (a b : W64) : a - b = BitVec.ofInt 64 (a.toInt - b.toInt) :=
  BitVec.eq_of_toInt_eq (by rw [BitVec.toInt_sub, BitVec.toInt_ofInt])

/-- The product of the numbers. -/
theorem mul_eq_ofNat (a b : W64) : a * b = BitVec.ofNat 64 (a.toNat * b.toNat) :=
  BitVec.eq_of_toNat_eq (by rw [BitVec.toNat_mul, BitVec.toNat_ofNat])

/-- A left shift multiplies. -/
theorem shl_eq_ofNat (a : W64) (n : Nat) : a <<< n = BitVec.ofNat 64 (a.toNat * 2 ^ n) :=
  BitVec.eq_of_toNat_eq (by rw [BitVec.toNat_shiftLeft, BitVec.toNat_ofNat, Nat.shiftLeft_eq])

/-- A right shift divides. -/
theorem shr_eq_ofNat (a : W64) (n : Nat) : a >>> n = BitVec.ofNat 64 (a.toNat / 2 ^ n) := by
  rw [← Nat.shiftRight_eq_div_pow, ← BitVec.toNat_ushiftRight, BitVec.ofNat_toNat, BitVec.setWidth_eq]

/-- An arithmetic right shift divides, rounding down. -/
theorem sar_eq_ofInt (a : W64) (n : Nat) : a.sshiftRight n = BitVec.ofInt 64 (a.toInt / 2 ^ n) := by
  rw [BitVec.sshiftRight_eq, Int.shiftRight_eq_div_pow, Int.natCast_pow, Int.cast_ofNat_Int]

/-- A rotation by a shift count. -/
theorem rotateLeft_shiftCount (a b : W64) : a.rotateLeft (shiftCount b) = a <<< (b.toNat % 64) ||| a >>> (64 - b.toNat % 64) := by
  rw [BitVec.rotateLeft_def, shiftCount, Nat.mod_mod]

/-- A choice by a condition is one by a weaker condition where what the weaker one adds leaves no choice. -/
theorem ite_of_imp {α : Type} {p q : Prop} [Decidable p] [Decidable q] {x y : α} (hpq : p → q) (h : q → ¬ p → x = y) :
    (if p then x else y) = if q then x else y := by
  by_cases hp : p
  · rw [if_pos hp, if_pos (hpq hp)]
  · rw [if_neg hp]
    by_cases hq : q
    · rw [if_pos hq, h hq hp]
    · rw [if_neg hq]

/-- A signed comparison chooses between words. -/
theorem ite_slt_eq_ite_le {a b x y : W64} (h : a = b → x = y) :
    (if a.slt b then x else y) = if a.toInt ≤ b.toInt then x else y := by
  rw [BitVec.slt_eq_decide]
  refine ite_of_imp (fun hlt => Int.le_of_lt (of_decide_eq_true hlt)) fun hle hnot => h (BitVec.eq_of_toInt_eq ?_)
  rw [decide_eq_true_eq] at hnot
  omega

/-- An unsigned comparison chooses between words. -/
theorem ite_ult_eq_ite_le {a b x y : W64} (h : a = b → x = y) :
    (if a.ult b then x else y) = if a.toNat ≤ b.toNat then x else y := by
  rw [BitVec.ult_eq_decide]
  refine ite_of_imp (fun hlt => Nat.le_of_lt (of_decide_eq_true hlt)) fun hle hnot => h (BitVec.eq_of_toNat_eq ?_)
  rw [decide_eq_true_eq] at hnot
  omega

/-- The truth of a proposition as a word. -/
theorem truth_decide (p : Prop) [Decidable p] : truth (decide p) = if p then 1 else 0 := by
  simp only [truth, decide_eq_true_eq]

theorem truth_slt (a b : W64) : truth (a.slt b) = if a.toInt < b.toInt then 1 else 0 := by
  rw [BitVec.slt_eq_decide, truth_decide]

theorem truth_ult (a b : W64) : truth (a.ult b) = if a.toNat < b.toNat then 1 else 0 := by
  rw [BitVec.ult_eq_decide, truth_decide]

theorem bnot_slt (a b : W64) : (!a.slt b) = decide (b.toInt ≤ a.toInt) := by
  rw [BitVec.slt_eq_decide, ← decide_not, decide_eq_decide, Int.not_lt]

theorem bnot_ult (a b : W64) : (!a.ult b) = decide (b.toNat ≤ a.toNat) := by
  rw [BitVec.ult_eq_decide, ← decide_not, decide_eq_decide, Nat.not_lt]

/-- The signed quotient, with the one that overflows (R315). -/
theorem divS_eq (a b : W64) : divS a b = if b = 0 then BitVec.allOnes 64
    else if a = BitVec.ofNat 64 (2 ^ 63) ∧ b = BitVec.allOnes 64 then BitVec.ofNat 64 (2 ^ 63) else BitVec.ofInt 64 (a.toInt.tdiv b.toInt) := by
  refine congrArg (ite (b = 0) _) ?_
  split
  · rename_i h
    obtain ⟨rfl, rfl⟩ := h
    decide
  · rfl

/-- The signed remainder, with the one of the quotient that overflows (R315). -/
theorem remS_eq (a b : W64) : remS a b = if b = 0 then a
    else if a = BitVec.ofNat 64 (2 ^ 63) ∧ b = BitVec.allOnes 64 then 0 else BitVec.ofInt 64 (a.toInt.tmod b.toInt) := by
  refine congrArg (ite (b = 0) _) ?_
  split
  · rename_i h
    obtain ⟨rfl, rfl⟩ := h
    decide
  · rfl

/-! ### Branches -/

/-- The target of a branch (R316). -/
theorem branchTarget_eq (pc : Nat) (w : W64) : branchTarget pc w = (((pc : Int) + 8 * sgn 32 w.toNat) % 2 ^ 18).toNat := by
  rw [branchTarget, wrapInt, toInt_simm, Int.natCast_pow, Int.cast_ofNat_Int]

/-- The target of jalr (R316). -/
theorem jalrTarget_eq (a w : W64) : (a + simm w).toNat % 2 ^ 18 = ((a.toInt + sgn 32 w.toNat) % 2 ^ 18).toNat := by
  have hadd : a + simm w = BitVec.ofInt 64 (a.toInt + sgn 32 w.toNat) := by
    rw [BitVec.ofInt_add, BitVec.ofInt_toInt, simm_eq_ofInt]
  rw [hadd, BitVec.toNat_ofInt]
  omega

/-- A branch on scalar registers (R316). -/
theorem branch_executes {i : Nat → Nat → W64 → Instr} {op used : Nat} {g f : W64 → Core → Bool}
    (hi : ∀ c k w s, exec (i c k w) s = issueOn c k w used (fun ch x => if g w x then .jump ch (branchTarget x.pc w) else .next ch) s)
    (hgf : ∀ w x, g w x = f w x) (ho : opcodeListed op = true := by decide) :
    Executes i op used fun k w ch x =>
      if f w x then ch.retireTo k (((x.pc : Int) + 8 * sgn 32 w.toNat) % 2 ^ 18).toNat else ch.retireTo k (x.pc + 8) := by
  obtain rfl : g = f := funext fun w => funext (hgf w)
  refine executes_of_issueOn _ hi (fun k w ch => ?_) ho
  rw [← branchTarget_eq]
  split <;> rfl

/-- A branch on a predicate register (R311, R316). -/
theorem branchP_executes {i : Nat → Nat → W64 → Instr} {op used : Nat} {f : W64 → Core → Bool}
    (hi : ∀ c k w s, exec (i c k w) s = issueOn c k w used (fun ch x => if fA w ≥ 8 then .fault fcILLEGAL cBOUNDS 0
      else if f w x then .jump ch (branchTarget x.pc w) else .next ch) s) (ho : opcodeListed op = true := by decide) :
    Executes i op used fun k w ch x => if 8 ≤ fA w then ch.fault k fcILLEGAL cBOUNDS 0
      else if f w x then ch.retireTo k (((x.pc : Int) + 8 * sgn 32 w.toNat) % 2 ^ 18).toNat else ch.retireTo k (x.pc + 8) := by
  refine executes_of_issueOn _ hi (fun k w ch => ?_) ho
  rw [← branchTarget_eq]
  split
  · rfl
  · split <;> rfl

/-! ### The statement -/

/-- Settles O2: each row by the value it writes, and each branch by its condition and its target. -/
theorem scalarInstructionResults : Obligations.ScalarInstructionResults := by
  unfold Obligations.ScalarInstructionResults
  refine ⟨⟨?registers, ?immediates⟩, ?divisions, ?branches⟩
  case registers =>
    exact ⟨computes_setS (fun _ _ _ _ => rfl) fun _ _ => BitVec.add_def _ _,
      computes_setS (fun _ _ _ _ => rfl) fun _ _ => sub_eq_ofInt _ _,
      computes_setS (fun _ _ _ _ => rfl) fun _ _ => mul_eq_ofNat _ _,
      computes_setS (fun _ _ _ _ => rfl) fun _ _ => rfl,
      computes_setS (fun _ _ _ _ => rfl) fun _ _ => rfl,
      computes_setS (fun _ _ _ _ => rfl) fun _ _ => rfl,
      computes_setS (fun _ _ _ _ => rfl) fun _ _ => rfl,
      computes_setS (fun _ _ _ _ => rfl) fun _ _ => rfl,
      computes_setS (fun _ _ _ _ => rfl) fun _ _ => rfl,
      computes_setS (fun _ _ _ _ => rfl) fun _ _ => shl_eq_ofNat _ _,
      computes_setS (fun _ _ _ _ => rfl) fun _ _ => shr_eq_ofNat _ _,
      computes_setS (fun _ _ _ _ => rfl) fun _ _ => sar_eq_ofInt _ _,
      computes_setS (fun _ _ _ _ => rfl) fun _ _ => rotateLeft_shiftCount _ _,
      computes_setS (fun _ _ _ _ => rfl) fun _ _ => ite_slt_eq_ite_le id,
      computes_setS (fun _ _ _ _ => rfl) fun _ _ => ite_slt_eq_ite_le Eq.symm,
      computes_setS (fun _ _ _ _ => rfl) fun _ _ => ite_ult_eq_ite_le id,
      computes_setS (fun _ _ _ _ => rfl) fun _ _ => ite_ult_eq_ite_le Eq.symm,
      computes_setS (fun _ _ _ _ => rfl) fun _ _ => truth_slt _ _,
      computes_setS (fun _ _ _ _ => rfl) fun _ _ => truth_ult _ _,
      computes_setS (fun _ _ _ _ => rfl) fun _ _ => truth_decide _,
      computes_setS (fun _ _ _ _ => rfl) fun _ _ => ite_of_iff bne_iff_ne,
      computes_setS (fun _ _ _ _ => rfl) fun _ _ => rfl,
      computes_setS (fun _ _ _ _ => rfl) fun _ _ => rfl,
      computes_setS (fun _ _ _ _ => rfl) fun _ _ => rfl⟩
  case immediates =>
    exact ⟨computes_setS (fun _ _ _ _ => rfl) fun w _ => congrArg _ (simm_eq_ofInt w),
      computes_setS (fun _ _ _ _ => rfl) fun w _ => congrArg _ (simm_eq_ofInt w),
      computes_setS (fun _ _ _ _ => rfl) fun w _ => congrArg _ (simm_eq_ofInt w),
      computes_setS (fun _ _ _ _ => rfl) fun w _ => congrArg _ (simm_eq_ofInt w),
      computes_setS (fun _ _ _ _ => rfl) fun _ _ => shl_eq_ofNat _ _,
      computes_setS (fun _ _ _ _ => rfl) fun _ _ => shr_eq_ofNat _ _,
      computes_setS (fun _ _ _ _ => rfl) fun _ _ => sar_eq_ofInt _ _,
      computes_setS (fun _ _ _ _ => rfl) fun w _ => simm_eq_ofInt w ▸ truth_slt _ _,
      computes_setS (fun _ _ _ _ => rfl) fun w _ => simm_eq_ofInt w ▸ truth_ult _ _,
      computes_setS (fun _ _ _ _ => rfl) fun w _ => congrArg _ (simm_eq_ofInt w),
      computes_setS (fun _ _ _ _ => rfl) fun w _ => imm48_eq_ofInt w,
      computes_setS (fun _ _ _ _ => rfl) fun _ _ => rfl⟩
  case divisions =>
    exact ⟨computes_setS (fun _ _ _ _ => rfl) fun _ _ => divS_eq _ _,
      computes_setS (fun _ _ _ _ => rfl) fun _ _ => rfl,
      computes_setS (fun _ _ _ _ => rfl) fun _ _ => remS_eq _ _,
      computes_setS (fun _ _ _ _ => rfl) fun _ _ => rfl⟩
  case branches =>
    exact ⟨branch_executes (fun _ _ _ _ => rfl) fun _ _ => rfl,
      branch_executes (fun _ _ _ _ => rfl) fun _ _ => rfl,
      branch_executes (fun _ _ _ _ => rfl) fun _ _ => BitVec.slt_eq_decide,
      branch_executes (fun _ _ _ _ => rfl) fun _ _ => bnot_slt _ _,
      branch_executes (fun _ _ _ _ => rfl) fun _ _ => BitVec.ult_eq_decide,
      branch_executes (fun _ _ _ _ => rfl) fun _ _ => bnot_ult _ _,
      executes_of_issueOn _ (fun _ _ _ _ => rfl) fun k w _ => congrArg (Chip.retireTo _ k) (branchTarget_eq _ w),
      executes_of_issueOn _ (fun _ _ _ _ => rfl) fun k w _ => congrArg (Chip.retireTo _ k) (jalrTarget_eq _ w),
      branchP_executes fun _ _ _ _ => rfl,
      branchP_executes fun _ _ _ _ => rfl⟩

end Sys2Proof.Machine

namespace Sys2Proof.Machine

/-! ### The end of an instruction (R302, R353, R387) -/

/-- What `Retired` speaks of in a core: its registers, ACW, PC and count of instructions. -/
def Core.arch (x : Core) : List W64 × List V512 × List W64 × W32 × Nat × Nat := (x.s, x.v, x.p, x.acw, x.pc, x.retired)

/-- Memory and what `Retired` speaks of in each core are kept. -/
def Chip.KeepsArch (ch ch' : Chip) : Prop := ch'.mem = ch.mem ∧ ∀ j, (ch'.core j).arch = (ch.core j).arch

theorem Chip.KeepsArch.refl (ch : Chip) : ch.KeepsArch ch := ⟨rfl, fun _ => rfl⟩

theorem Chip.KeepsArch.trans {a b c : Chip} (hab : a.KeepsArch b) (hbc : b.KeepsArch c) : a.KeepsArch c :=
  ⟨hbc.1.trans hab.1, fun j => (hbc.2 j).trans (hab.2 j)⟩

/-- A core of a chip after it has changed. -/
theorem Chip.core_modCore_self {ch : Chip} {k : Nat} (hk : k < ch.cores.length) (f : Core → Core) : (ch.modCore k f).core k = f (ch.core k) := by
  rw [Chip.modCore_core, if_pos ⟨rfl, hk⟩]

/-- A change of a core that keeps what `Retired` speaks of. -/
theorem Chip.modCore_keepsArch (ch : Chip) (k : Nat) {f : Core → Core} (hf : ∀ x, (f x).arch = x.arch) : ch.KeepsArch (ch.modCore k f) := by
  refine ⟨rfl, fun j => ?_⟩
  rw [Chip.modCore_core]
  split
  · rename_i h
    rw [hf, h.1]
  · rfl

theorem Chip.ev_keepsArch (ch : Chip) (id cls agent part code arg0 arg1 level : Nat) :
    ch.KeepsArch (ch.ev id cls agent part code arg0 arg1 level) := by
  obtain ⟨r, p, o, h⟩ := ch.event_cases
    { cls := cls, id := id, agent := agent, part := part, code := code, level := level, arg0 := arg0, arg1 := arg1 }
  rw [Chip.ev, h]
  exact ⟨rfl, fun _ => rfl⟩

theorem Chip.forEach_keepsArch {f : Nat → Chip → Chip} (hf : ∀ i (a : Chip), a.KeepsArch (f i a)) (l : List Nat) (ch : Chip) :
    ch.KeepsArch (ch.forEach l f) := by
  induction l generalizing ch with
  | nil => exact .refl ch
  | cons i l ih => exact (hf i ch).trans (ih (f i ch))

theorem Chip.debugHalt_keepsArch (ch : Chip) (k reason index : Nat) : ch.KeepsArch (ch.debugHalt k reason index) := by
  unfold Chip.debugHalt
  dsimp only
  split
  · exact .refl ch
  · exact (ch.modCore_keepsArch k fun _ => by rfl).trans (Chip.ev_keepsArch ..)

theorem Chip.haltCore_keepsArch (ch : Chip) (k reason index : Nat) : ch.KeepsArch (ch.haltCore k reason index) := by
  have hhalt := ch.debugHalt_keepsArch k reason index
  unfold Chip.haltCore
  dsimp only
  split
  · exact hhalt.trans (Chip.forEach_keepsArch (fun j a => a.debugHalt_keepsArch j 2 0) _ _)
  · exact hhalt

theorem Chip.watched_keepsArch (ch : Chip) (k : Nat) (l : List (Nat × Nat)) (store : Bool) : ch.KeepsArch (ch.watched k l store) := by
  unfold Chip.watched
  split
  · split
    · exact ch.haltCore_keepsArch k 5 _
    · exact .refl ch
  · exact .refl ch

/-- The core that retires at `pc`, before a STEP halts it. -/
def Core.gone (x : Core) (pc : Nat) : Core :=
  { x with
    pc := pc % 0x40000
    retired := (x.retired + 1) % 2 ^ 64
    tretired := x.tretired + 1
    state := .running
    wait := none
    dbg := { x.dbg with skip := false } }

theorem Chip.retireTo_keepsArch (ch : Chip) (k pc : Nat) : (ch.modCore k (Core.gone · pc)).KeepsArch (ch.retireTo k pc) := by
  unfold Chip.retireTo
  dsimp only
  split
  · exact Chip.haltCore_keepsArch ..
  · exact .refl _

/-- An instruction that retires, its effect having left the chip `a`. -/
def Res.Retires (a : Chip) (r : Res) : Prop := r = .next a ∨ ∃ l store, r = .touch a l store

/-- An instruction that retires: the chip that its effect has left, once its core has gone on. -/
theorem Chip.settleRes_keepsArch {a : Chip} {r : Res} (hr : r.Retires a) (ch : Chip) (k : Nat) :
    (a.modCore k (Core.gone · ((a.core k).pc + 8))).KeepsArch (ch.settleRes k r) := by
  rcases hr with rfl | ⟨l, store, rfl⟩
  · exact a.retireTo_keepsArch k _
  · exact (a.retireTo_keepsArch k _).trans (Chip.watched_keepsArch ..)

/-- Core `k` has retired an instruction whose effect gave it the registers of `y`. -/
theorem Chip.settleRes_retired {ch f a : Chip} {k : Nat} {y : Core} {r : Res} (hr : r.Retires a) (hk : k < a.cores.length)
    (ha : (a.core k).arch = y.arch) (hacw : y.acw = (ch.core k).acw) (hpc : y.pc = (ch.core k).pc) (hret : y.retired = (ch.core k).retired) :
    Retired ch (f.settleRes k r) k y ((ch.core k).pc + 8) := by
  have hgone := (Chip.settleRes_keepsArch hr f k).2 k
  rw [Chip.core_modCore_self hk] at hgone
  simp only [Core.arch, Core.gone, Prod.mk.injEq] at hgone ha
  obtain ⟨hs', hv', hp', hacw', hpc', hret'⟩ := hgone
  obtain ⟨hs, hv, hp, ha, hapc, har⟩ := ha
  exact ⟨hs'.trans hs, hv'.trans hv, hp'.trans hp, by rw [hacw', ha, hacw],
    hpc'.trans (congrArg (fun n => (n + 8) % 0x40000) (hapc.trans hpc)), by rw [hret', har, hret]⟩

/-! ### Tokens and corrected errors of an access (R82, R566) -/

@[simp] theorem Chip.pay_mem (ch : Chip) (p : Nat) (pl : Place) (write : Bool) (a n : Nat) : (ch.pay p pl write a n).mem = ch.mem := by
  unfold Chip.pay
  split <;> rfl

@[simp] theorem Chip.pay_cores (ch : Chip) (p : Nat) (pl : Place) (write : Bool) (a n : Nat) : (ch.pay p pl write a n).cores = ch.cores := by
  unfold Chip.pay
  split <;> rfl

theorem Chip.countLine_keeps (ch : Chip) (l : Nat) : (ch.countLine l).mem = ch.mem ∧ (ch.countLine l).cores = ch.cores := by
  unfold Chip.countLine
  split
  · exact ⟨rfl, rfl⟩
  · split <;> exact ⟨rfl, rfl⟩

theorem Chip.countSoft_keeps (ch : Chip) (a n : Nat) : (ch.countSoft a n).mem = ch.mem ∧ (ch.countSoft a n).cores = ch.cores := by
  unfold Chip.countSoft
  generalize (linesOf a n).filter _ = l
  induction l generalizing ch with
  | nil => exact ⟨rfl, rfl⟩
  | cons i l ih => exact ⟨(ih _).1.trans (ch.countLine_keeps i).1, (ih _).2.trans (ch.countLine_keeps i).2⟩

/-! ### The chip after a fetch answers an access as before -/

section
variable (ch : Chip) (k : Nat)

theorem Chip.fetched_mem : (ch.fetched k).mem = ch.mem := by
  obtain ⟨r, h⟩ := ch.fetched_cases k
  rw [h]

theorem Chip.fetched_cores : (ch.fetched k).cores = ch.cores := by
  obtain ⟨r, h⟩ := ch.fetched_cases k
  rw [h]

theorem Chip.fetched_bad (a n : Nat) : (ch.fetched k).bad a n = ch.bad a n := by
  obtain ⟨r, h⟩ := ch.fetched_cases k
  rw [h]
  rfl

theorem Chip.fetched_writeCode (a n : Nat) : (ch.fetched k).writeCode a n = ch.writeCode a n := by
  obtain ⟨r, h⟩ := ch.fetched_cases k
  rw [h]
  rfl

theorem Chip.fetched_canRead (j a n : Nat) : (ch.fetched k).canRead j a n = ch.canRead j a n := by
  obtain ⟨r, h⟩ := ch.fetched_cases k
  rw [h]
  rfl

theorem Chip.fetched_canWrite (j a n : Nat) : (ch.fetched k).canWrite j a n = ch.canWrite j a n := by
  obtain ⟨r, h⟩ := ch.fetched_cases k
  rw [h]
  rfl

end

/-- Cores that are kept are kept one by one. -/
theorem Chip.core_congr {c ch : Chip} (h : c.cores = ch.cores) (k : Nat) : c.core k = ch.core k := by
  rw [Chip.core, Chip.core, h]

/-- What an agent sees depends on memory and the cores alone. -/
theorem Chip.see_congr {c ch : Chip} (hm : c.mem = ch.mem) (hc : c.cores = ch.cores) (own : Option Nat) (a n : Nat) :
    c.see own a n = ch.see own a n := by
  unfold Chip.see
  cases coreOfAddr a with
  | none => simp only [Chip.readBytes, hm]
  | some j =>
    dsimp only [Chip.readBytes, Chip.committedMem]
    rw [Chip.core_congr hc, hm]

/-- The epochs that a store dooms depend on the cores alone. -/
theorem Chip.clash_congr {c ch : Chip} (hc : c.cores = ch.cores) (a n : Nat) : c.clash a n = ch.clash a n := by
  simp only [Chip.clash, Chip.core, hc]

/-! ### An access lies in one memory (R84 to R86, R366) -/

/-- The DRAM of a variant ends below the stores of the chip. -/
theorem Variant.dramBytes_le (v : Variant) : v.dramBytes ≤ podStoreBase := by
  cases v <;> decide

/-- An address as the map sees it: in a core's store of that number, or in none. -/
theorem coreOfAddr_eq (a : Nat) : coreOfAddr a = if 0x4100000000 ≤ a ∧ a < 0x4200000000 then some ((a - 0x4100000000) / 0x200000) else none := by
  simp only [coreOfAddr, Bool.and_eq_true, decide_eq_true_eq]

/-- Where the map puts an access to a memory of the chip: below the stores of the chip, in the stores of pods, or in one core's store. -/
theorem Chip.place_local {ch : Chip} {a n : Nat} {pl : Place} (hpl : ch.place a n = some pl) (hlocal : pl.isLocal = true) :
    a + n ≤ 0x4100000000 ∨ ∃ j, 0x4100000000 + j * 0x200000 ≤ a ∧ a + n ≤ 0x4100000000 + (j + 1) * 0x200000 ∧ a < 0x4200000000 := by
  have hdram := ch.variant.dramBytes_le
  simp only [Chip.place, Bool.and_eq_true, decide_eq_true_eq] at hpl
  split at hpl
  · simp only [podStoreBase] at hdram
    exact .inl (by omega)
  split at hpl
  · rename_i hp
    split at hpl
    · rename_i hpod
      simp only [podBase, podStoreBase, coreStoreBase] at hp hpod
      exact .inl (by omega)
    · cases hpl
  split at hpl
  · rename_i hc
    split at hpl
    · rename_i hcore
      simp only [coreBase, coreStoreBase, regBase] at hc hcore
      exact .inr ⟨_, by omega, hcore.2, hc.2⟩
    · cases hpl
  -- what lies beyond the stores is no memory of the chip
  repeat' split at hpl
  all_goals cases hpl
  all_goals cases hlocal

/-- Every byte of an access to a memory of the chip lies in the same core's store, or in none. -/
theorem coreOfAddr_of_place {ch : Chip} {a n b : Nat} {pl : Place} (hpl : ch.place a n = some pl) (hlocal : pl.isLocal = true) (hab : a ≤ b)
    (hb : b < a + n) : coreOfAddr b = coreOfAddr a := by
  rw [coreOfAddr_eq, coreOfAddr_eq]
  rcases Chip.place_local hpl hlocal with h | ⟨j, hj, hj', ha⟩
  · rw [if_neg (by omega), if_neg (by omega)]
  · rw [if_pos (by omega), if_pos (by omega), Option.some.injEq]
    omega

/-- The place that an access reaches is the one of the map. -/
theorem Chip.place_of_reach {ch : Chip} {p a n : Nat} {pl : Place} (h : ch.reach p a n = .ok pl) : ch.place a n = some pl := by
  unfold Chip.reach at h
  split at h
  · cases h
  · rename_i q hq
    split at h
    · cases h
      exact hq
    · cases h

/-- Every byte of an access to a core's own store lies in the same core's store. -/
theorem coreOfAddr_of_inOwn {k a n b : Nat} (h : inOwn k a n = true) (hab : a ≤ b) (hb : b < a + n) : coreOfAddr b = coreOfAddr a := by
  simp only [inOwn, Bool.and_eq_true, decide_eq_true_eq] at h
  simp only [coreBase, coreStoreBase] at h
  rw [coreOfAddr_eq, coreOfAddr_eq]
  split
  · rw [if_pos (by omega), Option.some.injEq]
    omega
  · rw [if_neg (by omega)]

/-- Every byte of a read that is allowed lies in the same core's store, or in none. -/
theorem Chip.canRead.coreOfAddr {ch : Chip} {k a n b : Nat} (h : ch.canRead k a n) (hab : a ≤ b) (hb : b < a + n) :
    coreOfAddr b = coreOfAddr a := by
  obtain ⟨pl, hreach, hlocal, -, -⟩ := h
  exact coreOfAddr_of_place (Chip.place_of_reach hreach) hlocal hab hb

/-- Every byte of a write that is allowed lies in the same core's store, or in none. -/
theorem Chip.canWrite.coreOfAddr {ch : Chip} {k a n b : Nat} (h : ch.canWrite k a n) (hab : a ≤ b) (hb : b < a + n) :
    coreOfAddr b = coreOfAddr a := by
  obtain ⟨hown | ⟨-, pl, hreach, hlocal, -⟩, -, -⟩ := h
  · exact coreOfAddr_of_inOwn hown hab hb
  · exact coreOfAddr_of_place (Chip.place_of_reach hreach) hlocal hab hb

/-- The memory in which an agent sees the byte at an address: without what the OPEN epochs of another core wrote there (R366). -/
def Chip.view (ch : Chip) (own : Option Nat) (a : Nat) : List Host.Cell :=
  match coreOfAddr a with
  | some k => if own == some k || (ch.core k).epochOrder.isEmpty then ch.mem else ch.committedMem k
  | none => ch.mem

theorem Chip.see_eq_view (ch : Chip) (own : Option Nat) (a n : Nat) : ch.see own a n = Memory.bytes (ch.view own a) a n := by
  unfold Chip.see Chip.view
  cases coreOfAddr a with
  | none => rfl
  | some k => exact (apply_ite (Memory.bytes · a n) _ _ _).symm

theorem Chip.view_congr {a b : Nat} (h : coreOfAddr b = coreOfAddr a) (ch : Chip) (own : Option Nat) : ch.view own b = ch.view own a := by
  rw [Chip.view, Chip.view, h]

/-! ### A load of a memory of the chip -/

/-- A load that is allowed takes what it brings at once; only tokens and counts of errors are spent (R81, R82, R565). -/
theorem loadFrom_local {ch : Chip} {k a n : Nat} (h : ch.canRead k a n) (whole wholeLen : Nat) (ranges : List (Nat × Nat))
    (take : Chip → Core → Core) (kind : ReqKind) (x : Core) :
    ∃ c b : Chip, loadFrom k a n whole wholeLen ranges take kind ch x = .touch (b.modCore k (take c)) ranges false ∧
      c.mem = ch.mem ∧ c.cores = ch.cores ∧ b.mem = ch.mem ∧ b.cores = ch.cores := by
  obtain ⟨pl, hreach, hlocal, hstarved, hbad⟩ := h
  let c := ch.pay (ch.partNo k) pl false a n
  obtain ⟨hm, hc⟩ := c.countSoft_keeps a n
  refine ⟨c, c.countSoft a n, ?_, by simp [c], by simp [c], by simp [hm, c], by simp [hc, c]⟩
  unfold loadFrom
  simp only [hreach, hstarved, Bool.false_eq_true, if_false]
  cases pl with
  | dram => simp only [hbad, Bool.false_eq_true, if_false, c]
  | podStore d => simp only [hbad, Bool.false_eq_true, if_false, c]
  | coreStore j => simp only [hbad, Bool.false_eq_true, if_false, c]
  | regs o => cases hlocal
  | window m o => cases hlocal
  | host o => cases hlocal

/-! ### Bytes and numbers -/

/-- What a list holds at a place of it. -/
theorem getD_of_lt {α : Type} {l : List α} {i : Nat} (h : i < l.length) (d : α) : l.getD i d = l[i] := by
  rw [List.getD_eq_getElem?_getD, List.getElem?_eq_getElem h, Option.getD_some]

/-- Bytes that one read brings, cut in two. -/
theorem Memory.bytes_add (m : List Host.Cell) (a n1 n2 : Nat) : Memory.bytes m a (n1 + n2) = Memory.bytes m a n1 ++ Memory.bytes m (a + n1) n2 := by
  induction n1 generalizing a with
  | zero => simp [Memory.bytes]
  | succ n1 ih => rw [Nat.succ_add, Memory.bytes, Memory.bytes, ih, List.cons_append, Nat.succ_add_eq_add_succ]

/-- The number that bytes spell stays below the power of their count. -/
theorem leNat_lt (l : List Nat) : leNat l < 2 ^ (8 * l.length) := by
  induction l with
  | nil => simp [leNat]
  | cons b r ih =>
    rw [leNat, List.length_cons, Nat.mul_succ, Nat.pow_add]
    omega

/-- A word wide enough for the number that bytes spell, moved up. -/
theorem toNat_ofNat_leNat_mul {l : List Nat} {e m : Nat} (h : 8 * l.length + e ≤ m) :
    (BitVec.ofNat m (leNat l * 2 ^ e)).toNat = leNat l * 2 ^ e := by
  have hfit : leNat l * 2 ^ e < 2 ^ m :=
    calc leNat l * 2 ^ e < 2 ^ (8 * l.length) * 2 ^ e := Nat.mul_lt_mul_of_pos_right (leNat_lt l) (Nat.two_pow_pos e)
      _ = 2 ^ (8 * l.length + e) := (Nat.pow_add ..).symm
      _ ≤ 2 ^ m := Nat.pow_le_pow_right Nat.two_pos h
  rw [BitVec.toNat_ofNat, Nat.mod_eq_of_lt hfit]

/-- The number that two lists of bytes spell. -/
theorem leNat_append (l r : List Nat) : leNat (l ++ r) = leNat l + 2 ^ (8 * l.length) * leNat r := by
  induction l with
  | nil => simp [leNat]
  | cons b l ih =>
    rw [List.cons_append, leNat, leNat, ih, List.length_cons, Nat.mul_succ, Nat.pow_add, Nat.mul_add, Nat.add_assoc,
      Nat.mul_left_comm 256, Nat.mul_assoc]

/-- A field of the number that bytes spell is the number of its own bytes. -/
theorem bitsOf_leNat_bytes (m : List Host.Cell) {a n i size : Nat} (h : i + size ≤ n) :
    bitsOf (leNat (Memory.bytes m a n)) (8 * i) (8 * size) = leNat (Memory.bytes m (a + i) size) := by
  obtain ⟨r, rfl⟩ := Nat.exists_eq_add_of_le h
  have hlow := leNat_lt (Memory.bytes m a i)
  have hmid := leNat_lt (Memory.bytes m (a + i) size)
  rw [Memory.bytes_length] at hlow hmid
  rw [Memory.bytes_add, Memory.bytes_add, leNat_append, leNat_append, List.length_append, Memory.bytes_length, Memory.bytes_length,
    Nat.mul_add, Nat.pow_add, Nat.mul_assoc, Nat.add_assoc, ← Nat.mul_add, bitsOf, Nat.shiftRight_eq_div_pow,
    Nat.add_mul_div_left _ _ (Nat.two_pow_pos _), Nat.div_eq_of_lt hlow, Nat.zero_add, Nat.add_mul_mod_self_left, Nat.mod_eq_of_lt hmid]

/-! ### Lanes of a vector that a load fills (R312, R321) -/

/-- A bit of a field. -/
theorem bitsOf_testBit (n lo len i : Nat) : (bitsOf n lo len).testBit i = (decide (i < len) && n.testBit (lo + i)) := by
  rw [bitsOf, Nat.testBit_mod_two_pow, Nat.testBit_shiftRight]

/-- A lane is its bits. -/
theorem lane_eq_of_bits {u v : V512} {wd j : Nat} (h : ∀ i, i < wd → u.getLsbD (j * wd + i) = v.getLsbD (j * wd + i)) :
    lane u wd j = lane v wd j := by
  refine Nat.eq_of_testBit_eq fun i => ?_
  rw [lane, lane, bitsOf_testBit, bitsOf_testBit]
  by_cases hi : i < wd
  · rw [BitVec.testBit_toNat, BitVec.testBit_toNat, h i hi]
  · simp only [hi, decide_false, Bool.false_and]

/-- The bits of lane `i`. -/
def laneMask (wd i : Nat) : V512 := (BitVec.ofNat 512 (2 ^ wd - 1)) <<< (wd * i)

theorem laneMask_bit {wd i b : Nat} (hb : b < 512) : (laneMask wd i).getLsbD b = decide (wd * i ≤ b ∧ b < wd * i + wd) := by
  rw [laneMask, BitVec.getLsbD_shiftLeft, BitVec.getLsbD_ofNat, Nat.testBit_two_pow_sub_one]
  rcases Nat.lt_or_ge b (wd * i) with h | h
  · simp [h, Nat.not_le.2 h]
  · have h512 : b - wd * i < 512 := by omega
    have hiff : b - wd * i < wd ↔ b < wd * i + wd := by omega
    simp [hb, h, Nat.not_lt.2 h, h512, hiff]

/-- Lane `j` once lane `i` is replaced. -/
theorem lane_replace {wd i j : Nat} (old new : V512) (hj : j * wd + wd ≤ 512) :
    lane ((old &&& ~~~laneMask wd i) ||| (new &&& laneMask wd i)) wd j = if j = i then lane new wd j else lane old wd j := by
  rw [← apply_ite (lane · wd j)]
  refine lane_eq_of_bits fun b hb => ?_
  have hlt : j * wd + b < 512 := by omega
  have hmask : (laneMask wd i).getLsbD (j * wd + b) = decide (j = i) := by
    rw [laneMask_bit hlt, decide_eq_decide]
    rw [Nat.mul_comm j wd]
    refine ⟨fun ⟨hlo, hhi⟩ => ?_, fun h => by subst h; omega⟩
    -- a bit of lane `j` is in lane `i` neither from below nor from above
    rcases Nat.lt_trichotomy j i with hji | hji | hji
    · have hbelow := Nat.mul_le_mul_left wd (Nat.succ_le_of_lt hji)
      rw [Nat.mul_succ] at hbelow
      omega
    · exact hji
    · have habove := Nat.mul_le_mul_left wd (Nat.succ_le_of_lt hji)
      rw [Nat.mul_succ] at habove
      omega
  rw [BitVec.getLsbD_or, BitVec.getLsbD_and, BitVec.getLsbD_and, BitVec.getLsbD_not, hmask]
  by_cases h : j = i <;> simp [h, hlt]

/-- Lane `j` once the lanes of a list that a predicate sets are replaced. -/
theorem lane_replaceAll {wd j : Nat} (pg : Nat) (l : List Nat) (old new : V512) (hj : j * wd + wd ≤ 512) :
    lane (l.foldl (fun a i => if bitOf pg i then (a &&& ~~~laneMask wd i) ||| (new &&& laneMask wd i) else a) old) wd j =
      if j ∈ l ∧ bitOf pg j then lane new wd j else lane old wd j := by
  induction l generalizing old with
  | nil => simp
  | cons i l ih =>
    rw [List.foldl_cons, ih]
    by_cases hji : j = i
    · subst hji
      by_cases hset : bitOf pg j = true <;> simp [hset, lane_replace _ _ hj]
    · by_cases hset : bitOf pg i = true <;> simp [hset, hji, lane_replace _ _ hj]

/-- A lane below the lane count lies in the vector. -/
theorem lane_end_le {wd j : Nat} (hj : j < 512 / wd) : j * wd + wd ≤ 512 := by
  rw [← Nat.succ_mul]
  exact Nat.le_trans (Nat.mul_le_mul_right wd hj) (Nat.div_mul_le_self 512 wd)

/-- Lane `j` of a merge: of the new vector where the predicate is set, of the old one otherwise (R312). -/
theorem lane_vMerge {wd j : Nat} (pg : Nat) (old new : V512) (hj : j < 512 / wd) :
    lane (vMerge wd pg old new) wd j = if bitOf pg j then lane new wd j else lane old wd j := by
  refine (lane_replaceAll pg (List.range (512 / wd)) old new (lane_end_le hj)).trans (ite_of_iff ?_)
  simp [hj]

/-- An active lane is one below the lane count whose predicate bit is set. -/
theorem mem_activeLanes {wd j : Nat} {pg : W64} : j ∈ activeLanes wd pg ↔ j < 512 / wd ∧ pg.getLsbD j = true := by
  simp [activeLanes]

/-- The active lanes rise. -/
theorem activeLanes_pairwise (wd : Nat) (pg : W64) : (activeLanes wd pg).Pairwise (· < ·) :=
  List.Pairwise.filter _ List.pairwise_lt_range

/-- The first and the last of a rising list bound it. -/
theorem pairwise_bounds {l : List Nat} (h : l.Pairwise (· < ·)) (hne : l ≠ []) : ∀ j ∈ l, l.head hne ≤ j ∧ j ≤ l.getLast hne := by
  intro j hj
  obtain ⟨n, hn, rfl⟩ := List.getElem_of_mem hj
  rw [List.head_eq_getElem, List.getLast_eq_getElem]
  have hrise := List.pairwise_iff_getElem.1 h
  constructor
  · rcases Nat.eq_zero_or_pos n with rfl | hpos
    · exact Nat.le_refl _
    · exact Nat.le_of_lt (hrise 0 n _ hn hpos)
  · rcases Nat.lt_or_ge n (l.length - 1) with hlt | hge
    · exact Nat.le_of_lt (hrise n (l.length - 1) hn _ hlt)
    · obtain rfl : n = l.length - 1 := by omega
      exact Nat.le_refl _

/-- The first and the last active lane bound the active lanes. -/
theorem activeLanes_bounds {wd : Nat} {pg : W64} (hne : activeLanes wd pg ≠ []) :
    ∃ i m, (activeLanes wd pg).head? = some i ∧ (activeLanes wd pg).getLast? = some m ∧ m ∈ activeLanes wd pg ∧
      ∀ j ∈ activeLanes wd pg, i ≤ j ∧ j ≤ m :=
  ⟨_, _, List.head?_eq_some_head hne, List.getLast?_eq_some_getLast hne, List.getLast_mem hne,
    pairwise_bounds (activeLanes_pairwise wd pg) hne⟩

/-- The bytes from the first active lane of `size` bytes to the last: offset and length. -/
abbrev spanOf (size : Nat) (pg : W64) : Nat × Nat := laneSpan (8 * size) (activeLanes (8 * size) pg)

/-- The span of the active lanes holds each of them, and lies in the vector (R321). -/
theorem laneSpan_covers {size j : Nat} {pg : W64} (hj : j ∈ activeLanes (8 * size) pg) :
    (spanOf size pg).1 ≤ j * size ∧ j * size + size ≤ (spanOf size pg).1 + (spanOf size pg).2 ∧
    (spanOf size pg).1 + (spanOf size pg).2 ≤ 64 := by
  obtain ⟨i, m, hi, hm, hmem, hbound⟩ := activeLanes_bounds (List.ne_nil_of_mem hj)
  obtain ⟨hij, hjm⟩ := hbound j hj
  have hend := lane_end_le (mem_activeLanes.1 hmem).1
  have him : i * size ≤ (m + 1) * size := Nat.mul_le_mul_right _ (by omega)
  have hjm' : (j + 1) * size ≤ (m + 1) * size := Nat.mul_le_mul_right _ (by omega)
  simp only [spanOf, laneSpan, hi, hm, Nat.mul_div_cancel_left size (show 0 < 8 by decide), Nat.sub_mul]
  rw [Nat.succ_mul, Nat.succ_mul] at hjm'
  rw [Nat.add_sub_cancel' him, Nat.succ_mul]
  refine ⟨Nat.mul_le_mul_right _ hij, hjm', ?_⟩
  rw [Nat.mul_left_comm] at hend
  omega

/-- A lane of the bytes that a vector load brings is the element at its place (R321). -/
theorem lane_seeSpan {ch : Chip} {k a o n size j : Nat} (ho : o ≤ j * size) (hn : j * size + size ≤ o + n) (h64 : o + n ≤ 64)
    (hsame : coreOfAddr (a + j * size) = coreOfAddr (a + o)) :
    lane (ch.seeSpan k a o n) (8 * size) j = leNat (ch.see (some k) (a + j * size) size) := by
  rw [Chip.seeSpan, Chip.see_eq_view, Chip.see_eq_view, Chip.view_congr hsame]
  have hshift : j * (8 * size) = 8 * o + 8 * (j * size - o) := by rw [Nat.mul_left_comm]; omega
  have hfield := bitsOf_leNat_bytes (ch.view (some k) (a + o)) (a := a + o) (show j * size - o + size ≤ n by omega)
  rw [show a + o + (j * size - o) = a + j * size by omega] at hfield
  rw [lane, toNat_ofNat_leNat_mul (by rw [Memory.bytes_length]; omega), hshift, ← hfield, bitsOf, bitsOf, Nat.shiftRight_add,
    ← Nat.shiftLeft_eq, Nat.shiftLeft_shiftRight]

/-! ### Vector loads (R321, R324) -/

/-- A vector register that holds what it held is no change. -/
theorem Core.setV_getV (x : Core) (d : Nat) : x.setV d (x.getV d) = x := by
  rcases Nat.lt_or_ge d x.v.length with hd | hd
  · rw [Core.setV, Core.getV, getD_of_lt hd, List.set_getElem_self]
  · exact Core.setV_of_length_le hd _

/-- Without an active lane every lane is as it was. -/
theorem lanesAre_inactive {wd : Nat} {pg : W64} (h : activeLanes wd pg = []) (f : Nat → Nat) (old : V512) :
    LanesAre wd (fun j => pg.getLsbD j) f old old := fun j hj => by
  have hout : ¬ pg.getLsbD j = true := fun hset => by simpa [h] using mem_activeLanes.2 ⟨hj, hset⟩
  rw [if_neg hout]

/-- What a vector load that is allowed brings to vD: each active lane its element, the others what they held (R312, R321). -/
theorem lanesAre_vMerge {ch : Chip} {k a size : Nat} {pg : W64} (hsize : 0 < size) (old : V512)
    (hread : ch.canRead k (a + (spanOf size pg).1) (spanOf size pg).2) :
    LanesAre (8 * size) (fun j => pg.getLsbD j) (fun j => leNat (ch.see (some k) (a + j * size) size)) old
      (vMerge (8 * size) pg.toNat old (ch.seeSpan k a (spanOf size pg).1 (spanOf size pg).2)) := by
  intro j hj
  rw [lane_vMerge _ _ _ hj, bitOf, BitVec.testBit_toNat]
  split
  · rename_i hset
    obtain ⟨ho, hn, h64⟩ := laneSpan_covers (mem_activeLanes.2 ⟨hj, hset⟩)
    have helem := lane_seeSpan (ch := ch) (k := k) ho hn h64 (hread.coreOfAddr (b := a + j * size) (by omega) (by omega))
    dsimp only
    rw [← helem, Nat.mod_eq_of_lt (lane_lt _ _ _)]
  · rfl

/-- The instruction retires: its core takes `v` to vD, and nothing in memory changes. -/
def Res.LoadsV (ch : Chip) (k d : Nat) (v : V512) (r : Res) : Prop :=
  ∃ a, r.Retires a ∧ a.mem = ch.mem ∧ k < a.cores.length ∧ a.core k = (ch.core k).setV d v

/-- An instruction that does nothing but retire takes to vD what vD held. -/
theorem Res.loadsV_next {ch : Chip} {k : Nat} (hk : k < ch.cores.length) (d : Nat) :
    Res.LoadsV ch k d ((ch.core k).getV d) (.next ch) :=
  ⟨ch, .inl rfl, rfl, hk, ((ch.core k).setV_getV d).symm⟩

/-- An instruction that gives vD a value and touches memory takes it there. -/
theorem Res.loadsV_touch {ch : Chip} {k : Nat} (hk : k < ch.cores.length) (d : Nat) (g : Core → V512) (ranges : List (Nat × Nat)) (store : Bool) :
    Res.LoadsV ch k d (g (ch.core k)) (.touch (ch.modCore k fun y => y.setV d (g y)) ranges store) :=
  ⟨_, .inr ⟨_, _, rfl⟩, rfl, by rwa [Chip.modCore_cores_length], Chip.core_modCore_self hk _⟩

/-- What an instruction leaves that loads a vector. -/
theorem Res.LoadsV.settles {ch : Chip} {k d : Nat} {v : V512} {r : Res} (h : r.LoadsV (ch.fetched k) k d v) (f : Chip) :
    Unstored ch.mem (f.settleRes k r).mem ∧ Retired ch (f.settleRes k r) k ((ch.core k).setV d v) ((ch.core k).pc + 8) := by
  obtain ⟨a, hr, hm, hk, hcore⟩ := h
  rw [Chip.fetched_core] at hcore
  refine ⟨fun b => ?_, Chip.settleRes_retired hr hk (by rw [hcore]) rfl rfl rfl⟩
  rw [(Chip.settleRes_keepsArch hr f k).1, Chip.modCore_mem, hm, Chip.fetched_mem]

/-- A vector load of a memory of the chip. -/
theorem vloadOp_loadsV {ch : Chip} {k size : Nat} {w : W64} (hsize : 0 < size) (hk : k < ch.cores.length) :
    let x := ch.core k
    let a := effAddr x w
    let pg := x.getP (fMP w)
    memFormOk .load w = true → ordered .load w x = true → a % size = 0 →
    (activeLanes (8 * size) pg = [] ∨ ch.canRead k (a + (spanOf size pg).1) (spanOf size pg).2) →
    ∃ v, (vloadOp (8 * size) k w ch x).LoadsV ch k (fD w) v ∧
      LanesAre (8 * size) (fun j => pg.getLsbD j) (fun j => leNat (ch.see (some k) (a + j * size) size)) (x.getV (fD w)) v := by
  dsimp only
  intro hform hord halign hread
  unfold vloadOp
  simp only [hform, hord, Nat.mul_div_cancel_left size (show 0 < 8 by decide), halign, Bool.not_true, bne_self_eq_false, Bool.false_eq_true, if_false]
  by_cases hnone : activeLanes (8 * size) ((ch.core k).getP (fMP w)) = []
  · simp only [hnone, List.isEmpty_nil, if_true]
    exact ⟨_, Res.loadsV_next hk _, lanesAre_inactive hnone _ _⟩
  · rw [if_neg (by rwa [List.isEmpty_iff])]
    have hread := hread.resolve_left hnone
    obtain ⟨c, b, hload, hcm, hcc, hbm, hbc⟩ := loadFrom_local hread _ _ _ _ _ _
    refine ⟨_, ⟨_, .inr ⟨_, _, hload⟩, hbm, ?_, ?_⟩, lanesAre_vMerge hsize _ hread⟩
    · rwa [Chip.modCore_cores_length, hbc]
    · rw [Chip.core_modCore_self (by rwa [hbc]), Chip.core_congr hbc, Chip.seeSpan, Chip.see_congr hcm hcc]
      rfl

/-- A core that executes an instruction is one of the chip's, once it has fetched. -/
theorem Chip.lt_of_ready {ch : Chip} {k : Nat} {w : W64} {op used : Nat} (h : ch.ready k w op used = true) :
    k < (ch.fetched k).cores.length := by
  simp only [Chip.ready, Chip.canIssue, Bool.and_eq_true, decide_eq_true_eq] at h
  obtain ⟨⟨⟨⟨⟨⟨⟨⟨⟨⟨⟨⟨⟨hk, -⟩, -⟩, -⟩, -⟩, -⟩, -⟩, -⟩, -⟩, -⟩, -⟩, -⟩, -⟩, -⟩ := h
  rwa [Chip.fetched_cores]

/-- A row of the vector loads (R321, R324). -/
theorem vectorLoad_result {i : Nat → Nat → W64 → Instr} {op size : Nat}
    (hi : ∀ c k w s, exec (i c k w) s = issueOn c k w mVector (vloadOp (8 * size) k w) s) (hsize : 0 < size)
    (ho : opcodeListed op = true := by decide) (s : State) (c k : Nat) (w : W64) (ch : Chip) (hc : s.chips[c]? = some ch)
    (hr : ch.ready k w op mVector = true) :
    let x := ch.core k
    let a := effAddr x w
    let pg := x.getP (fMP w)
    memFormOk .load w = true → ordered .load w x = true → a % size = 0 →
    (activeLanes (8 * size) pg = [] ∨ ch.canRead k (a + (spanOf size pg).1) (spanOf size pg).2) →
    ∃ ch' v, exec (i c k w) s = .next (s.withChip c ch') ∧ Unstored ch.mem ch'.mem ∧ Retired ch ch' k (x.setV (fD w) v) (x.pc + 8) ∧
      LanesAre (8 * size) (fun j => pg.getLsbD j) (fun j => leNat (ch.see (some k) (a + j * size) size)) (x.getV (fD w)) v := by
  dsimp only
  intro hform hord halign hread
  obtain ⟨v, hload, hlanes⟩ := vloadOp_loadsV (ch := ch.fetched k) (w := w) hsize (Chip.lt_of_ready hr) hform
    (by rwa [Chip.fetched_core]) (by rwa [Chip.fetched_core]) (by rwa [Chip.fetched_core, Chip.fetched_canRead])
  rw [Chip.fetched_core] at hload hlanes
  simp only [Chip.see_congr (ch.fetched_mem k) (ch.fetched_cores k)] at hlanes
  obtain ⟨hmem, hret⟩ := hload.settles (ch.fetched k)
  exact ⟨_, v, by rw [hi, issueOn_ready hc hr ho], hmem, hret, hlanes⟩

/-! ### Writing runs of bytes -/

/-- Memory once runs are written, one after the other. -/
def Runs.write (l : Runs) (m : List Host.Cell) : List Host.Cell := l.foldl (fun a r => Memory.write a r.1 r.2) m

theorem Runs.write_cons (r : Nat × List Nat) (l : Runs) (m : List Host.Cell) :
    Runs.write (r :: l) m = Runs.write l (Memory.write m r.1 r.2) := rfl

/-- Writing runs keeps the canonical form. -/
theorem Runs.write_wf {m : List Host.Cell} (h : Memory.wf m = true) (l : Runs) : Memory.wf (Runs.write l m) = true := by
  induction l generalizing m with
  | nil => exact h
  | cons r l ih => exact ih (Memory.write_wf h r.1 r.2)

/-- A byte that no run holds is as it was. -/
theorem Runs.get_write_outside {m : List Host.Cell} {b : Nat} (h : Memory.wf m = true) (l : Runs)
    (hout : ∀ r ∈ l, b < r.1 ∨ r.1 + r.2.length ≤ b) : Memory.get (Runs.write l m) b = Memory.get m b := by
  induction l generalizing m with
  | nil => rfl
  | cons r l ih =>
    have hr := hout r List.mem_cons_self
    rw [Runs.write_cons, ih (Memory.write_wf h r.1 r.2) fun q hq => hout q (List.mem_cons_of_mem r hq), Memory.get_write h,
      if_neg (by omega)]

/-- Two runs written in turn that follow one another are one. -/
theorem Memory.write_append (m : List Host.Cell) (a : Nat) (l r : List Nat) :
    Memory.write m a (l ++ r) = Memory.write (Memory.write m a l) (a + l.length) r := by
  induction l generalizing m a with
  | nil => rfl
  | cons b l ih => rw [List.cons_append, Memory.write, ih, Memory.write, List.length_cons, Nat.add_assoc, Nat.add_comm 1]

/-- Reading bytes depends on those bytes alone. -/
theorem Memory.bytes_congr {m m' : List Host.Cell} {a n : Nat} (h : ∀ i, i < n → Memory.get m (a + i) = Memory.get m' (a + i)) :
    Memory.bytes m a n = Memory.bytes m' a n := by
  induction n generalizing a with
  | zero => rfl
  | succ n ih =>
    have hfirst : Memory.get m a = Memory.get m' a := h 0 (Nat.zero_lt_succ n)
    rw [Memory.bytes, Memory.bytes, hfirst, ih fun i hi => by rw [Nat.add_assoc, Nat.add_comm 1]; exact h (i + 1) (Nat.succ_lt_succ hi)]

/-- Bytes read as they were written. -/
theorem Memory.bytes_write {m : List Host.Cell} (h : Memory.wf m = true) (a : Nat) (l : List Nat) (hl : ∀ b ∈ l, b < 256) :
    Memory.bytes (Memory.write m a l) a l.length = l := by
  refine List.ext_getElem (Memory.bytes_length ..) fun i hi hil => ?_
  rw [← getD_of_lt hi 0, Memory.bytes_getD _ _ _ _ hil, Memory.get_write h, if_pos (by omega), Nat.add_sub_cancel_left,
    getD_of_lt hil, BitVec.toNat_ofNat, Nat.mod_eq_of_lt (hl _ (List.getElem_mem hil))]

/-- The bytes of a number are bytes. -/
theorem leBytes_lt {n v b : Nat} (h : b ∈ leBytes n v) : b < 256 := by
  induction n generalizing v with
  | zero => cases h
  | succ n ih =>
    rw [leBytes, List.mem_cons] at h
    rcases h with rfl | h
    · exact Nat.mod_lt _ (by decide)
    · exact ih h

/-- Where runs of rising lanes are written, the bytes of a lane's run stand unless a higher lane's run meets them. -/
theorem Runs.bytes_write_lane {f : Nat → Nat × List Nat} {j : Nat} {m : List Host.Cell} {l : List Nat} (hwf : Memory.wf m = true)
    (hrise : l.Pairwise (· < ·)) (hj : j ∈ l) (hbytes : ∀ b ∈ (f j).2, b < 256)
    (hlast : ∀ i ∈ l, j < i → (f j).1 + (f j).2.length ≤ (f i).1 ∨ (f i).1 + (f i).2.length ≤ (f j).1) :
    Memory.bytes (Runs.write (l.map f) m) (f j).1 (f j).2.length = (f j).2 := by
  induction l generalizing m with
  | nil => cases hj
  | cons i l ih =>
    obtain ⟨hi, hrise⟩ := List.pairwise_cons.1 hrise
    rw [List.map_cons, Runs.write_cons]
    rcases List.mem_cons.1 hj with rfl | hj
    · refine (Memory.bytes_congr fun n hn => ?_).trans (Memory.bytes_write hwf (f j).1 (f j).2 hbytes)
      refine Runs.get_write_outside (Memory.write_wf hwf _ _) _ fun r hr => ?_
      obtain ⟨i, hil, rfl⟩ := List.mem_map.1 hr
      have hmeet := hlast i (List.mem_cons_of_mem j hil) (hi i hil)
      omega
    · exact ih (Memory.write_wf hwf _ _) hrise hj fun q hq => hlast q (List.mem_cons_of_mem i hq)

/-- What runs of rising lanes leave: the bytes of each lane that no higher lane meets, and every byte that no lane holds. -/
theorem Runs.write_lanes {m : List Host.Cell} {l : List Nat} (hwf : Memory.wf m = true) (hrise : l.Pairwise (· < ·)) (place value : Nat → Nat)
    (size : Nat) :
    let m' := Runs.write (l.map fun j => (place j, leBytes size (value j))) m
    Memory.wf m' = true ∧
    (∀ j ∈ l, (∀ i ∈ l, j < i → place j + size ≤ place i ∨ place i + size ≤ place j) →
      Memory.bytes m' (place j) size = leBytes size (value j)) ∧
    ∀ b, (∀ j ∈ l, b < place j ∨ place j + size ≤ b) → Memory.get m' b = Memory.get m b := by
  refine ⟨Runs.write_wf hwf _, fun j hj hlast => ?_, fun b hb => Runs.get_write_outside hwf _ fun r hr => ?_⟩
  · have hlane := Runs.bytes_write_lane (f := fun n => (place n, leBytes size (value n))) hwf hrise hj (fun _ => leBytes_lt)
      (by simpa only [leBytes_length] using hlast)
    rwa [leBytes_length] at hlane
  · obtain ⟨j, hj, rfl⟩ := List.mem_map.1 hr
    rw [leBytes_length]
    exact hb j hj

/-! ### Runs that are joined (R321) -/

/-- Joining runs changes nothing of what they write. -/
theorem write_joinRuns (l : Runs) (m : List Host.Cell) : Runs.write (joinRuns l) m = Runs.write l m := by
  induction l generalizing m with
  | nil => rfl
  | cons r l ih =>
    rw [Runs.write_cons, ← ih, joinRuns]
    cases joinRuns l with
    | nil => rfl
    | cons q more =>
      dsimp only
      split
      · rename_i h
        rw [Runs.write_cons, Runs.write_cons, Memory.write_append, beq_iff_eq.1 h]
      · rfl

/-- The addresses of the first byte of runs, and of the byte after their last. -/
def Runs.ends (l : Runs) : Option Nat × Option Nat := (l.head?.map Prod.fst, l.getLast?.map fun r => r.1 + r.2.length)

/-- Joining runs keeps their ends. -/
theorem ends_joinRuns (l : Runs) : Runs.ends (joinRuns l) = Runs.ends l := by
  induction l with
  | nil => rfl
  | cons r l ih =>
    cases l with
    | nil => rfl
    | cons q rest =>
      rw [joinRuns]
      cases hj : joinRuns (q :: rest) with
      | nil => rw [hj] at ih; cases congrArg Prod.fst ih
      | cons p more =>
        rw [hj] at ih
        have hlast := congrArg Prod.snd ih
        simp only [Runs.ends] at hlast
        dsimp only
        split
        · rename_i heq
          rw [beq_iff_eq] at heq
          simp only [Runs.ends, List.getLast?_cons_cons, ← hlast, List.head?_cons, Option.map_some]
          cases more with
          | nil => simp only [List.getLast?_singleton, Option.map_some, List.length_append, ← heq, Nat.add_assoc]
          | cons t more => simp only [List.getLast?_cons_cons]
        · simp only [Runs.ends, List.getLast?_cons_cons, hlast, List.head?_cons]

/-- Joining runs leaves some where there are some. -/
theorem joinRuns_ne_nil {l : Runs} (h : l ≠ []) : joinRuns l ≠ [] := fun hnil => by
  have hfirst := congrArg Prod.fst (ends_joinRuns l)
  rw [hnil] at hfirst
  exact h (List.head?_eq_none_iff.1 (Option.map_eq_none_iff.1 hfirst.symm))

/-- The span of runs from their ends. -/
theorem Runs.span_of_ends {l : Runs} {a e : Nat} (h : Runs.ends l = (some a, some e)) : Runs.span l = (a, e - a) := by
  obtain ⟨hhead, hlast⟩ := Prod.mk.inj h
  obtain ⟨r, hr, rfl⟩ := Option.map_eq_some_iff.1 hhead
  obtain ⟨q, hq, rfl⟩ := Option.map_eq_some_iff.1 hlast
  rw [Runs.span, hr, hq]

/-- The place of a run within `lo` and `hi`, and that it holds a byte. -/
def runWithin (lo hi : Nat) (r : Nat × List Nat) : Prop := lo ≤ r.1 ∧ r.1 + r.2.length ≤ hi ∧ r.2 ≠ []

/-- Joining runs keeps them within their bounds. -/
theorem joinRuns_within {lo hi : Nat} {l : Runs} (h : ∀ r ∈ l, runWithin lo hi r) : ∀ r ∈ joinRuns l, runWithin lo hi r := by
  induction l with
  | nil => exact h
  | cons r l ih =>
    have hr := h r List.mem_cons_self
    have ih := ih fun q hq => h q (List.mem_cons_of_mem r hq)
    rw [joinRuns]
    cases hj : joinRuns l with
    | nil => exact fun q hq => by rwa [List.mem_singleton.1 hq]
    | cons q more =>
      rw [hj] at ih
      obtain ⟨hp, hmore⟩ := List.forall_mem_cons.1 ih
      obtain ⟨hlo, hhi, hne⟩ := hr
      dsimp only
      split
      · rename_i heq
        rw [beq_iff_eq] at heq
        refine List.forall_mem_cons.2 ⟨⟨hlo, ?_, fun hnil => hne (List.append_eq_nil_iff.1 hnil).1⟩, hmore⟩
        rw [List.length_append, ← Nat.add_assoc, heq]
        exact hp.2.1
      · exact List.forall_mem_cons.2 ⟨⟨hlo, hhi, hne⟩, ih⟩

/-! ### What is allowed for a range is allowed within it (R81, R438, R444) -/

/-- The lines that a range touches. -/
theorem mem_linesOf {a n l : Nat} : l ∈ linesOf a n ↔ 0 < n ∧ 64 ∣ l ∧ lineOf a ≤ l ∧ l ≤ lineOf (a + n - 1) := by
  unfold linesOf
  by_cases hn : n = 0
  · simp [hn]
  · simp only [hn, if_false, List.mem_map, List.mem_range, lineOf]
    constructor
    · rintro ⟨i, hi, rfl⟩
      omega
    · rintro ⟨-, ⟨q, rfl⟩, hlo, hhi⟩
      exact ⟨q - a / 64, by omega, by omega⟩

/-- The lines that a part of a range touches. -/
theorem linesOf_within {a n b m l : Nat} (hab : a ≤ b) (hbn : b + m ≤ a + n) (hl : l ∈ linesOf b m) : l ∈ linesOf a n := by
  rw [mem_linesOf] at hl ⊢
  obtain ⟨hm, hdvd, hlo, hhi⟩ := hl
  simp only [lineOf] at hlo hhi ⊢
  exact ⟨by omega, hdvd, by omega, by omega⟩

/-- A write of a part of a range that may be written and has no uncorrectable line may be performed. -/
theorem Chip.writeCode_within {ch : Chip} {a n b m : Nat} (hcode : ch.writeCode a n = cOK) (hbad : ch.bad a n = false) (hab : a ≤ b)
    (hbn : b + m ≤ a + n) : ch.writeCode b m = cOK := by
  have hcommitted : ch.committedHit b m = false := by
    refine Bool.eq_false_iff.2 fun hhit => ?_
    have hall : ch.committedHit a n = true := by
      simp only [Chip.committedHit, List.any_eq_true, Bool.and_eq_true, decide_eq_true_eq] at hhit ⊢
      obtain ⟨r, hr, ⟨hbound, hlt⟩, hgt⟩ := hhit
      exact ⟨r, hr, ⟨hbound, by omega⟩, by omega⟩
    rw [Chip.writeCode, if_pos hall] at hcode
    cases hcode
  have hgood : ch.badWrite b m = false := by
    refine List.any_eq_false.2 fun l hl => ?_
    exact fun hpart => List.any_eq_false.1 hbad l (linesOf_within hab hbn hl) (Bool.and_eq_true_iff.1 hpart).1
  rw [Chip.writeCode, hcommitted, hgood]
  rfl

/-- Where no epoch has written a line of a range, none has of a part of it. -/
theorem Chip.clash_within {ch : Chip} {a n b m : Nat} (h : ch.clash a n = none) (hsame : coreOfAddr b = coreOfAddr a) (hab : a ≤ b)
    (hbn : b + m ≤ a + n) : ch.clash b m = none := by
  unfold Chip.clash at h ⊢
  rw [hsame]
  cases hk : coreOfAddr a with
  | none => rfl
  | some k =>
    simp only [hk, Option.map_eq_none_iff, List.find?_eq_none, Bool.and_eq_true, List.any_eq_true, List.contains_iff_mem] at h ⊢
    rintro e he ⟨hopen, l, hl, hline⟩
    exact h e he ⟨hopen, l, hl, linesOf_within hab hbn hline⟩

/-! ### A plain store (R370, R438) -/

/-- Runs none of whose lines an open epoch has written are stored, and doom nothing. -/
theorem Chip.plainRuns_of_no_clash {ch : Chip} {l : Runs} (h : ∀ r ∈ l, ch.clash r.1 r.2.length = none) :
    (ch.plainRuns l).mem = Runs.write l ch.mem ∧ (ch.plainRuns l).cores = ch.cores := by
  induction l generalizing ch with
  | nil => exact ⟨rfl, rfl⟩
  | cons r l ih =>
    obtain ⟨hr, hl⟩ := List.forall_mem_cons.1 h
    have hstore : ch.plainStore r.1 r.2 = ch.store r.1 r.2 := by rw [Chip.plainStore, hr]
    have ih := ih (ch := ch.store r.1 r.2) hl
    change ((ch.plainStore r.1 r.2).plainRuns l).mem = _ ∧ ((ch.plainStore r.1 r.2).plainRuns l).cores = _
    rw [hstore]
    exact ih

/-- Runs each of which may be written may be written. -/
theorem Chip.runsCode_eq_ok {ch : Chip} {l : Runs} (h : ∀ r ∈ l, ch.writeCode r.1 r.2.length = cOK) : ch.runsCode l = cOK := by
  unfold Chip.runsCode
  induction l with
  | nil => rfl
  | cons r l ih =>
    obtain ⟨hr, hl⟩ := List.forall_mem_cons.1 h
    rw [List.map_cons, List.foldl_cons, hr]
    exact ih hl

/-- The instruction retires: the runs are stored, and its core keeps its registers. -/
def Res.Stores (ch : Chip) (k : Nat) (l : Runs) (r : Res) : Prop :=
  ∃ a, r.Retires a ∧ a.mem = Runs.write l ch.mem ∧ k < a.cores.length ∧ (a.core k).arch = (ch.core k).arch

/-- A touch of a chip whose memory holds the runs and whose cores are kept. -/
theorem Res.stores_touch {ch a : Chip} {k : Nat} {l : Runs} (hk : k < ch.cores.length) (hm : a.mem = Runs.write l ch.mem)
    (hc : a.cores = ch.cores) (ranges : List (Nat × Nat)) (store : Bool) : (Res.touch a ranges store).Stores ch k l :=
  ⟨a, .inr ⟨ranges, store, rfl⟩, hm, by rwa [hc], by rw [Chip.core_congr hc]⟩

/-- ORD = SEQ changes nothing of what a store leaves but that the core waits for it (R358). -/
theorem Res.Stores.seqStore {ch : Chip} {k : Nat} {l : Runs} {r : Res} (h : r.Stores ch k l) (w : W64) : (r.seqStore k w).Stores ch k l := by
  obtain ⟨a, rfl | ⟨ranges, store, rfl⟩, hm, hk, hc⟩ := h
  · exact ⟨a, .inl rfl, hm, hk, hc⟩
  · unfold Res.seqStore
    dsimp only
    split
    · refine ⟨_, .inr ⟨_, _, rfl⟩, hm, by rwa [Chip.modCore_cores_length], ?_⟩
      rw [Chip.core_modCore_self hk]
      exact hc
    · exact ⟨a, .inr ⟨_, _, rfl⟩, hm, hk, hc⟩

/-- What an instruction leaves that stores runs. -/
theorem Res.Stores.settles {ch : Chip} {k : Nat} {l : Runs} {r : Res} (h : r.Stores (ch.fetched k) k l) (f : Chip) :
    (f.settleRes k r).mem = Runs.write l ch.mem ∧ Retired ch (f.settleRes k r) k (ch.core k) ((ch.core k).pc + 8) := by
  obtain ⟨a, hr, hm, hk, hc⟩ := h
  rw [Chip.fetched_core] at hc
  refine ⟨?_, Chip.settleRes_retired hr hk hc rfl rfl rfl⟩
  rw [(Chip.settleRes_keepsArch hr f k).1, Chip.modCore_mem, hm, Chip.fetched_mem]

section
variable {ch : Chip} {k : Nat} {l : Runs} (hk : k < ch.cores.length)
  (hwrite : ch.canWrite k (Runs.span l).1 (Runs.span l).2) (hcode : ch.runsCode l = cOK)
  (hclash : ∀ r ∈ l, ch.clash r.1 r.2.length = none)
include hk hwrite hcode hclash

/-- A posted store to a memory of the chip is performed (R370, R566). -/
theorem postedStore_stores (hown : ¬ inOwn k (Runs.span l).1 (Runs.span l).2 = true) (whole : Nat) :
    (postedStore k whole l ch (ch.core k)).Stores ch k l := by
  obtain ⟨hown' | ⟨hroom, pl, hreach, hlocal, hstarved⟩, -, -⟩ := hwrite
  · exact absurd hown' hown
  let b := ch.pay (ch.partNo k) pl true (Runs.span l).1 (Runs.span l).2
  obtain ⟨hm, hc⟩ := Chip.plainRuns_of_no_clash (ch := b) (l := l) fun r hr => by rw [Chip.clash_congr (ch.pay_cores ..)]; exact hclash r hr
  have hdone : ∀ ranges, (Res.touch (b.plainRuns l) ranges true).Stores ch k l := fun ranges =>
    Res.stores_touch hk (by rw [hm, ch.pay_mem]) (by rw [hc, ch.pay_cores]) ranges true
  unfold postedStore
  simp only [hreach, hstarved, hcode, Nat.not_le.2 hroom, Bool.false_eq_true, if_false]
  cases pl with
  | dram => exact hdone _
  | podStore d => exact hdone _
  | coreStore j => exact hdone _
  | regs o => cases hlocal
  | window m o => cases hlocal
  | host o => cases hlocal

/-- A plain store to a memory of the chip is performed: precisely in the core's own store, posted elsewhere (R370). -/
theorem plainOp_stores (whole : Nat) : (plainOp k whole l ch (ch.core k)).Stores ch k l := by
  unfold plainOp
  dsimp only
  split
  · rw [hcode]
    obtain ⟨hm, hc⟩ := Chip.plainRuns_of_no_clash hclash
    exact Res.stores_touch hk hm hc _ true
  · rename_i hown
    exact postedStore_stores hk hwrite hcode hclash hown whole

end

/-! ### Vector stores (R321) -/

/-- The runs of the active lanes of a vector store, before they are joined. -/
def laneRuns (size a : Nat) (pg : W64) (v : V512) : Runs :=
  (activeLanes (8 * size) pg).map fun i => (a + i * size, leBytes size (lane v (8 * size) i))

/-- The joined runs of a vector store span its active lanes. -/
theorem span_joinRuns_laneRuns {size a : Nat} {pg : W64} (v : V512) (hne : activeLanes (8 * size) pg ≠ []) :
    Runs.span (joinRuns (laneRuns size a pg v)) = (a + (spanOf size pg).1, (spanOf size pg).2) := by
  obtain ⟨i, m, hi, hm, hmem, hbound⟩ := activeLanes_bounds hne
  have hends : Runs.ends (laneRuns size a pg v) = (some (a + i * size), some (a + m * size + size)) := by
    simp [Runs.ends, laneRuns, hi, hm]
  have him : i * size ≤ (m + 1) * size := Nat.mul_le_mul_right _ (Nat.le_succ_of_le (hbound m hmem).1)
  rw [Runs.span_of_ends ((ends_joinRuns _).trans hends)]
  simp only [spanOf, laneSpan, hi, hm, Nat.mul_div_cancel_left size (show 0 < 8 by decide), Nat.sub_mul]
  rw [Nat.succ_mul] at him ⊢
  rw [Nat.add_assoc, Nat.add_sub_add_left]

/-- Each run of a vector store lies in the span of its active lanes. -/
theorem joinRuns_laneRuns_within {size a : Nat} {pg : W64} (hsize : 0 < size) (v : V512) :
    ∀ r ∈ joinRuns (laneRuns size a pg v), runWithin (a + (spanOf size pg).1) (a + (spanOf size pg).1 + (spanOf size pg).2) r := by
  refine joinRuns_within fun r hr => ?_
  obtain ⟨j, hj, rfl⟩ := List.mem_map.1 hr
  obtain ⟨hlo, hhi, -⟩ := laneSpan_covers hj
  have hlen := leBytes_length size (lane v (8 * size) j)
  exact ⟨by dsimp only; omega, by dsimp only; omega, List.ne_nil_of_length_pos (hlen.symm ▸ hsize)⟩

/-- The runs of a vector store that is allowed are stored: none where no lane is active. -/
theorem storeRuns_stores {ch : Chip} {k size a : Nat} {w : W64} {pg : W64} (hsize : 0 < size) (hk : k < ch.cores.length) (hsp : fSP w = false)
    (hwrite : activeLanes (8 * size) pg = [] ∨ (ch.canWrite k (a + (spanOf size pg).1) (spanOf size pg).2 ∧
      ch.bad (a + (spanOf size pg).1) (spanOf size pg).2 = false)) (whole : Nat) (v : V512) :
    (storeRuns k whole w (joinRuns (laneRuns size a pg v)) ch (ch.core k)).Stores ch k (joinRuns (laneRuns size a pg v)) := by
  by_cases hnone : activeLanes (8 * size) pg = []
  · simp only [laneRuns, hnone, List.map_nil]
    exact ⟨ch, .inl rfl, rfl, hk, rfl⟩
  · obtain ⟨hcan, hbad⟩ := hwrite.resolve_left hnone
    obtain ⟨-, hcode, hclash⟩ := id hcan
    have hwithin := joinRuns_laneRuns_within (a := a) (pg := pg) hsize v
    have hne : joinRuns (laneRuns size a pg v) ≠ [] := joinRuns_ne_nil fun h => hnone (List.map_eq_nil_iff.1 h)
    unfold storeRuns
    rw [if_neg (by rwa [List.isEmpty_iff]), hsp, if_neg Bool.false_ne_true]
    refine plainOp_stores hk (by rwa [span_joinRuns_laneRuns v hnone]) (Chip.runsCode_eq_ok fun r hr => ?_) (fun r hr => ?_) whole
    · obtain ⟨hlo, hhi, -⟩ := hwithin r hr
      exact Chip.writeCode_within hcode hbad hlo hhi
    · obtain ⟨hlo, hhi, hrne⟩ := hwithin r hr
      have hpos := List.length_pos_iff.2 hrne
      exact Chip.clash_within hclash (hcan.coreOfAddr hlo (by omega)) hlo hhi

/-- A vector store of a memory of the chip. -/
theorem vstoreOp_stores {ch : Chip} {k size : Nat} {w : W64} (hsize : 0 < size) (hk : k < ch.cores.length) (hsp : fSP w = false) :
    let x := ch.core k
    let a := effAddr x w
    let pg := x.getP (fMP w)
    memFormOk .store w = true → ordered .store w x = true → a % size = 0 →
    (activeLanes (8 * size) pg = [] ∨ (ch.canWrite k (a + (spanOf size pg).1) (spanOf size pg).2 ∧
      ch.bad (a + (spanOf size pg).1) (spanOf size pg).2 = false)) →
    (vstoreOp (8 * size) k w ch x).Stores ch k (joinRuns (laneRuns size a pg (x.getV (fD w)))) := by
  dsimp only
  intro hform hord halign hwrite
  have hcancel := Nat.mul_div_cancel_left size (show 0 < 8 by decide)
  unfold vstoreOp
  simp only [hform, hord, hcancel, halign, Bool.not_true, bne_self_eq_false, Bool.false_eq_true, if_false]
  exact (storeRuns_stores hsize hk hsp hwrite 64 _).seqStore w

/-- A row of the vector stores (R321). -/
theorem vectorStore_result {i : Nat → Nat → W64 → Instr} {op size : Nat}
    (hi : ∀ c k w s, exec (i c k w) s = issueOn c k w mVector (vstoreOp (8 * size) k w) s) (hsize : 0 < size)
    (ho : opcodeListed op = true := by decide) (s : State) (c k : Nat) (w : W64) (ch : Chip) (hc : s.chips[c]? = some ch)
    (hr : ch.ready k w op mVector = true) :
    let x := ch.core k
    let a := effAddr x w
    let pg := x.getP (fMP w)
    let act := activeLanes (8 * size) pg
    memFormOk .store w = true → ordered .store w x = true → a % size = 0 → fSP w = false →
    (act = [] ∨ (ch.canWrite k (a + (spanOf size pg).1) (spanOf size pg).2 ∧ ch.bad (a + (spanOf size pg).1) (spanOf size pg).2 = false)) →
    Memory.wf ch.mem = true →
    ∃ ch', exec (i c k w) s = .next (s.withChip c ch') ∧ Retired ch ch' k x (x.pc + 8) ∧ Memory.wf ch'.mem = true ∧
      (∀ j ∈ act, Memory.bytes ch'.mem (a + j * size) size = leBytes size (lane (x.getV (fD w)) (8 * size) j)) ∧
      ∀ b, (∀ j ∈ act, b < a + j * size ∨ a + j * size + size ≤ b) → Memory.get ch'.mem b = Memory.get ch.mem b := by
  dsimp only
  intro hform hord halign hsp hwrite hwf
  have hstores := vstoreOp_stores (ch := ch.fetched k) (w := w) hsize (Chip.lt_of_ready hr) hsp hform
    (by rwa [Chip.fetched_core]) (by rwa [Chip.fetched_core]) (by rwa [Chip.fetched_core, Chip.fetched_canWrite, Chip.fetched_bad])
  rw [Chip.fetched_core] at hstores
  obtain ⟨hmem, hret⟩ := hstores.settles (ch.fetched k)
  obtain ⟨hkept, hlane, hframe⟩ := Runs.write_lanes hwf (activeLanes_pairwise (8 * size) ((ch.core k).getP (fMP w)))
    (fun j => effAddr (ch.core k) w + j * size) (lane ((ch.core k).getV (fD w)) (8 * size)) size
  rw [write_joinRuns, laneRuns] at hmem
  rw [← hmem] at hkept hlane hframe
  refine ⟨_, by rw [hi, issueOn_ready hc hr ho], hret, hkept, fun j hj => hlane j hj fun n _ hjn => .inl ?_, hframe⟩
  have hstep := Nat.mul_le_mul_right size (Nat.succ_le_of_lt hjn)
  rw [Nat.succ_mul] at hstep
  omega

/-! ### Gathers and scatters (R322, R323) -/

/-- The address of lane `j` of a gather or scatter. -/
def wordAt (w : W64) (x : Core) (j : Nat) : Nat := ((x.getS (fA w)).toNat + lane (x.getV (fB w)) 32 j) % 2 ^ 64

/-- The active lanes of a gather or scatter. -/
abbrev wordLanes (w : W64) (x : Core) : List Nat := activeLanes 32 (x.getP (fMP w))

theorem laneAddrs_eq (w : W64) (x : Core) : laneAddrs w x = (wordLanes w x).map fun j => (j, wordAt w x j) := rfl

/-- What a list gives each of its numbers is found under it. -/
theorem lookup_map_pair {l : List Nat} {j : Nat} (g : Nat → Nat) (hj : j ∈ l) : (l.map fun i => (i, g i)).lookup j = some (g j) := by
  induction l with
  | nil => cases hj
  | cons i l ih =>
    rw [List.map_cons, List.lookup_cons]
    by_cases hji : j = i
    · simp [hji]
    · rw [beq_false_of_ne hji]
      exact ih ((List.mem_cons.1 hj).resolve_left hji)

/-- No lane is refused whose word is aligned and in the core's own store (R322). -/
theorem laneRefusal_eq_none {k : Nat} {w : W64} {x : Core}
    (h : ∀ j ∈ wordLanes w x, wordAt w x j % 4 = 0 ∧ inOwn k (wordAt w x j) 4 = true) : laneRefusal k (laneAddrs w x) = none := by
  rw [laneRefusal, laneAddrs_eq, Option.map_eq_none_iff, List.find?_eq_none]
  intro e he
  obtain ⟨j, hj, rfl⟩ := List.mem_map.1 he
  simp [h j hj]

/-- No lane is found that has what none has. -/
theorem find?_laneAddrs_eq_none {w : W64} {x : Core} {p : Nat × Nat → Bool} (h : ∀ j ∈ wordLanes w x, p (j, wordAt w x j) = false) :
    (laneAddrs w x).find? p = none := by
  rw [laneAddrs_eq, List.find?_eq_none]
  intro e he
  obtain ⟨j, hj, rfl⟩ := List.mem_map.1 he
  exact Bool.eq_false_iff.1 (h j hj)

/-- The runs of a scatter. -/
def wordRuns (w : W64) (x : Core) : Runs := (wordLanes w x).map fun j => (wordAt w x j, leBytes 4 (lane (x.getV (fD w)) 32 j))

theorem wordRuns_eq (w : W64) (x : Core) :
    wordRuns w x = (laneAddrs w x).map fun e => (e.2, leBytes 4 (lane (x.getV (fD w)) 32 e.1)) := by
  rw [laneAddrs_eq, List.map_map]
  rfl

/-- A gather from the core's own store (R322). -/
theorem vgthw_result (s : State) (c k : Nat) (w : W64) (ch : Chip) (hc : s.chips[c]? = some ch) (hr : ch.ready k w 0x58 mVector = true) :
    let x := ch.core k
    gatherFormOk w false = true → ordered .load w x = true →
    (∀ j ∈ wordLanes w x, wordAt w x j % 4 = 0 ∧ inOwn k (wordAt w x j) 4 = true ∧ ch.bad (wordAt w x j) 4 = false) →
    ∃ ch' v, exec (.vgthw c k w) s = .next (s.withChip c ch') ∧ Unstored ch.mem ch'.mem ∧ Retired ch ch' k (x.setV (fD w) v) (x.pc + 8) ∧
      LanesAre 32 (fun j => (x.getP (fMP w)).getLsbD j) (fun j => leNat (ch.see (some k) (wordAt w x j) 4)) (x.getV (fD w)) v := by
  dsimp only
  intro hform hord hlanes
  have hexec : exec (.vgthw c k w) s = execVgthw c k w s := rfl
  have hk := Chip.lt_of_ready hr
  have hrefused := laneRefusal_eq_none fun j hj => (hlanes j hj).imp_right And.left
  have hgood := find?_laneAddrs_eq_none (p := fun e => (ch.fetched k).bad e.2 4) fun j hj => by
    obtain ⟨-, -, hbad⟩ := hlanes j hj
    rwa [Chip.fetched_bad]
  rw [hexec, execVgthw, issueOn_ready hc hr (by decide)]
  simp only [hform, hord, hrefused, hgood, Bool.not_true, Bool.false_eq_true, if_false]
  by_cases hnone : wordLanes w (ch.core k) = []
  · obtain ⟨hmem, hret⟩ := (Res.loadsV_next hk (fD w)).settles (ch.fetched k)
    rw [Chip.fetched_core] at hret
    simp only [laneAddrs_eq, hnone, List.map_nil, List.isEmpty_nil, if_true]
    exact ⟨_, _, rfl, hmem, hret, lanesAre_inactive hnone _ _⟩
  · rw [if_neg (by rwa [List.isEmpty_iff, laneAddrs_eq, List.map_eq_nil_iff])]
    obtain ⟨hmem, hret⟩ := (Res.loadsV_touch hk _ _ _ _).settles (ch.fetched k)
    refine ⟨_, _, rfl, hmem, hret, fun j hj => ?_⟩
    rw [lane_mapLanes _ _ _ _ _ hj, Chip.fetched_core]
    dsimp only
    split
    · rename_i hset
      rw [laneAddrs_eq, lookup_map_pair _ (mem_activeLanes.2 ⟨hj, hset⟩), Option.getD_some,
        Chip.see_congr (ch.fetched_mem k) (ch.fetched_cores k)]
    · rfl

/-- A scatter to the core's own store stores its runs, lane 0 first. -/
theorem vsctw_stores {s : State} {c k : Nat} {w : W64} {ch : Chip} (hc : s.chips[c]? = some ch) (hr : ch.ready k w 0x59 mVector = true)
    (hform : gatherFormOk w true = true) (hord : ordered .store w (ch.core k) = true) (hsp : fSP w = false)
    (hlanes : ∀ j ∈ wordLanes w (ch.core k), wordAt w (ch.core k) j % 4 = 0 ∧ inOwn k (wordAt w (ch.core k) j) 4 = true ∧
      ch.writeCode (wordAt w (ch.core k) j) 4 = cOK ∧ ch.clash (wordAt w (ch.core k) j) 4 = none) :
    ∃ r : Res, r.Stores (ch.fetched k) k (wordRuns w (ch.core k)) ∧
      exec (.vsctw c k w) s = .next (s.withChip c ((ch.fetched k).settleRes k r)) := by
  have hexec : exec (.vsctw c k w) s = execVsctw c k w s := rfl
  have hk := Chip.lt_of_ready hr
  have hrefused := laneRefusal_eq_none fun j hj => (hlanes j hj).imp_right And.left
  have hgood := find?_laneAddrs_eq_none (p := fun e => (ch.fetched k).writeCode e.2 4 != cOK) fun j hj => by
    obtain ⟨-, -, hcode, -⟩ := hlanes j hj
    rw [Chip.fetched_writeCode, hcode]
    rfl
  rw [hexec, execVsctw, issueOn_ready hc hr (by decide)]
  refine ⟨_, ?_, rfl⟩
  simp only [hform, hord, hrefused, hgood, hsp, Bool.not_true, Bool.false_eq_true, if_false]
  split
  · rename_i hempty
    have hnone : wordRuns w (ch.core k) = [] := by
      rw [List.isEmpty_iff, laneAddrs_eq, List.map_eq_nil_iff] at hempty
      rw [wordRuns, hempty, List.map_nil]
    rw [hnone]
    exact ⟨_, .inl rfl, rfl, hk, rfl⟩
  · have hclash : ∀ r ∈ wordRuns w (ch.core k), (ch.fetched k).clash r.1 r.2.length = none := fun r hr => by
      obtain ⟨j, hj, rfl⟩ := List.mem_map.1 hr
      obtain ⟨-, -, -, hclash⟩ := hlanes j hj
      rwa [Chip.clash_congr (ch.fetched_cores k), leBytes_length]
    obtain ⟨hm, hcores⟩ := Chip.plainRuns_of_no_clash hclash
    rw [wordRuns_eq] at hm hcores ⊢
    exact Res.stores_touch hk hm hcores _ true

/-- A scatter to the core's own store: a higher lane's word remains where two name one address (R322, R323). -/
theorem vsctw_result (s : State) (c k : Nat) (w : W64) (ch : Chip) (hc : s.chips[c]? = some ch) (hr : ch.ready k w 0x59 mVector = true) :
    let x := ch.core k
    gatherFormOk w true = true → ordered .store w x = true → fSP w = false →
    (∀ j ∈ wordLanes w x, wordAt w x j % 4 = 0 ∧ inOwn k (wordAt w x j) 4 = true ∧ ch.writeCode (wordAt w x j) 4 = cOK ∧
      ch.clash (wordAt w x j) 4 = none) → Memory.wf ch.mem = true →
    ∃ ch', exec (.vsctw c k w) s = .next (s.withChip c ch') ∧ Retired ch ch' k x (x.pc + 8) ∧ Memory.wf ch'.mem = true ∧
      (∀ j ∈ wordLanes w x, (∀ i ∈ wordLanes w x, j < i → wordAt w x i ≠ wordAt w x j) →
        Memory.bytes ch'.mem (wordAt w x j) 4 = leBytes 4 (lane (x.getV (fD w)) 32 j)) ∧
      ∀ b, (∀ j ∈ wordLanes w x, b < wordAt w x j ∨ wordAt w x j + 4 ≤ b) → Memory.get ch'.mem b = Memory.get ch.mem b := by
  dsimp only
  intro hform hord hsp hlanes hwf
  obtain ⟨r, hstores, hnext⟩ := vsctw_stores hc hr hform hord hsp hlanes
  obtain ⟨hmem, hret⟩ := hstores.settles (ch.fetched k)
  obtain ⟨hkept, hlane, hframe⟩ := Runs.write_lanes hwf (activeLanes_pairwise 32 ((ch.core k).getP (fMP w)))
    (wordAt w (ch.core k)) (lane ((ch.core k).getV (fD w)) 32) 4
  rw [wordRuns] at hmem
  rw [← hmem] at hkept hlane hframe
  refine ⟨_, hnext, hret, hkept, fun j hj hlast => hlane j hj fun i hi hji => ?_, hframe⟩
  -- words that are aligned are equal or apart
  have hne := hlast i hi hji
  obtain ⟨halignj, -⟩ := hlanes j hj
  obtain ⟨haligni, -⟩ := hlanes i hi
  omega

/-! ### The statement -/

/-- Settles O7: a load by the span it reads, a store by its runs, which are written as the lanes rise. -/
theorem vectorMemoryResults : Obligations.VectorMemoryResults := by
  unfold Obligations.VectorMemoryResults
  refine ⟨⟨?ldb, ?ldh, ?ldw, ?ldd⟩, ⟨?stb, ?sth, ?stw, ?std⟩, vgthw_result, vsctw_result⟩
  case ldb => exact vectorLoad_result (fun _ _ _ _ => rfl) (by decide)
  case ldh => exact vectorLoad_result (fun _ _ _ _ => rfl) (by decide)
  case ldw => exact vectorLoad_result (fun _ _ _ _ => rfl) (by decide)
  case ldd => exact vectorLoad_result (fun _ _ _ _ => rfl) (by decide)
  case stb => exact vectorStore_result (fun _ _ _ _ => rfl) (by decide)
  case sth => exact vectorStore_result (fun _ _ _ _ => rfl) (by decide)
  case stw => exact vectorStore_result (fun _ _ _ _ => rfl) (by decide)
  case std => exact vectorStore_result (fun _ _ _ _ => rfl) (by decide)

end Sys2Proof.Machine

/-! SUPPORT. What the channel instructions do once their checks have passed, what a message and a credit do when they arrive, and how a wait
ends at its limit (R346, R349, R405 to R418, R422). -/
namespace Sys2Proof.Machine

/-! ### Waits -/

/-- A wait that is for no completion takes none. -/
theorem Chip.settle_of_wait {ch : Chip} {k : Nat} {q : Wait} (hq : (ch.core k).wait = some q) (hany : ∀ rd since, q ≠ .anyCompletion rd since)
    (htag : ∀ rd tag since, q ≠ .tagged rd tag since) : ch.settle k = ch := by
  unfold Chip.settle
  dsimp only
  rw [hq]
  cases q with
  | anyCompletion rd since => exact absurd rfl (hany rd since)
  | tagged rd tag since => exact absurd rfl (htag rd tag since)
  | _ => exact ite_self ch

/-- An instruction that begins to wait, but for a completion, leaves its core waiting. -/
theorem Chip.settleRes_wait {f a : Chip} {k : Nat} {q : Wait} (hk : k < a.cores.length) (hany : ∀ rd since, q ≠ .anyCompletion rd since)
    (htag : ∀ rd tag since, q ≠ .tagged rd tag since) :
    f.settleRes k (.wait a q) = a.modCore k fun x => { x with state := .waiting, wait := some q } :=
  Chip.settle_of_wait (by rw [Chip.core_modCore_self hk]) hany htag

/-- The outcome of a wait reaches a core that waits. -/
theorem Chip.answer_of_waiting {ch : Chip} {k : Nat} (h : (ch.core k).state = .waiting) (rd : Nat) (v : W64) :
    ch.answer k rd v = (ch.modCore k fun x => x.setS rd v).retire k := by
  unfold Chip.answer
  rw [h]

/-- Leaving the queue of an object changes no core. -/
theorem Chip.unqueue_core (ch : Chip) (k j : Nat) : (ch.unqueue k).core j = ch.core j := by
  unfold Chip.unqueue
  split <;> rfl

/-- A wait of a running chip has reached its limit, which no slot freezes (R845). -/
theorem Chip.waitedMsg_eq_true {ch : Chip} {p since : Nat} (hdue : since + ch.msgWaitNs p ≤ ch.time) (halive : ch.alive = true)
    (hslot : (ch.part p).inSlot = false) : ch.waitedMsg p since = true := by
  simp only [Chip.waitedMsg, halive, hslot, hdue, decide_true, Bool.not_false, Bool.and_self]

/-! ### The checks of a channel instruction (R349, R407, R1018) -/

section
variable (ch : Chip) (k : Nat)

theorem Chip.fetched_chanCheck (j id : Nat) (sender : Bool) : (ch.fetched k).chanCheck j id sender = ch.chanCheck j id sender := by
  obtain ⟨r, h⟩ := ch.fetched_cases k
  rw [h]
  rfl

theorem Chip.fetched_isFenced (j : Nat) : (ch.fetched k).isFenced j = ch.isFenced j := by
  rw [Chip.isFenced, Chip.fetched_core, Chip.isFenced]

theorem Chip.fetched_time : (ch.fetched k).time = ch.time := by
  obtain ⟨r, h⟩ := ch.fetched_cases k
  rw [h]

end

/-- A channel of the core's partition that has the core at the end in question passes the check. -/
theorem Chip.chanCheck_eq_ok {ch : Chip} {k id : Nat} {sender : Bool} {y : Chan} (hchan : ch.chan id = some y) (hpart : y.part = ch.partNo k)
    (hcore : (if sender then y.srcCore else y.dstCore) = k) : ch.chanCheck k id sender = .ok y := by
  simp only [Chip.chanCheck, hchan, hpart, hcore, bne_self_eq_false, Bool.false_eq_true, if_false]

/-- An aligned buffer in the core's own store passes the check. -/
theorem bufferCode_eq_ok {k a n : Nat} (halign : a % 64 = 0) (hlo : coreBase k ≤ a) (hhi : a + n ≤ coreBase (k + 1)) :
    bufferCode k a n = 0 := by
  simp only [bufferCode, halign, hlo, hhi, bne_self_eq_false, Bool.false_eq_true, if_false, decide_true, Bool.and_self, if_true]

/-! ### send and tsend (R411, R412) -/

/-- A send whose checks pass takes a credit; without one tsend answers BUSY and send waits. -/
theorem sendOp_checked {try_ : Bool} {k : Nat} {w : W64} {ch : Chip} {x : Core} {y : Chan} (himm : fIMM w < 4096) (hposted : x.posted = [])
    (hcheck : ch.chanCheck k (fIMM w) true = .ok y) (hbuf : bufferCode k (x.getS (fA w)).toNat y.msgBytes = 0)
    (hfence : ch.isFenced y.dstCore = false) (hbad : ch.bad (x.getS (fA w)).toNat y.msgBytes = false) :
    sendOp try_ k w ch x =
      if 0 < y.credits then
        .next ((ch.sendNow k (x.getS (fA w)).toNat y).1.modCore k fun z => z.setS (fD w) (outcomeWord cOK y.gen (y.credits - 1) 0))
      else if try_ then .next (ch.modCore k fun z => z.setS (fD w) (outcomeWord cBUSY y.gen 0 0))
      else .wait ch (.send (fD w) y.id (x.getS (fA w)).toNat ch.time) := by
  simp only [sendOp, Nat.not_le.2 himm, hposted, hcheck, hbuf, Chan.other, hfence, hbad, List.isEmpty_nil, Bool.not_true,
    Bool.false_eq_true, if_false, if_true, Nat.pos_iff_ne_zero, ite_not]
  rfl

/-- send and tsend on a channel whose checks pass. -/
theorem send_result (try_ : Bool) (s : State) (c k : Nat) (w : W64) (ch : Chip) (y : Chan) (hc : s.chips[c]? = some ch)
    (hr : ch.ready k w (if try_ then 0xE2 else 0xE0) (mD ||| mA ||| mIMM) = true) (himm : fIMM w < 4096) (hposted : (ch.core k).posted = [])
    (hcheck : ch.chanCheck k (fIMM w) true = .ok y) :
    let a := ((ch.core k).getS (fA w)).toNat
    bufferCode k a y.msgBytes = 0 → ch.isFenced y.dstCore = false → ch.bad a y.msgBytes = false →
    let f := ch.fetched k
    let answer := fun (g : Chip) (v : W64) => (g.modCore k fun x => x.setS (fD w) v).retire k
    exec (if try_ then .tsend c k w else .send c k w) s = .next (s.withChip c (
      if 0 < y.credits then answer (f.sendNow k a y).1 (outcomeWord cOK y.gen (y.credits - 1) 0)
      else if try_ then answer f (outcomeWord cBUSY y.gen 0 0)
      else f.modCore k fun x => { x with state := .waiting, wait := some (.send (fD w) y.id a ch.time) })) := by
  dsimp only
  intro hbuf hfence hbad
  have hexec : exec (if try_ then .tsend c k w else .send c k w) s = issueOn c k w (mD ||| mA ||| mIMM) (sendOp try_ k w) s := by
    cases try_ <;> rfl
  have hk := Chip.lt_of_ready hr
  rw [hexec, issueOn_ready hc hr (by cases try_ <;> decide), sendOp_checked himm hposted (by rwa [Chip.fetched_chanCheck]) hbuf
    (by rwa [Chip.fetched_isFenced]) (by rwa [Chip.fetched_bad])]
  congr 2
  split
  · rfl
  · split
    · rfl
    · rw [Chip.settleRes_wait hk (by nofun) (by nofun), ch.fetched_time]

/-! ### recv and trecv (R413) -/

/-- A recv whose checks pass takes the oldest message. -/
theorem recvOp_takes {try_ : Bool} {k : Nat} {w : W64} {ch : Chip} {x : Core} {y : Chan} {m : Msg} {rest : List Msg} (himm : fIMM w < 4096)
    (hcheck : ch.chanCheck k (fIMM w) false = .ok y) (hbuf : bufferCode k (x.getS (fA w)).toNat y.msgBytes = 0)
    (hfence : ch.isFenced y.srcCore = false) (hqueue : y.queue = m :: rest) (hbad : m.bad = false) :
    recvOp try_ k w ch x =
      .next ((ch.recvNow (x.getS (fA w)).toNat y m).1.modCore k fun z => z.setS (fD w) (outcomeWord cOK y.gen rest.length m.seq)) := by
  simp only [recvOp, Nat.not_le.2 himm, hcheck, hbuf, Chan.other, hfence, hqueue, hbad, Chip.recvNow, List.length_cons, Nat.add_sub_cancel,
    Bool.false_eq_true, if_false]

/-- A recv whose checks pass and that finds no message: trecv answers BUSY, and recv waits. -/
theorem recvOp_empty {try_ : Bool} {k : Nat} {w : W64} {ch : Chip} {x : Core} {y : Chan} (himm : fIMM w < 4096)
    (hcheck : ch.chanCheck k (fIMM w) false = .ok y) (hbuf : bufferCode k (x.getS (fA w)).toNat y.msgBytes = 0)
    (hfence : ch.isFenced y.srcCore = false) (hqueue : y.queue = []) :
    recvOp try_ k w ch x =
      if try_ then .next (ch.modCore k fun z => z.setS (fD w) (outcomeWord cBUSY y.gen 0 0))
      else .wait ch (.recv (fD w) y.id (x.getS (fA w)).toNat ch.time) := by
  simp only [recvOp, Nat.not_le.2 himm, hcheck, hbuf, Chan.other, hfence, hqueue, Bool.false_eq_true, if_false]

/-- recv and trecv on a channel whose checks pass. -/
theorem recv_result (try_ : Bool) (s : State) (c k : Nat) (w : W64) (ch : Chip) (y : Chan) (hc : s.chips[c]? = some ch)
    (hr : ch.ready k w (if try_ then 0xE3 else 0xE1) (mD ||| mA ||| mIMM) = true) (himm : fIMM w < 4096)
    (hcheck : ch.chanCheck k (fIMM w) false = .ok y) :
    let a := ((ch.core k).getS (fA w)).toNat
    bufferCode k a y.msgBytes = 0 → ch.isFenced y.srcCore = false →
    let f := ch.fetched k
    let answer := fun (g : Chip) (v : W64) => (g.modCore k fun x => x.setS (fD w) v).retire k
    (∀ m rest, y.queue = m :: rest → m.bad = false → exec (if try_ then .trecv c k w else .recv c k w) s =
      .next (s.withChip c (answer (f.recvNow a y m).1 (outcomeWord cOK y.gen rest.length m.seq)))) ∧
    (y.queue = [] → exec (if try_ then .trecv c k w else .recv c k w) s = .next (s.withChip c (
      if try_ then answer f (outcomeWord cBUSY y.gen 0 0)
      else f.modCore k fun x => { x with state := .waiting, wait := some (.recv (fD w) y.id a ch.time) }))) := by
  dsimp only
  intro hbuf hfence
  have hexec : exec (if try_ then .trecv c k w else .recv c k w) s = issueOn c k w (mD ||| mA ||| mIMM) (recvOp try_ k w) s := by
    cases try_ <;> rfl
  have hk := Chip.lt_of_ready hr
  rw [← ch.fetched_chanCheck k] at hcheck
  rw [← ch.fetched_isFenced k] at hfence
  rw [hexec, issueOn_ready hc hr (by cases try_ <;> decide)]
  refine ⟨fun m rest hqueue hbad => ?_, fun hqueue => ?_⟩
  · rw [recvOp_takes himm hcheck hbuf hfence hqueue hbad]
    rfl
  · rw [recvOp_empty himm hcheck hbuf hfence hqueue]
    congr 2
    split
    · rfl
    · rw [Chip.settleRes_wait hk (by nofun) (by nofun), ch.fetched_time]

/-! ### The message on the mesh (R415) -/

section
variable (y : Chan) (m : Msg) (credit : Bool) (p : List Nat)

theorem Chan.leAt_header_gen : leAt (y.header m credit ++ p) 4 2 = m.gen % 2 ^ 16 := leNat_leBytes 2 m.gen

theorem Chan.leAt_header_seq : leAt (y.header m credit ++ p) 6 2 = m.seq % 2 ^ 16 := leNat_leBytes 2 m.seq

theorem Chan.leAt_header_crc : leAt (y.header m false ++ p) 12 4 = crc32c m.payload % 2 ^ 32 := leNat_leBytes 4 (crc32c m.payload)

theorem Chan.drop_header : (y.header m credit ++ p).drop 16 = p := rfl

end

/-- The steps of a reflected CRC stay within 32 bits. -/
theorem crcSteps_lt {poly : Nat} (hpoly : poly < 2 ^ 32) (n : Nat) {c : Nat} (hc : c < 2 ^ 32) : crcSteps poly n c < 2 ^ 32 := by
  induction n generalizing c with
  | zero => exact hc
  | succ n ih =>
    have hhalf : c / 2 < 2 ^ 32 := Nat.lt_of_le_of_lt (Nat.div_le_self c 2) hc
    rw [crcSteps]
    split
    · exact ih (Nat.xor_lt_two_pow hhalf hpoly)
    · exact ih hhalf

/-- A reflected CRC has 32 bits. -/
theorem crcReflected_lt {poly : Nat} (hpoly : poly < 2 ^ 32) (l : List Nat) : crcReflected poly l < 2 ^ 32 := by
  have hreg : ∀ c, c < 2 ^ 32 → l.foldl (fun c b => crcSteps poly 8 (c ^^^ (b % 256))) c < 2 ^ 32 := by
    induction l with
    | nil => exact fun c hc => hc
    | cons b l ih =>
      have hbyte : b % 256 < 2 ^ 32 := Nat.lt_trans (Nat.mod_lt b (by decide)) (by decide)
      exact fun c hc => ih _ (crcSteps_lt hpoly 8 (Nat.xor_lt_two_pow hc hbyte))
  exact Nat.xor_lt_two_pow (hreg _ (by decide)) (by decide)

theorem crc32c_lt (l : List Nat) : crc32c l < 2 ^ 32 := crcReflected_lt (by decide) l

/-! ### Arrivals (R413, R417, R418) -/

/-- That one of two numbers is not the expected one. -/
theorem bne_or_bne_iff {a b c d : Nat} : (a != b || c != d) = true ↔ ¬ (a = b ∧ c = d) := by
  rw [Bool.or_eq_true, bne_iff_ne, bne_iff_ne, Decidable.not_and_iff_not_or_not]

/-- The oldest message in flight reaches its port: dropped where its generation is old, queued where crc and sequence are right, and
otherwise dropped with its credit returned. -/
theorem messageArrival_result {s : State} {c id : Nat} {ch : Chip} {y : Chan} {m : Msg} {rest : List Msg} (hc : s.chips[c]? = some ch)
    (hchan : ch.chan id = some y) (hflight : y.flight = m :: rest) (errs : List (Nat × Nat)) :
    exec (.messageArrival c id errs) s = .next (s.withChip c (
      let f := ch.modChan id fun z => { z with flight := rest }
      let got := corrupt (y.header m false ++ m.payload) errs
      let seq := leAt got 6 2
      if leAt got 4 2 ≠ y.gen then f.modChan id fun z => { z with stale := min (z.stale + 1) 0xFFFF }
      else if crc32c (got.drop 16) = leAt got 12 4 ∧ seq = y.rxSeq then
        (f.modChan id fun z => { z with rxSeq := (z.rxSeq + 1) % 2 ^ 16, queue := z.queue ++ [{ m with payload := got.drop 16 }] }).poke y.dstCore
      else (f.modChan id fun z => { z with rxSeq := (seq + 1) % 2 ^ 16, returning := z.returning ++ [(z.gen, seq)] }).ev
        0x0604 err y.dstCore y.part cECC 0 id)) := by
  have hexec : exec (.messageArrival c id errs) s = execMessageArrival c id errs s := rfl
  rw [hexec, execMessageArrival, onChip_some hc]
  congr 2
  simp only [hchan, hflight, bne_iff_ne, bne_or_bne_iff, ite_not]
  rfl

/-- A message of the channel's generation and the expected sequence that meets no error of the mesh is queued as it was sent. -/
theorem messageArrival_good {s : State} {c id : Nat} {ch : Chip} {y : Chan} {m : Msg} {rest : List Msg} (hc : s.chips[c]? = some ch)
    (hchan : ch.chan id = some y) (hflight : y.flight = m :: rest) (hgen : m.gen = y.gen) (hgen16 : y.gen < 2 ^ 16) (hseq : m.seq = y.rxSeq)
    (hseq16 : y.rxSeq < 2 ^ 16) :
    exec (.messageArrival c id []) s = .next (s.withChip c (((ch.modChan id fun z => { z with flight := rest }).modChan id
      fun z => { z with rxSeq := (z.rxSeq + 1) % 2 ^ 16, queue := z.queue ++ [m] }).poke y.dstCore)) := by
  have hgot : corrupt (y.header m false ++ m.payload) [] = y.header m false ++ m.payload := rfl
  have hg : leAt (y.header m false ++ m.payload) 4 2 = y.gen := by rw [Chan.leAt_header_gen, hgen, Nat.mod_eq_of_lt hgen16]
  have hs : leAt (y.header m false ++ m.payload) 6 2 = y.rxSeq := by rw [Chan.leAt_header_seq, hseq, Nat.mod_eq_of_lt hseq16]
  have hcrc : leAt (y.header m false ++ m.payload) 12 4 = crc32c m.payload := by
    rw [Chan.leAt_header_crc, Nat.mod_eq_of_lt (crc32c_lt _)]
  rw [messageArrival_result hc hchan hflight]
  simp only [hgot, hg, hs, hcrc, Chan.drop_header, ne_eq, not_true_eq_false, and_self, if_false, if_true]

/-- A returned credit of the channel's generation is the sender's again, and one of an old generation is dropped. -/
theorem creditReturn_result {s : State} {c id : Nat} {ch : Chip} {y : Chan} {g : Nat × Nat} {rest : List (Nat × Nat)}
    (hc : s.chips[c]? = some ch) (hchan : ch.chan id = some y) (hreturning : y.returning = g :: rest) (hgen : g.1 < 2 ^ 16) :
    exec (.creditReturn c id) s = .next (s.withChip c (
      let f := ch.modChan id fun z => { z with returning := rest }
      if g.1 = y.gen then (f.modChan id fun z => { z with credits := min (z.credits + 1) z.depth }).poke y.srcCore else f)) := by
  have hexec : exec (.creditReturn c id) s = execCreditReturn c id s := rfl
  have hg : leAt (y.header { gen := g.1, seq := g.2 } true) 4 2 = g.1 := by
    rw [← List.append_nil (y.header _ _), Chan.leAt_header_gen, Nat.mod_eq_of_lt hgen]
  rw [hexec, execCreditReturn, onChip_some hc]
  simp only [hchan, hreturning, hg, bne_iff_ne, ne_eq, ite_not]

/-! ### The ends of waits at their limits (R346, R412, R413, R422) -/

/-- Core `k` waits for `q`. -/
def Chip.waits (ch : Chip) (k : Nat) (q : Wait) : Prop := (ch.core k).state = .waiting ∧ (ch.core k).wait = some q

/-- A completion wait of core `k` since `since` has reached stream_desc_us, which no slot freezes (R346, R845). -/
def Chip.streamDue (ch : Chip) (k since : Nat) : Prop :=
  since + ch.streamNs (ch.partNo k) ≤ ch.time ∧ ch.alive = true ∧ (ch.part (ch.partNo k)).inSlot = false

theorem sendTimeout_due (c k rd id a since : Nat) :
    Acts (.sendTimeout c k) c (fun ch => ch.waits k (.send rd id a since) ∧ ch.waitedMsg (ch.partNo k) since = true)
      fun ch => (ch.modCore k fun x => x.setS rd (outcomeWord cTIMEOUT (((ch.chan id).map Chan.gen).getD 0) 0 0)).retire k :=
  acts_of_onChip _ (fun _ => rfl) fun ch ⟨⟨hstate, hwait⟩, hdue⟩ => by
    simp only [hstate, hwait, hdue, if_true, Chip.answer_of_waiting hstate]

theorem recvTimeout_due (c k rd id a since : Nat) :
    Acts (.recvTimeout c k) c (fun ch => ch.waits k (.recv rd id a since) ∧ ch.waitedMsg (ch.partNo k) since = true)
      fun ch => (ch.modCore k fun x => x.setS rd (outcomeWord cTIMEOUT (((ch.chan id).map Chan.gen).getD 0) 0 0)).retire k :=
  acts_of_onChip _ (fun _ => rfl) fun ch ⟨⟨hstate, hwait⟩, hdue⟩ => by
    simp only [hstate, hwait, hdue, if_true, Chip.answer_of_waiting hstate]

theorem syncWaitTimeout_due (c k rd n b since : Nat) :
    Acts (.syncWaitTimeout c k) c (fun ch => ch.waits k (.sync rd n b since) ∧ ch.waitedMsg (ch.partNo k) since = true)
      fun ch => ((ch.unqueue k).modCore k fun x => x.setS rd (outcomeWord cTIMEOUT (((ch.sync n).map SyncObj.gen).getD 0) 0 0)).retire k :=
  acts_of_onChip _ (fun _ => rfl) fun ch ⟨⟨hstate, hwait⟩, hdue⟩ => by
    have hleft : ((ch.unqueue k).core k).state = .waiting := by rwa [Chip.unqueue_core]
    simp only [hstate, hwait, hdue, if_true, Chip.answer_of_waiting hleft]

theorem cwaitTimeout_any (c k rd since : Nat) :
    Acts (.cwaitTimeout c k) c (fun ch => ch.waits k (.anyCompletion rd since) ∧ ch.streamDue k since)
      fun ch => (ch.modCore k fun x => x.setS rd (noCompletion cTIMEOUT 0)).retire k :=
  acts_of_onChip _ (fun _ => rfl) fun ch ⟨⟨hstate, hwait⟩, hdue, halive, hslot⟩ => by
    simp only [hstate, hwait, hdue, halive, hslot, decide_true, Bool.not_false, Bool.and_self, if_true, Chip.answer_of_waiting hstate]

theorem cwaitTimeout_tagged (c k rd tag since : Nat) :
    Acts (.cwaitTimeout c k) c (fun ch => ch.waits k (.tagged rd tag since) ∧ ch.streamDue k since)
      fun ch => (ch.modCore k fun x => x.setS rd (noCompletion cTIMEOUT tag)).retire k :=
  acts_of_onChip _ (fun _ => rfl) fun ch ⟨⟨hstate, hwait⟩, hdue, halive, hslot⟩ => by
    simp only [hstate, hwait, hdue, halive, hslot, decide_true, Bool.not_false, Bool.and_self, if_true, Chip.answer_of_waiting hstate]

/-! ### The statement -/

/-- Settles O8: the checks of R1018 pass, and then each case of an instruction, an arrival and a limit by its own lemma. -/
theorem messageResults : Obligations.MessageResults := by
  unfold Obligations.MessageResults
  refine ⟨?send, ?recv, ?arrival, ?limit⟩
  case send =>
    intro try_ s c k w ch y hc hr himm hposted hchan hpart hcore a halign hlo hhi hfence hbad f answer m
    rw [send_result try_ s c k w ch y hc hr himm hposted (Chip.chanCheck_eq_ok hchan hpart hcore) (bufferCode_eq_ok halign hlo hhi) hfence hbad,
      Chip.sendNow, Chip.see_congr (ch.fetched_mem k) (ch.fetched_cores k)]
    rfl
  case recv =>
    intro try_ s c k w ch y hc hr himm hchan hpart hcore a halign hlo hhi hfence f answer
    obtain ⟨htakes, hempty⟩ := recv_result try_ s c k w ch y hc hr himm (Chip.chanCheck_eq_ok hchan hpart hcore)
      (bufferCode_eq_ok halign hlo hhi) hfence
    cases hqueue : y.queue with
    | nil => exact hempty hqueue
    | cons m rest => exact htakes m rest hqueue
  case arrival =>
    exact fun s c id ch y hc hchan => ⟨fun m rest errs hflight => messageArrival_result hc hchan hflight errs,
      fun m rest hflight => messageArrival_good hc hchan hflight, fun g rest => creditReturn_result hc hchan⟩
  case limit =>
    intro s c k ch rd a since hc hstate
    refine ⟨fun id hdue halive hslot => ?_, fun hdue halive hslot => ?_⟩
    · have hwaited := Chip.waitedMsg_eq_true hdue halive hslot
      exact ⟨fun hwait => sendTimeout_due c k rd id a since s ch hc ⟨⟨hstate, hwait⟩, hwaited⟩,
        fun hwait => recvTimeout_due c k rd id a since s ch hc ⟨⟨hstate, hwait⟩, hwaited⟩,
        fun hwait => syncWaitTimeout_due c k rd id a since s ch hc ⟨⟨hstate, hwait⟩, hwaited⟩⟩
    · have hdue : ch.streamDue k since := ⟨hdue, halive, hslot⟩
      exact ⟨fun hwait => cwaitTimeout_any c k rd since s ch hc ⟨⟨hstate, hwait⟩, hdue⟩,
        fun tag hwait => cwaitTimeout_tagged c k rd tag since s ch hc ⟨⟨hstate, hwait⟩, hdue⟩⟩

end Sys2Proof.Machine

/-! SUPPORT. What a command of a matrix array leaves when it completes: the accumulators of its bank, the bytes that a DRAIN writes, and what
the completion itself changes (R275, R458, R473, R475, R478 to R482). -/
namespace Sys2Proof.Machine

/-! ### The accumulators of a bank, as a sparse list -/

/-- The canonical form, from the first key on. -/
theorem Sparse.wf_cons (c : Nat × Nat) (r : List (Nat × Nat)) :
    Sparse.wf (c :: r) = true ↔ c.2 ≠ 0 ∧ (∀ e ∈ r, c.1 < e.1) ∧ Sparse.wf r = true := by
  induction r generalizing c with
  | nil => simp [Sparse.wf]
  | cons d r ih =>
    simp only [Sparse.wf, Bool.and_eq_true, bne_iff_ne, decide_eq_true_eq, ih, List.forall_mem_cons]
    constructor
    · rintro ⟨⟨hc, hcd⟩, hd, hdr, hr⟩
      exact ⟨hc, ⟨hcd, fun e he => Nat.lt_trans hcd (hdr e he)⟩, hd, hdr, hr⟩
    · rintro ⟨hc, ⟨hcd, -⟩, hd, hdr, hr⟩
      exact ⟨⟨hc, hcd⟩, hd, hdr, hr⟩

/-- A key below every listed one reads 0. -/
theorem Sparse.get_below {l : List (Nat × Nat)} {a : Nat} (h : ∀ e ∈ l, a < e.1) : Sparse.get l a = 0 := by
  induction l with
  | nil => rfl
  | cons c r ih =>
    obtain ⟨hc, hr⟩ := List.forall_mem_cons.1 h
    rw [Sparse.get, if_neg (Nat.ne_of_gt hc), ih hr]

/-- A key that is listed after a value is set was listed before, or is the one that was set. -/
theorem Sparse.key_of_mem_put {l : List (Nat × Nat)} {a b : Nat} {e : Nat × Nat} (h : e ∈ Sparse.put l a b) : e ∈ l ∨ e.1 = a := by
  induction l with
  | nil =>
    rw [Sparse.put] at h
    split at h
    · cases h
    · exact .inr (congrArg Prod.fst (List.mem_singleton.1 h))
  | cons c r ih =>
    rw [Sparse.put] at h
    split at h
    · split at h
      · exact .inl h
      · exact (List.mem_cons.1 h).elim (fun he => .inr (congrArg Prod.fst he)) .inl
    · split at h
      · split at h
        · exact .inl (List.mem_cons_of_mem c h)
        · exact (List.mem_cons.1 h).elim (fun he => .inr (congrArg Prod.fst he)) fun he => .inl (List.mem_cons_of_mem c he)
      · rcases List.mem_cons.1 h with rfl | h
        · exact .inl List.mem_cons_self
        · exact (ih h).imp (List.mem_cons_of_mem c) id

/-- Setting a value keeps the canonical form. -/
theorem Sparse.put_wf {l : List (Nat × Nat)} (h : Sparse.wf l = true) (a b : Nat) : Sparse.wf (Sparse.put l a b) = true := by
  induction l with
  | nil =>
    rw [Sparse.put]
    split
    · rfl
    · rename_i hb
      exact (Sparse.wf_cons _ _).2 ⟨hb, nofun, rfl⟩
  | cons c r ih =>
    obtain ⟨hc, hcr, hr⟩ := (Sparse.wf_cons c r).1 h
    rw [Sparse.put]
    split
    · rename_i hac
      split
      · exact h
      · rename_i hb
        exact (Sparse.wf_cons _ _).2 ⟨hb, List.forall_mem_cons.2 ⟨hac, fun e he => Nat.lt_trans hac (hcr e he)⟩, h⟩
    · rename_i hac
      split
      · rename_i heq
        split
        · exact hr
        · rename_i hb
          exact (Sparse.wf_cons _ _).2 ⟨hb, heq ▸ hcr, hr⟩
      · rename_i hne
        refine (Sparse.wf_cons _ _).2 ⟨hc, fun e he => ?_, ih hr⟩
        rcases Sparse.key_of_mem_put he with he | he
        · exact hcr e he
        · omega

/-- The value at a key after one value is set. -/
theorem Sparse.get_put {l : List (Nat × Nat)} (h : Sparse.wf l = true) (a b i : Nat) :
    Sparse.get (Sparse.put l a b) i = if i = a then b else Sparse.get l i := by
  induction l with
  | nil =>
    rw [Sparse.put]
    split
    · rename_i hb
      simp [Sparse.get, hb]
    · simp only [Sparse.get, eq_comm]
  | cons c r ih =>
    obtain ⟨-, hcr, hr⟩ := (Sparse.wf_cons c r).1 h
    rw [Sparse.put]
    split
    · rename_i hac
      have habsent : Sparse.get (c :: r) a = 0 :=
        Sparse.get_below (List.forall_mem_cons.2 ⟨hac, fun e he => Nat.lt_trans hac (hcr e he)⟩)
      split
      · rename_i hb
        split
        · rename_i hi
          rw [hi, habsent, hb]
        · rfl
      · simp only [Sparse.get, eq_comm]
    · split
      · rename_i heq
        subst heq
        split
        · rename_i hb
          by_cases hi : i = c.1
          · rw [if_pos hi, hi, Sparse.get_below hcr, hb]
          · rw [if_neg hi, Sparse.get, if_neg (Ne.symm hi)]
        · simp only [Sparse.get, eq_comm]
          split <;> rfl
      · rename_i hne
        simp only [Sparse.get, ih hr]
        by_cases hci : c.1 = i
        · rw [if_pos hci, if_neg fun hi => hne (hci.trans hi), if_pos hci]
        · rw [if_neg hci, if_neg hci]

/-- The accumulators once each position of a list is given its value. -/
def Sparse.fill (value : Nat × Nat → Nat) (l : List (Nat × Nat)) (acc : List (Nat × Nat)) : List (Nat × Nat) :=
  l.foldl (fun x q => Sparse.put x (accPos q) (value q)) acc

theorem Sparse.fill_wf {acc : List (Nat × Nat)} (h : Sparse.wf acc = true) (value : Nat × Nat → Nat) (l : List (Nat × Nat)) :
    Sparse.wf (Sparse.fill value l acc) = true := by
  induction l generalizing acc with
  | nil => exact h
  | cons q l ih => exact ih (Sparse.put_wf h _ _)

/-- Positions of the list hold their values, where a value is told by the position, and all others what they held. -/
theorem Sparse.get_fill {acc : List (Nat × Nat)} (h : Sparse.wf acc = true) {value : Nat × Nat → Nat} {told : Nat → Nat}
    {l : List (Nat × Nat)} (htold : ∀ q ∈ l, value q = told (accPos q)) (p : Nat) :
    Sparse.get (Sparse.fill value l acc) p = if p ∈ l.map accPos then told p else Sparse.get acc p := by
  induction l generalizing acc with
  | nil => rfl
  | cons q l ih =>
    obtain ⟨hq, hl⟩ := List.forall_mem_cons.1 htold
    have hrest := ih (Sparse.put_wf h (accPos q) (value q)) hl
    rw [Sparse.get_put h, hq] at hrest
    rw [show Sparse.fill value (q :: l) acc = Sparse.fill value l (Sparse.put acc (accPos q) (value q)) from rfl, hq, hrest, List.map_cons]
    by_cases hp : p ∈ l.map accPos
    · rw [if_pos hp, if_pos (List.mem_cons_of_mem _ hp)]
    · by_cases hpq : p = accPos q
      · rw [if_neg hp, if_pos hpq, if_pos (hpq ▸ List.mem_cons_self), hpq]
      · rw [if_neg hp, if_neg hpq, if_neg fun hmem => (List.mem_cons.1 hmem).elim hpq hp]

/-! ### The positions of an extent -/

theorem mem_extent {m n : Nat} {q : Nat × Nat} : q ∈ extent m n ↔ q.1 < m ∧ q.2 < n := by
  rw [extent, List.mem_flatten]
  constructor
  · rintro ⟨l, hl, hq⟩
    obtain ⟨i, hi, rfl⟩ := List.mem_map.1 hl
    obtain ⟨j, hj, rfl⟩ := List.mem_map.1 hq
    exact ⟨List.mem_range.1 hi, List.mem_range.1 hj⟩
  · rintro ⟨hi, hj⟩
    exact ⟨_, List.mem_map_of_mem (List.mem_range.2 hi), List.mem_map.2 ⟨q.2, List.mem_range.2 hj, rfl⟩⟩

/-- The row and the column of an accumulator are told by its position. -/
theorem accPos_div_mod {q : Nat × Nat} (h : q.2 < 512) : accPos q / 512 = q.1 ∧ accPos q % 512 = q.2 := by
  rw [accPos]
  omega

/-- The accumulators of an extent: those of its rows and of its columns. -/
theorem mem_extent_accPos {m n p : Nat} (hn : n ≤ 512) : p ∈ (extent m n).map accPos ↔ p / 512 < m ∧ p % 512 < n := by
  rw [List.mem_map]
  constructor
  · rintro ⟨q, hq, rfl⟩
    obtain ⟨hrow, hcol⟩ := mem_extent.1 hq
    obtain ⟨hdiv, hmod⟩ := accPos_div_mod (Nat.lt_of_lt_of_le hcol hn)
    rw [hdiv, hmod]
    exact ⟨hrow, hcol⟩
  · intro h
    exact ⟨(p / 512, p % 512), mem_extent.2 h, by rw [accPos]; omega⟩

/-- The accumulators of an extent hold their values once it is filled, and all others what they held. -/
theorem get_fill_extent {acc : List (Nat × Nat)} (h : Sparse.wf acc = true) (value : Nat × Nat → Nat) (m : Nat) {n : Nat} (hn : n ≤ 512)
    (p : Nat) : Sparse.get (Sparse.fill value (extent m n) acc) p =
      if p / 512 < m ∧ p % 512 < n then value (p / 512, p % 512) else Sparse.get acc p := by
  rw [Sparse.get_fill (told := fun p => value (p / 512, p % 512)) h fun q hq => ?_]
  · simp only [mem_extent_accPos hn]
  · obtain ⟨hdiv, hmod⟩ := accPos_div_mod (Nat.lt_of_lt_of_le (mem_extent.1 hq).2 hn)
    rw [hdiv, hmod]

/-! ### The banks after an MMA and after a LOAD_ACC (R275, R482) -/

/-- The value of an accumulator after an MMA (R275). -/
def mmaValue (b : Bank) (u : UnitCmd) (rd : Nat → Nat) (q : Nat × Nat) : Nat :=
  (mmaAcc b.state (Sparse.get b.acc (accPos q)) (mmaAddends (opA u) (opB u) rd (u.le 12 4) q.1 q.2)).1

theorem mmaRun_acc (b : Bank) (u : UnitCmd) (rd : Nat → Nat) :
    (mmaRun b u rd).acc = Sparse.fill (mmaValue b u rd) (extent (u.le 8 2) (u.le 10 2)) b.acc :=
  (List.foldl_hom Prod.fst fun _ _ => rfl).symm

/-- Each accumulator of the extent of an MMA has its addends, and every other one is as it was. -/
theorem mmaRun_get {b : Bank} {u : UnitCmd} (rd : Nat → Nat) (hwf : Sparse.wf b.acc = true) (hn : u.le 10 2 ≤ 512) (p : Nat) :
    Sparse.get (mmaRun b u rd).acc p = if p / 512 < u.le 8 2 ∧ p % 512 < u.le 10 2
      then (mmaAcc b.state (Sparse.get b.acc p) (mmaAddends (opA u) (opB u) rd (u.le 12 4) (p / 512) (p % 512))).1
      else Sparse.get b.acc p := by
  have hpos : accPos (p / 512, p % 512) = p := by rw [accPos]; omega
  rw [mmaRun_acc, get_fill_extent hwf _ _ hn, mmaValue, hpos]

/-- The value that a LOAD_ACC reads for a position (R482). -/
def loadValue (u : UnitCmd) (rd : Nat → Nat) (q : Nat × Nat) : Nat :=
  leNat ((List.range 4).map fun j => rd (u.le 16 4 + q.1 * u.le 20 4 + 4 * q.2 + j))

/-- Each accumulator of the extent of a LOAD_ACC has its four bytes, and every other one is 0. -/
theorem loadRun_get {u : UnitCmd} (rd : Nat → Nat) (hn : u.le 10 2 ≤ 512) (p : Nat) :
    Sparse.get (loadRun u rd).acc p =
      if p / 512 < u.le 8 2 ∧ p % 512 < u.le 10 2 then loadValue u rd (p / 512, p % 512) else 0 :=
  get_fill_extent (acc := []) rfl (loadValue u rd) _ hn p

theorem loadRun_state (u : UnitCmd) (rd : Nat → Nat) : (loadRun u rd).state = if u.byte 5 = fFP32 then .fp32 else .int32 := by
  simp only [loadRun, beq_iff_eq]

/-! ### What a completion leaves unchanged (R342, R562) -/

/-- Memory and the accumulator banks of every pod are kept. -/
def Chip.KeepsBanks (ch ch' : Chip) : Prop := ch'.mem = ch.mem ∧ ∀ j n, (ch'.pod j).bank n = (ch.pod j).bank n

namespace Chip.KeepsBanks

variable {ch a b : Chip}

theorem refl (ch : Chip) : ch.KeepsBanks ch := ⟨rfl, fun _ _ => rfl⟩

theorem trans (hab : ch.KeepsBanks a) (hbc : a.KeepsBanks b) : ch.KeepsBanks b :=
  ⟨hbc.1.trans hab.1, fun j n => (hbc.2 j n).trans (hab.2 j n)⟩

theorem modCore (ch : Chip) (k : Nat) (f : Core → Core) : ch.KeepsBanks (ch.modCore k f) := ⟨rfl, fun _ _ => rfl⟩

theorem modPod (ch : Chip) (p : Nat) {f : Pod → Pod} (hf : ∀ x n, (f x).bank n = x.bank n) : ch.KeepsBanks (ch.modPod p f) := by
  refine ⟨rfl, fun j n => ?_⟩
  rw [Chip.modPod_pod]
  split
  · rename_i h
    rw [hf, h.1]
  · rfl

theorem modCtx (ch : Chip) (p x : Nat) (f : SeCtx → SeCtx) : ch.KeepsBanks (ch.modCtx p x f) := modPod ch p fun _ _ => rfl

theorem ev (ch : Chip) (id cls agent part code arg0 arg1 level : Nat) : ch.KeepsBanks (ch.ev id cls agent part code arg0 arg1 level) := by
  obtain ⟨r, p, o, h⟩ := ch.event_cases
    { cls := cls, id := id, agent := agent, part := part, code := code, level := level, arg0 := arg0, arg1 := arg1 }
  rw [Chip.ev, h]
  exact refl ch

theorem debugHalt (ch : Chip) (k reason index : Nat) : ch.KeepsBanks (ch.debugHalt k reason index) := by
  unfold Chip.debugHalt
  dsimp only
  split
  · exact refl ch
  · exact (modCore ch k _).trans (ev ..)

theorem haltCore (ch : Chip) (k reason index : Nat) : ch.KeepsBanks (ch.haltCore k reason index) := by
  have hhalt := debugHalt ch k reason index
  unfold Chip.haltCore
  dsimp only
  split
  · exact List.foldlRecOn _ _ hhalt fun a ha j _ => ha.trans (debugHalt a j 2 0)
  · exact hhalt

theorem retire (ch : Chip) (k : Nat) : ch.KeepsBanks (ch.retire k) := by
  unfold Chip.retire Chip.retireTo
  dsimp only
  split
  · exact (modCore ch k _).trans (haltCore ..)
  · exact modCore ch k _

theorem settle (ch : Chip) (k : Nat) : ch.KeepsBanks (ch.settle k) := by
  unfold Chip.settle
  dsimp only
  split
  · exact refl ch
  · split
    · split
      · exact (modCore ch k _).trans (retire ..)
      · exact refl ch
    · split
      · exact (modCore ch k _).trans (retire ..)
      · exact refl ch
    · exact refl ch

theorem completeCore (ch : Chip) (u : UnitCmd) (code value : Nat) : ch.KeepsBanks (ch.completeCore u code value) := by
  unfold Chip.completeCore
  dsimp only
  split
  · exact modCore ..
  · split
    · exact modCore ..
    · exact (modCore ch u.core _).trans (settle ..)

theorem chainDone (ch : Chip) (p x id stage code : Nat) : ch.KeepsBanks (ch.chainDone p x id stage code) := by
  unfold Chip.chainDone
  split
  · dsimp only
    split
    · exact refl ch
    · split
      · exact (modCtx ch p x _).trans (completeCore ..)
      · exact modCtx ..
  · exact refl ch

/-- A command that completes, to its core or to its chain, keeps memory and every bank. -/
theorem complete (ch : Chip) (u : UnitCmd) (code value : Nat) : ch.KeepsBanks (ch.complete u code value) := by
  unfold Chip.complete
  split
  · exact completeCore ..
  · exact chainDone ..

end Chip.KeepsBanks

/-! ### The command that an array runs completes -/

/-- Two changes of a pod in turn are one. -/
theorem Chip.modPod_modPod (ch : Chip) (p : Nat) (f g : Pod → Pod) : (ch.modPod p f).modPod p g = ch.modPod p fun x => g (f x) := by
  have hpods : (ch.pods.modify p f).modify p g = ch.pods.modify p fun x => g (f x) := by
    refine List.ext_getElem? fun j => ?_
    simp only [List.getElem?_modify]
    split <;> cases ch.pods[j]? <;> rfl
  rw [Chip.modPod, Chip.modPod, Chip.modPod, hpods]

/-- The command leaves the queue of its array. -/
def Pod.dequeue (u : UnitCmd) (x : Pod) : Pod := { x with arrq := x.arrq.filter fun q => q.1.id != u.id }

/-- An MMA that completes counts, whatever it left in its bank (R487). -/
theorem Pod.countMma_setBank (x : Pod) (n : Nat) (b : Bank) :
    (x.setBank n b).countMma = { x.setBank n b with mmaCount := (x.mmaCount + 1) % 2 ^ 64 } := by
  have hcount : (x.setBank n b).mmaCount = x.mmaCount := by
    unfold Pod.setBank
    split <;> rfl
  rw [Pod.countMma, hcount]

/-- The bytes of the store of pod `p`, by their offsets. -/
def Chip.podByte (ch : Chip) (p off : Nat) : Nat := (Memory.get ch.mem (podBase p + off)).toNat

/-- The engine of the array of pod `p` runs the command `u`, and the units of its partition work (R467, R844). -/
def Chip.runs (ch : Chip) (p : Nat) (mac : Bool) (u : UnitCmd) : Prop :=
  ch.unitsGo (ch.podPart p) = true ∧ ((ch.pod p).arrq.find? fun q => q.2 && q.1.onMac == mac) = some (u, true)

/-- No range of a list whose lines are all good is the first bad one. -/
theorem Chip.find?_bad_eq_none {ch : Chip} {base : Nat} {l : List (Nat × Nat)} (h : ∀ r ∈ l, ch.bad (base + r.1) r.2 = false) :
    (l.find? fun r => ch.bad (base + r.1) r.2) = none :=
  List.find?_eq_none.2 fun r hr => by rw [h r hr]; exact Bool.false_ne_true

/-- To say what a step of a unit does: a condition under which the units of its partition work, and its effect there. -/
theorem acts_of_unitOn {i : Instr} {c : Nat} {cond : Chip → Prop} {f : Chip → Chip} (part : Chip → Nat) (g : Chip → Chip)
    (hi : ∀ s, exec i s = unitOn c part g s) (hgo : ∀ ch, cond ch → ch.unitsGo (part ch) = true) (hg : ∀ ch, cond ch → g ch = f ch) :
    Acts i c cond f := fun s ch hc h => by
  rw [hi s, unitOn_eq hc, if_pos (hgo ch h), hg ch h]

/-- An MMA over good lines leaves its bank as `mmaRun` says and counts (R275, R487). -/
theorem arrayCmdComplete_mma (c p : Nat) (mac : Bool) (u : UnitCmd) :
    Acts (.arrayCmdComplete c p mac) c
      (fun ch => ch.runs p mac u ∧ u.op = 1 ∧ ∀ r ∈ mmaReads u, ch.bad (podBase p + r.1) r.2 = false) fun ch =>
      let n := bitsOf (u.byte 4) 0 1
      let b := mmaRun ((ch.pod p).bank n) u (ch.podByte p)
      (ch.modPod p fun x => { (x.dequeue u).setBank n b with mmaCount := ((x.dequeue u).mmaCount + 1) % 2 ^ 64 }).complete u cOK b.status := by
  refine acts_of_unitOn _ _ (fun _ => rfl) (fun _ h => h.1.1) fun ch ⟨⟨_, hrun⟩, hop, hgood⟩ => ?_
  simp only [hrun, hop, Chip.find?_bad_eq_none hgood, Chip.modPod_modPod, Pod.countMma_setBank]
  rfl

/-- A LOAD_ACC over good lines leaves its bank as `loadRun` says (R482). -/
theorem arrayCmdComplete_loadAcc (c p : Nat) (mac : Bool) (u : UnitCmd) :
    Acts (.arrayCmdComplete c p mac) c (fun ch => ch.runs p mac u ∧ u.op = 3 ∧
        ∀ i, i < u.le 8 2 → ch.bad (podBase p + (u.le 16 4 + i * u.le 20 4)) (4 * u.le 10 2) = false) fun ch =>
      (ch.modPod p fun x => (x.dequeue u).setBank (bitsOf (u.byte 4) 0 1) (loadRun u (ch.podByte p))).complete u cOK 0 := by
  refine acts_of_unitOn _ _ (fun _ => rfl) (fun _ h => h.1.1) fun ch ⟨⟨_, hrun⟩, hop, hgood⟩ => ?_
  have hrows : ∀ r ∈ (List.range (u.le 8 2)).map fun i => (u.le 16 4 + i * u.le 20 4, 4 * u.le 10 2), ch.bad (podBase p + r.1) r.2 = false :=
    List.forall_mem_map.2 fun i hi => hgood i (List.mem_range.1 hi)
  simp only [hrun, hop, Chip.find?_bad_eq_none hrows, Chip.modPod_modPod]
  rfl

/-- A DRAIN whose writes may be performed stores them and leaves its status (R481). -/
theorem arrayCmdComplete_drain (c p : Nat) (mac : Bool) (u : UnitCmd) (l : Runs) (st : Nat) :
    Acts (.arrayCmdComplete c p mac) c (fun ch => ch.runs p mac u ∧ u.op = 2 ∧
        (ch.modPod p (Pod.dequeue u)).drainWrites (ch.tablesOf u.core) p u = .ok (l, st)) fun ch =>
      (((ch.modPod p (Pod.dequeue u)).storeAll l).modPod p fun x => { x with ostatus := st }).complete u cOK st := by
  refine acts_of_unitOn _ _ (fun _ => rfl) (fun _ h => h.1.1) fun ch ⟨⟨_, hrun⟩, hop, hwrites⟩ => ?_
  unfold Pod.dequeue at hwrites ⊢
  simp only [hrun, hop, hwrites]

/-! ### The writes of a DRAIN (R458, R478, R479) -/

/-- Bytes of an element of a DRAIN whose elements are whole bytes. -/
def UnitCmd.outBytes (u : UnitCmd) : Nat := fmtWidth (bitsOf (u.byte 5) 0 4) / 8

/-- Where row `i` of a DRAIN of pod `p` begins. -/
def drainRowAt (p : Nat) (u : UnitCmd) (i : Nat) : Nat := podBase p + u.le 16 4 + i * u.le 20 4

/-- Element (i, j) of a DRAIN of pod `p`. -/
def Chip.drainOut (ch : Chip) (t : PartTables) (p : Nat) (u : UnitCmd) (q : Nat × Nat) : OutElem :=
  let n := bitsOf (u.byte 4) 0 1
  drainElem t u ((ch.pod p).bank n) ((ch.pod p).bank (1 - n)) (fun off x => ch.read (podBase p + u.le off 4 + 4 * x) 4) q

/-- Row `i` of a DRAIN whose elements are whole bytes. -/
def Chip.drainRow (ch : Chip) (t : PartTables) (p : Nat) (u : UnitCmd) (i : Nat) : List Nat :=
  ((List.range (u.le 10 2)).map fun j => leBytes u.outBytes (ch.drainOut t p u (i, j)).bits).flatten

/-- Bytes written in the parts that each 64-byte line holds (R479). -/
def linewise (a : Nat) (row : List Nat) : Runs := (pieces a row.length).map fun q => (q.1, sliceB row (q.1 - a) q.2)

/-- The writes of a DRAIN whose elements are whole bytes. -/
def Chip.drainRuns (ch : Chip) (t : PartTables) (p : Nat) (u : UnitCmd) : Runs :=
  (List.range (u.le 8 2)).flatMap fun i => linewise (drainRowAt p u i) (ch.drainRow t p u i)

/-- What a DRAIN writes depends on memory and the banks alone. -/
theorem Chip.drainRuns_congr {ch a : Chip} (h : ch.KeepsBanks a) (t : PartTables) (p : Nat) (u : UnitCmd) :
    a.drainRuns t p u = ch.drainRuns t p u := by
  have hread : ∀ x n, a.read x n = ch.read x n := fun x n => by rw [Chip.read, Chip.read, h.1]
  unfold Chip.drainRuns Chip.drainRow Chip.drainOut
  simp only [h.2, hread]

theorem extent_succ (m n : Nat) : extent (m + 1) n = extent m n ++ (List.range n).map fun j => (m, j) := by
  simp [extent, List.range_succ]

/-- The positions of one row of an extent. -/
theorem extent_filter_row {m n i : Nat} (hi : i < m) : ((extent m n).filter fun q => q.1 == i) = (List.range n).map fun j => (i, j) := by
  induction m with
  | zero => omega
  | succ m ih =>
    rw [extent_succ, List.filter_append]
    by_cases him : i < m
    · have hlast : (((List.range n).map fun j => (m, j)).filter fun q => q.1 == i) = [] :=
        List.filter_eq_nil_iff.2 (List.forall_mem_map.2 fun j _ => by rw [beq_iff_eq]; omega)
      rw [ih him, hlast, List.append_nil]
    · obtain rfl : i = m := by omega
      have hfirst : ((extent i n).filter fun q => q.1 == i) = [] :=
        List.filter_eq_nil_iff.2 fun q hq => by have hrow := (mem_extent.1 hq).1; rw [beq_iff_eq]; omega
      have hall : (((List.range n).map fun j => (i, j)).filter fun q => q.1 == i) = (List.range n).map fun j => (i, j) :=
        List.filter_eq_self.2 (List.forall_mem_map.2 fun j _ => beq_self_eq_true i)
      rw [hfirst, hall, List.nil_append]

/-- A format of whole bytes has a whole number of them. -/
theorem fmtWidth_whole : ∀ f < 16, 8 ≤ fmtWidth f → fmtWidth f = 8 * (fmtWidth f / 8) := by decide

/-- Bytes that elements of whole bytes take. -/
theorem UnitCmd.elemBytes_whole {u : UnitCmd} (h8 : 8 ≤ fmtWidth (bitsOf (u.byte 5) 0 4)) (n : Nat) :
    elemBytes (bitsOf (u.byte 5) 0 4) n = u.outBytes * n := by
  have hwidth : fmtWidth (bitsOf (u.byte 5) 0 4) = 8 * u.outBytes := fmtWidth_whole _ (Nat.mod_lt _ (by decide)) h8
  rw [elemBytes, ceilDiv, hwidth, Nat.mul_left_comm, Nat.mul_comm n]
  omega

/-- What a DRAIN of whole-byte elements writes, where its vectors are good and its rows may be written: its rows in order. -/
theorem Chip.drainWrites_rows {ch : Chip} (t : PartTables) {p : Nat} {u : UnitCmd} (h8 : 8 ≤ fmtWidth (bitsOf (u.byte 5) 0 4))
    (hvecs : ∀ o ∈ drainVectors u, ch.bad (podBase p + u.le o 4) (4 * drainChannels u) = false)
    (hrows : ∀ i, i < u.le 8 2 → ch.badWrite (drainRowAt p u i) (u.outBytes * u.le 10 2) = false) :
    ∃ st, ch.drainWrites t p u = .ok (ch.drainRuns t p u, st) := by
  have hvec : (((drainVectors u).map fun o => (podBase p + u.le o 4, 4 * drainChannels u)).any fun r => ch.bad r.1 r.2) = false :=
    List.any_eq_false.2 (List.forall_mem_map.2 fun o ho => Bool.eq_false_iff.1 (hvecs o ho))
  have hrow : ((List.range (u.le 8 2)).any fun i => ch.badWrite (podBase p + u.le 16 4 + i * u.le 20 4)
      (elemBytes (bitsOf (u.byte 5) 0 4) (u.le 10 2))) = false := by
    refine List.any_eq_false.2 fun i hi => Bool.eq_false_iff.1 ?_
    rw [UnitCmd.elemBytes_whole h8]
    exact hrows i (List.mem_range.1 hi)
  have hpack : ∀ l old, packRow (bitsOf (u.byte 5) 0 4) l old = (l.map (leBytes u.outBytes)).flatten :=
    fun l old => if_neg (by rw [beq_iff_eq]; omega)
  unfold Chip.drainWrites
  simp only [hvec, hrow, hpack, Bool.false_eq_true, if_false]
  refine ⟨_, congrArg (fun l => Except.ok (l, _)) (congrArg List.flatten (List.map_congr_left fun i hi => ?_))⟩
  have hrowI := extent_filter_row (n := u.le 10 2) (List.mem_range.1 hi)
  simp only [List.filter_map, Function.comp_def, hrowI, List.map_map]
  rfl

/-! ### Memory after rows of bytes are written -/

/-- A byte that some run holds, where every run that holds it gives it one value. -/
theorem Runs.get_write_agreed {m : List Host.Cell} (h : Memory.wf m = true) {b v : Nat} {l : Runs}
    (hagree : ∀ r ∈ l, r.1 ≤ b → b < r.1 + r.2.length → r.2.getD (b - r.1) 0 = v)
    (hheld : ∃ r ∈ l, r.1 ≤ b ∧ b < r.1 + r.2.length) : Memory.get (Runs.write l m) b = BitVec.ofNat 8 v := by
  induction l generalizing m with
  | nil => obtain ⟨r, hr, -⟩ := hheld; cases hr
  | cons r l ih =>
    obtain ⟨hr, hl⟩ := List.forall_mem_cons.1 hagree
    rw [Runs.write_cons]
    by_cases hlater : ∃ q ∈ l, q.1 ≤ b ∧ b < q.1 + q.2.length
    · exact ih (Memory.write_wf h _ _) hl hlater
    · obtain ⟨q, hq, hlo, hhi⟩ := hheld
      rcases List.mem_cons.1 hq with rfl | hq
      · have hout : ∀ r ∈ l, b < r.1 ∨ r.1 + r.2.length ≤ b := fun r hr =>
          Decidable.or_iff_not_not_and_not.2 fun ⟨h1, h2⟩ => hlater ⟨r, hr, Nat.le_of_not_lt h1, Nat.lt_of_not_le h2⟩
        rw [Runs.get_write_outside (Memory.write_wf h _ _) l hout, Memory.get_write h, if_pos ⟨hlo, hhi⟩, hr hlo hhi]
      · exact absurd ⟨q, hq, hlo, hhi⟩ hlater

@[simp] theorem sliceB_length (l : List Nat) (off n : Nat) : (sliceB l off n).length = n := by
  rw [sliceB, List.length_append, List.length_replicate, List.length_take]
  omega

theorem sliceB_getD {l : List Nat} {off n i : Nat} (hi : i < n) : (sliceB l off n).getD i 0 = l.getD (off + i) 0 := by
  rw [sliceB, List.getD_eq_getElem?_getD, List.getD_eq_getElem?_getD]
  by_cases hl : i < ((l.drop off).take n).length
  · rw [List.getElem?_append_left hl, List.getElem?_take_of_lt hi, List.getElem?_drop]
  · have hpast : l.length ≤ off + i := by rw [List.length_take, List.length_drop] at hl; omega
    rw [List.getElem?_append_right (Nat.le_of_not_lt hl), List.getElem?_eq_none hpast, List.getElem?_replicate]
    split <;> rfl

/-- A piece of a range lies in it. -/
theorem piece_within {a n : Nat} {q : Nat × Nat} (hq : q ∈ pieces a n) : a ≤ q.1 ∧ q.1 + q.2 ≤ a + n := by
  obtain ⟨l, hl, rfl⟩ := List.mem_map.1 hq
  obtain ⟨hn, -, hlo, hhi⟩ := mem_linesOf.1 hl
  simp only [lineOf] at hlo hhi ⊢
  omega

/-- Each byte of a range lies in a piece. -/
theorem exists_piece {a n b : Nat} (hlo : a ≤ b) (hhi : b < a + n) : ∃ q ∈ pieces a n, q.1 ≤ b ∧ b < q.1 + q.2 := by
  have hline : lineOf b ∈ linesOf a n := mem_linesOf.2 (by simp only [lineOf]; omega)
  refine ⟨_, List.mem_map_of_mem hline, ?_⟩
  simp only [lineOf]
  omega

/-- A run of a row written line by line holds bytes of the row. -/
theorem linewise_run {a : Nat} {row : List Nat} {r : Nat × List Nat} (hr : r ∈ linewise a row) :
    a ≤ r.1 ∧ r.1 + r.2.length ≤ a + row.length ∧ ∀ b, r.1 ≤ b → b < r.1 + r.2.length → r.2.getD (b - r.1) 0 = row.getD (b - a) 0 := by
  obtain ⟨q, hq, rfl⟩ := List.mem_map.1 hr
  obtain ⟨hlo, hhi⟩ := piece_within hq
  rw [sliceB_length]
  refine ⟨hlo, hhi, fun b hb hbn => ?_⟩
  rw [sliceB_getD (by omega), show q.1 - a + (b - q.1) = b - a by omega]

/-- Each byte of a row is in one of its runs. -/
theorem exists_linewise_run {a b : Nat} {row : List Nat} (hlo : a ≤ b) (hhi : b < a + row.length) :
    ∃ r ∈ linewise a row, r.1 ≤ b ∧ b < r.1 + r.2.length := by
  obtain ⟨q, hq, hb⟩ := exists_piece hlo hhi
  exact ⟨_, List.mem_map_of_mem hq, by rwa [sliceB_length]⟩

/-- Rows a stride apart, none longer than the stride, share no byte. -/
theorem row_of_byte {base stride len i j b : Nat} (hlen : len ≤ stride) (hi : base + i * stride ≤ b ∧ b < base + i * stride + len)
    (hj : base + j * stride ≤ b ∧ b < base + j * stride + len) : i = j := by
  have hbefore : ∀ {x y : Nat}, x < y → x * stride + stride ≤ y * stride := fun {x y} h =>
    calc x * stride + stride = (x + 1) * stride := (Nat.succ_mul ..).symm
      _ ≤ y * stride := Nat.mul_le_mul_right stride h
  rcases Nat.lt_trichotomy i j with h | h | h
  · have := hbefore h; omega
  · exact h
  · have := hbefore h; omega

/-- Memory after rows a stride apart are written: the bytes of each row, and every byte outside them as it was. -/
theorem Runs.write_rows {m : List Host.Cell} (h : Memory.wf m = true) {base stride len rows : Nat} (hlen : len ≤ stride)
    {row : Nat → List Nat} (hrow : ∀ i, (row i).length = len) :
    let m' := Runs.write ((List.range rows).flatMap fun i => linewise (base + i * stride) (row i)) m
    Memory.wf m' = true ∧
    (∀ i x, i < rows → x < len → Memory.get m' (base + i * stride + x) = BitVec.ofNat 8 ((row i).getD x 0)) ∧
    ∀ b, (∀ i, i < rows → b < base + i * stride ∨ base + i * stride + len ≤ b) → Memory.get m' b = Memory.get m b := by
  refine ⟨Runs.write_wf h _, fun i x hi hx => Runs.get_write_agreed h (fun r hr hlo hhi => ?_) ?_, fun b hb => ?_⟩
  · obtain ⟨j, hj, hr⟩ := List.mem_flatMap.1 hr
    obtain ⟨hstart, hend, hbytes⟩ := linewise_run hr
    rw [hrow] at hend
    obtain rfl : i = j := row_of_byte (base := base) (b := base + i * stride + x) hlen (by omega) (by omega)
    rw [hbytes _ hlo hhi, Nat.add_sub_cancel_left]
  · obtain ⟨r, hr, hheld⟩ := exists_linewise_run (a := base + i * stride) (row := row i) (Nat.le_add_right _ x) (by rw [hrow]; omega)
    exact ⟨r, List.mem_flatMap.2 ⟨i, List.mem_range.2 hi, hr⟩, hheld⟩
  · refine Runs.get_write_outside h _ fun r hr => ?_
    obtain ⟨i, hi, hr⟩ := List.mem_flatMap.1 hr
    obtain ⟨hstart, hend, -⟩ := linewise_run hr
    have hout := hb i (List.mem_range.1 hi)
    rw [hrow] at hend
    omega

/-- What a list of lists of one length holds at a place of it. -/
theorem getD_flatten_of_length {e x : Nat} (hx : x < e) {l : List (List Nat)} (hlen : ∀ r ∈ l, r.length = e) (j : Nat) :
    l.flatten.getD (j * e + x) 0 = (l.getD j []).getD x 0 := by
  induction l generalizing j with
  | nil => rfl
  | cons r l ih =>
    obtain ⟨hr, hl⟩ := List.forall_mem_cons.1 hlen
    rw [List.flatten_cons]
    rw [List.getD_eq_getElem?_getD]
    cases j with
    | zero => rw [Nat.zero_mul, Nat.zero_add, List.getElem?_append_left (hr ▸ hx), List.getD_cons_zero, List.getD_eq_getElem?_getD]
    | succ j =>
      have hplace : (j + 1) * e + x = e + (j * e + x) := by rw [Nat.succ_mul]; omega
      rw [hplace, List.getElem?_append_right (by omega), hr, Nat.add_sub_cancel_left, ← List.getD_eq_getElem?_getD, ih hl,
        List.getD_cons_succ]

/-- How much lists of one length hold together. -/
theorem length_flatten_of_length {e : Nat} {l : List (List Nat)} (hlen : ∀ r ∈ l, r.length = e) : l.flatten.length = e * l.length := by
  induction l with
  | nil => rfl
  | cons r l ih =>
    obtain ⟨hr, hl⟩ := List.forall_mem_cons.1 hlen
    rw [List.flatten_cons, List.length_append, hr, ih hl, List.length_cons, Nat.mul_succ, Nat.add_comm]

theorem Chip.drainRow_length (ch : Chip) (t : PartTables) (p : Nat) (u : UnitCmd) (i : Nat) :
    (ch.drainRow t p u i).length = u.outBytes * u.le 10 2 := by
  rw [Chip.drainRow, length_flatten_of_length (List.forall_mem_map.2 fun _ _ => leBytes_length ..), List.length_map, List.length_range]

/-- Byte `x` of element (i, j) in its row. -/
theorem Chip.drainRow_getD (ch : Chip) (t : PartTables) (p : Nat) (u : UnitCmd) (i : Nat) {j x : Nat} (hj : j < u.le 10 2)
    (hx : x < u.outBytes) :
    (ch.drainRow t p u i).getD (j * u.outBytes + x) 0 = (leBytes u.outBytes (ch.drainOut t p u (i, j)).bits).getD x 0 := by
  rw [Chip.drainRow, getD_flatten_of_length hx (List.forall_mem_map.2 fun _ _ => leBytes_length ..)]
  simp [hj]

/-- Bytes that stand in memory one by one are read together. -/
theorem Memory.bytes_eq {m : List Host.Cell} {a : Nat} {l : List Nat} (hl : ∀ b ∈ l, b < 256)
    (h : ∀ x, x < l.length → Memory.get m (a + x) = BitVec.ofNat 8 (l.getD x 0)) : Memory.bytes m a l.length = l := by
  refine List.ext_getElem (Memory.bytes_length ..) fun i hi hil => ?_
  rw [← getD_of_lt hi 0, Memory.bytes_getD _ _ _ _ hil, h i hil, getD_of_lt hil, BitVec.toNat_ofNat,
    Nat.mod_eq_of_lt (hl _ (List.getElem_mem hil))]

theorem Chip.storeAll_mem (ch : Chip) (l : Runs) : (ch.storeAll l).mem = Runs.write l ch.mem :=
  (List.foldl_hom Chip.mem fun _ _ => rfl).symm

theorem Chip.storeAll_pods (ch : Chip) (l : Runs) : (ch.storeAll l).pods = ch.pods :=
  List.foldlRecOn (motive := fun a => Chip.pods a = ch.pods) l _ rfl fun _ ha _ _ => ha


/-- Memory after the writes of a DRAIN: each element where it belongs, and every other byte as it was (R458, R478). -/
theorem Chip.drainRuns_write (ch : Chip) (t : PartTables) (p : Nat) {u : UnitCmd} {m : List Host.Cell} (hwf : Memory.wf m = true)
    (hstride : u.outBytes * u.le 10 2 ≤ u.le 20 4) :
    let m' := Runs.write (ch.drainRuns t p u) m
    Memory.wf m' = true ∧
    (∀ i j, i < u.le 8 2 → j < u.le 10 2 →
      Memory.bytes m' (drainRowAt p u i + j * u.outBytes) u.outBytes = leBytes u.outBytes (ch.drainOut t p u (i, j)).bits) ∧
    ∀ a, (∀ i, i < u.le 8 2 → a < drainRowAt p u i ∨ drainRowAt p u i + u.outBytes * u.le 10 2 ≤ a) → Memory.get m' a = Memory.get m a := by
  obtain ⟨hwf', hin, hout⟩ := Runs.write_rows hwf (base := podBase p + u.le 16 4) (rows := u.le 8 2) hstride (ch.drainRow_length t p u)
  refine ⟨hwf', fun i j hi hj => ?_, hout⟩
  have hbytes := Memory.bytes_eq (m := Runs.write (ch.drainRuns t p u) m) (a := drainRowAt p u i + j * u.outBytes)
    (l := leBytes u.outBytes (ch.drainOut t p u (i, j)).bits) (fun _ => leBytes_lt) fun x hx => ?_
  · rwa [leBytes_length] at hbytes
  · rw [leBytes_length] at hx
    have hplace : j * u.outBytes + x < u.outBytes * u.le 10 2 :=
      calc j * u.outBytes + x < j * u.outBytes + u.outBytes := Nat.add_lt_add_left hx _
        _ = u.outBytes * (j + 1) := by rw [Nat.mul_succ, Nat.mul_comm]
        _ ≤ u.outBytes * u.le 10 2 := Nat.mul_le_mul_left _ hj
    rw [← ch.drainRow_getD t p u i hj hx, Nat.add_assoc]
    exact hin i _ hi hplace

/-- A DRAIN of whole-byte elements completes: it has performed its writes and keeps every bank (R475, R479). -/
theorem drain_result {s : State} {c p : Nat} {mac : Bool} {ch : Chip} {u : UnitCmd} (hc : s.chips[c]? = some ch) (hruns : ch.runs p mac u)
    (hop : u.op = 2) (h8 : 8 ≤ fmtWidth (bitsOf (u.byte 5) 0 4))
    (hvecs : ∀ o ∈ drainVectors u, ch.bad (podBase p + u.le o 4) (4 * drainChannels u) = false)
    (hrows : ∀ i, i < u.le 8 2 → ch.badWrite (drainRowAt p u i) (u.outBytes * u.le 10 2) = false) :
    ∃ ch', exec (.arrayCmdComplete c p mac) s = .next (s.withChip c ch') ∧
      ch'.mem = Runs.write (ch.drainRuns (ch.tablesOf u.core) p u) ch.mem ∧ ∀ n, (ch'.pod p).bank n = (ch.pod p).bank n := by
  have hqueue : ch.KeepsBanks (ch.modPod p (Pod.dequeue u)) := .modPod ch p fun _ _ => rfl
  obtain ⟨st, hwrites⟩ := Chip.drainWrites_rows (ch := ch.modPod p (Pod.dequeue u)) (ch.tablesOf u.core) h8 hvecs hrows
  rw [Chip.drainRuns_congr hqueue] at hwrites
  obtain ⟨hmem, hbank⟩ := (Chip.KeepsBanks.modPod _ p (f := fun x => { x with ostatus := st }) fun _ _ => rfl).trans (.complete _ u cOK st)
  refine ⟨_, arrayCmdComplete_drain c p mac u _ st s ch hc ⟨hruns, hop, hwrites⟩, hmem.trans (Chip.storeAll_mem ..), fun n => ?_⟩
  rw [hbank, Chip.pod, Chip.storeAll_pods]
  exact hqueue.2 p n

/-- Steps 2 to 7 all disabled on an INT32 bank: the accumulator as it stands (R475). -/
theorem drainElem_int32 {t : PartTables} {u : UnitCmd} {b other : Bank} {vec : Nat → Nat → Nat} {q : Nat × Nat}
    (hf : bitsOf (u.byte 5) 0 4 = fINT32) (hb : b.state = .int32) (hst : u.byte 12 = 0) (hgate : bitOf (u.byte 4) 1 = false)
    (hact : bitOf (u.byte 7) 7 = false) : drainElem t u b other vec q = ⟨Sparse.get b.acc (accPos q), false, false, false⟩ := by
  unfold drainElem
  simp only [hf, hb, hst, hgate, hact]
  rfl

/-! ### The statement -/

/-- Settles O15: the three commands by their effects on the bank or on memory, and an element with every step disabled. -/
theorem arrayResults : Obligations.ArrayResults := by
  unfold Obligations.ArrayResults
  refine ⟨?complete, fun t u b other vec i j hf hb hst hgate hact => drainElem_int32 hf hb hst hgate hact⟩
  case complete =>
    intro s c p mac ch u hc hgo hrun n old base rd inside ends hn
    have hruns : ch.runs p mac u := ⟨hgo, hrun⟩
    refine ⟨?mma, ?drain, ?loadAcc⟩
    case mma =>
      intro hop hwf hgood
      refine ⟨mmaRun old u rd, arrayCmdComplete_mma c p mac u s ch hc ⟨hruns, hop, hgood⟩, rfl, ?_, fun q => mmaRun_get rd hwf hn q⟩
      rw [mmaRun_acc]
      exact Sparse.fill_wf hwf _ _
    case drain =>
      intro hop hwf h8 hstride e dst hvecs hrows
      rw [UnitCmd.elemBytes_whole h8] at hstride
      have hfirst : ∀ i, dst i 0 = drainRowAt p u i := fun i => by simp only [dst, base, drainRowAt, Nat.zero_mul, Nat.add_zero]
      simp only [hfirst] at hrows ⊢
      obtain ⟨ch', hexec, hmem, hbank⟩ := drain_result hc hruns hop h8 hvecs hrows
      obtain ⟨hwf', helems, hframe⟩ := ch.drainRuns_write (ch.tablesOf u.core) p hwf hstride
      refine ⟨ch', hexec, hbank 0, hbank 1, ?_⟩
      rw [hmem]
      exact ⟨hwf', helems, hframe⟩
    case loadAcc =>
      intro hop hgood
      exact ⟨loadRun u rd, arrayCmdComplete_loadAcc c p mac u s ch hc ⟨hruns, hop, hgood⟩, rfl, loadRun_state u rd, loadRun_get rd hn⟩

end Sys2Proof.Machine

/-! SUPPORT. What a row command leaves of the cores: its accesses to memory, and its completion (R342, R511, R523, R566). -/
namespace Sys2Proof.Machine

/-! ### What the accesses of a row command leave of the cores (R511, R523) -/

/-- A read of host memory raises HOST_MEM_ERROR, or does nothing more. The function is unfolded before it has its arguments: applied to them,
its match would be evaluated by the kernel, which would count up to the bounds of the address map. -/
theorem Chip.hostFault_cases (ch : Chip) (p a code : Nat) :
    ch.hostFault p a code = ch ∨ ∃ fn o, ch.hostFault p a code = ch.hostMemError fn o code := by
  generalize hf : @Chip.hostFault = f
  delta Chip.hostFault at hf
  subst hf
  dsimp only
  generalize ch.reach p a 1 = reached
  split
  · split
    · exact .inl rfl
    · exact .inr ⟨_, _, rfl⟩
  · exact .inl rfl

/-- The accepted row commands of a core and its ROW_STATUS. -/
def Core.rows (x : Core) : List UnitCmd × Nat := (x.rowq, x.rowStatus)

/-- Every core stays, with its accepted row commands and its ROW_STATUS. -/
def Chip.KeepsRows (ch ch' : Chip) : Prop := ch'.cores.map Core.rows = ch.cores.map Core.rows

namespace Chip.KeepsRows

variable {ch a b : Chip}

theorem refl (ch : Chip) : ch.KeepsRows ch := rfl

theorem trans (hab : ch.KeepsRows a) (hbc : a.KeepsRows b) : ch.KeepsRows b := Eq.trans hbc hab

theorem of_cores (h : a.cores = ch.cores) : ch.KeepsRows a := congrArg (List.map Core.rows) h

theorem length (h : ch.KeepsRows a) : a.cores.length = ch.cores.length := by
  rw [← List.length_map Core.rows, h, List.length_map]

theorem core (h : ch.KeepsRows a) (k : Nat) : (a.core k).rows = (ch.core k).rows := by
  have hmap : ∀ c : Chip, (c.core k).rows = (c.cores.map Core.rows).getD k (({} : Core).rows) := fun c => by
    rw [Chip.core, List.getD_eq_getElem?_getD, List.getD_eq_getElem?_getD, List.getElem?_map, Option.getD_map]
  rw [hmap, hmap, h]

/-- A change of one core that keeps what it holds of row commands. -/
theorem modCore (ch : Chip) (k : Nat) {f : Core → Core} (hf : (f (ch.core k)).rows = (ch.core k).rows) : ch.KeepsRows (ch.modCore k f) := by
  refine List.ext_getElem? fun j => ?_
  rw [Chip.modCore, List.getElem?_map, List.getElem?_map, List.getElem?_modify]
  split
  · rename_i hkj
    subst hkj
    cases hc : ch.cores[k]? with
    | none => rfl
    | some c =>
      rw [Chip.core, List.getD_eq_getElem?_getD, hc] at hf
      exact congrArg some hf
  · rw [id_map']

theorem forEach {f : Nat → Chip → Chip} (hf : ∀ i (a : Chip), a.KeepsRows (f i a)) (l : List Nat) (ch : Chip) :
    ch.KeepsRows (ch.forEach l f) :=
  List.foldlRecOn (motive := fun a => ch.KeepsRows a) l _ (refl ch) fun _ ha i _ => ha.trans (hf i _)

theorem ev (ch : Chip) (id cls agent part code arg0 arg1 level : Nat) : ch.KeepsRows (ch.ev id cls agent part code arg0 arg1 level) := by
  obtain ⟨r, p, o, h⟩ := ch.event_cases
    { cls := cls, id := id, agent := agent, part := part, code := code, level := level, arg0 := arg0, arg1 := arg1 }
  rw [Chip.ev, h]
  exact refl ch

/-! The accesses of a unit. -/

theorem violate (ch : Chip) (agent part kind code at' detail : Nat) (faults : Bool) :
    ch.KeepsRows (ch.violate agent part kind code at' detail faults) := by
  unfold Chip.violate
  extract_lets tick addr r total ch1 same v ch2
  have hlog : ch.KeepsRows ch2 := of_cores rfl
  split
  · exact of_cores rfl
  · split
    · exact hlog
    · exact hlog.trans (ev ..)

theorem refuseCmd (ch : Chip) (u : UnitCmd) (code addr : Nat) (isRead : Bool) : ch.KeepsRows (ch.refuseCmd u code addr isRead) := by
  unfold Chip.refuseCmd Chip.violateIf
  split
  · exact violate ..
  · exact refl ch

theorem pay (ch : Chip) (p : Nat) (pl : Place) (write : Bool) (a n : Nat) : ch.KeepsRows (ch.pay p pl write a n) := of_cores (ch.pay_cores ..)

theorem hostMemError (ch : Chip) (fn a code : Nat) : ch.KeepsRows (ch.hostMemError fn a code) := by
  unfold Chip.hostMemError
  exact ev ..

theorem fetchPiece (ch : Chip) (p : Nat) (far : FarAns) (a n : Nat) : ch.KeepsRows (ch.fetchPiece p far a n).1 := by
  unfold Chip.fetchPiece
  split
  · exact refl ch
  · exact refl ch
  · rename_i pl _ _
    have hpay := pay ch p pl false a n
    dsimp only
    split
    · split
      · exact hpay
      · exact hpay.trans (of_cores (Chip.countSoft_keeps ..).2)
    · split
      · dsimp only
        split <;> exact hpay
      · dsimp only
        split
        · split <;> exact hpay
        · exact hpay
      · exact hpay

theorem hostFault (ch : Chip) (p a code : Nat) : ch.KeepsRows (ch.hostFault p a code) := by
  rcases ch.hostFault_cases p a code with h | ⟨fn, o, h⟩ <;> rw [h]
  · exact refl ch
  · exact hostMemError ..

theorem readPiece (ch : Chip) (p : Nat) (far : FarAns) (a n : Nat) : ch.KeepsRows (ch.readPiece p far a n).1 :=
  (fetchPiece ch p far a n).trans (hostFault ..)

theorem restore (ch : Chip) (k n : Nat) : ch.KeepsRows (ch.restore k n) := modCore ch k rfl

theorem doom (ch : Chip) (k n : Nat) : ch.KeepsRows (ch.doom k n) := by
  unfold Chip.doom
  exact (forEach (fun i a => (restore a k i).trans (modCore _ k rfl)) _ ch).trans (ev ..)

theorem plainStore (ch : Chip) (a : Nat) (bytes : List Nat) : ch.KeepsRows (ch.plainStore a bytes) := by
  unfold Chip.plainStore
  split
  · exact doom ..
  · exact refl ch

theorem writePiece (ch : Chip) (p : Nat) (far : FarAns) (a : Nat) (bytes : List Nat) : ch.KeepsRows (ch.writePiece p far a bytes).1 := by
  unfold Chip.writePiece
  dsimp only
  split
  · exact refl ch
  · exact refl ch
  · rename_i pl _ _
    have hpay := pay ch p pl true a bytes.length
    split
    · split
      · exact hpay.trans (plainStore ..)
      · exact hpay
    · split
      · split
        · dsimp only
          split
          · exact hpay
          · exact hpay.trans (hostMemError ..)
        · exact hpay.trans (hostMemError ..)
      · split
        · dsimp only
          split <;> exact hpay
        · exact hpay
      · exact hpay

theorem ureadFor (ch : Chip) (u : UnitCmd) (p : Nat) (far : FarAns) (a n : Nat) : ch.KeepsRows (ch.ureadFor u p far a n).1 := by
  have hread : ch.KeepsRows (ch.uread p far a n).1 :=
    List.foldlRecOn (motive := fun (x : Chip × Nat × List Nat) => ch.KeepsRows x.1) (pieces a n) _ (refl ch) fun x hx q _ => by
      dsimp only
      split
      · exact hx
      · exact hx.trans (readPiece ..)
  unfold Chip.ureadFor
  dsimp only
  split
  · exact hread
  · exact hread.trans (refuseCmd ..)

theorem uwriteFor (ch : Chip) (u : UnitCmd) (p : Nat) (far : FarAns) (a : Nat) (bytes : List Nat) :
    ch.KeepsRows (ch.uwriteFor u p far a bytes).1 :=
  List.foldlRecOn (motive := fun (x : Chip × Nat) => ch.KeepsRows x.1) (pieces a bytes.length) _ (refl ch) fun x hx q _ => by
    have hpiece := hx.trans (writePiece x.1 p far q.1 ((bytes.drop (q.1 - a)).take q.2))
    dsimp only
    split
    · exact hx
    · split
      · exact hpiece
      · exact hpiece.trans (refuseCmd ..)

/-! The rows of a command. -/

theorem rowOutput (ch : Chip) (u : UnitCmd) (p : Nat) (far : FarAns) (x : RowCmd) (r : Nat) : ch.KeepsRows (ch.rowOutput u p far x r).1 := by
  unfold Chip.rowOutput
  extract_lets src auxs
  clear_value auxs
  dsimp only
  split <;>
    · refine List.foldlRecOn (motive := fun (b : Chip × Nat × List (List Nat)) => ch.KeepsRows b.1) auxs _ ?_ fun b hb q _ => ?_
      · exact ureadFor ..
      · split
        · exact hb
        · exact hb.trans (ureadFor ..)

theorem rowRun (ch : Chip) (u : UnitCmd) (p : Nat) (far : FarAns) (x : RowCmd) (r : Nat) : ch.KeepsRows (ch.rowRun u p far x r).1 := by
  have hout := rowOutput ch u p far x r
  unfold Chip.rowRun
  dsimp only
  split
  · exact hout
  · exact hout.trans (uwriteFor ..)

/-- The rows of a command, as many as are run. -/
theorem rowsRun (u : UnitCmd) (p : Nat) (far : FarAns) (x : RowCmd) (m r : Nat) (ch : Chip) (st : Nat) :
    ch.KeepsRows (Chip.rowsRun u p far x m r ch st).1 := by
  induction m generalizing r ch st with
  | zero => exact refl ch
  | succ m ih =>
    have hrow := rowRun ch u p far x r
    unfold Chip.rowsRun
    dsimp only
    split
    · exact hrow.trans (ih ..)
    · exact hrow

end Chip.KeepsRows

/-! ### What a completion leaves (R342, R562) -/

/-- Every core keeps its row commands, and every partition its counts of the bytes that it has moved. -/
structure Chip.KeepsWork (ch ch' : Chip) : Prop where
  rows : ch.KeepsRows ch'
  moved : ∀ p b, (ch'.part p).tel.moved b = (ch.part p).tel.moved b

namespace Chip.KeepsWork

variable {ch a b : Chip}

theorem refl (ch : Chip) : ch.KeepsWork ch := ⟨.refl ch, fun _ _ => rfl⟩

theorem trans (hab : ch.KeepsWork a) (hbc : a.KeepsWork b) : ch.KeepsWork b :=
  ⟨hab.rows.trans hbc.rows, fun p i => (hbc.moved p i).trans (hab.moved p i)⟩

theorem modCore (ch : Chip) (k : Nat) {f : Core → Core} (hf : (f (ch.core k)).rows = (ch.core k).rows) : ch.KeepsWork (ch.modCore k f) :=
  ⟨.modCore ch k hf, fun _ _ => rfl⟩

theorem forEach {f : Nat → Chip → Chip} (hf : ∀ i (a : Chip), a.KeepsWork (f i a)) (l : List Nat) (ch : Chip) :
    ch.KeepsWork (ch.forEach l f) :=
  List.foldlRecOn (motive := fun a => ch.KeepsWork a) l _ (refl ch) fun _ ha i _ => ha.trans (hf i _)

theorem modCtx (ch : Chip) (p x : Nat) (f : SeCtx → SeCtx) : ch.KeepsWork (ch.modCtx p x f) := ⟨.refl ch, fun _ _ => rfl⟩

/-- An event counts in its partition, and moves nothing. -/
theorem ev (ch : Chip) (id cls agent part code arg0 arg1 level : Nat) : ch.KeepsWork (ch.ev id cls agent part code arg0 arg1 level) := by
  refine ⟨.ev .., fun p b => ?_⟩
  unfold Chip.ev Chip.event
  dsimp only
  obtain ⟨r, o, h⟩ := ch.lerWork_cases (ch.ler.raise
    { cls := cls, id := id, agent := agent, part := part, code := code, level := level, arg0 := arg0, arg1 := arg1,
      time := ch.time, tick := ch.tickOf part })
  rw [h, Chip.modPart_part]
  split
  · rename_i hp
    rw [hp.1]
    unfold TickRec.moved
    split <;> rfl
  · rfl

theorem debugHalt (ch : Chip) (k reason index : Nat) : ch.KeepsWork (ch.debugHalt k reason index) := by
  unfold Chip.debugHalt
  dsimp only
  split
  · exact .refl ch
  · exact (modCore ch k (by rfl)).trans (ev ..)

theorem haltCore (ch : Chip) (k reason index : Nat) : ch.KeepsWork (ch.haltCore k reason index) := by
  have hhalt := debugHalt ch k reason index
  unfold Chip.haltCore
  dsimp only
  split
  · exact hhalt.trans (forEach (fun j a => debugHalt a j 2 0) _ _)
  · exact hhalt

theorem retire (ch : Chip) (k : Nat) : ch.KeepsWork (ch.retire k) := by
  unfold Chip.retire Chip.retireTo
  dsimp only
  split
  · exact (modCore ch k (by rfl)).trans (haltCore ..)
  · exact modCore ch k (by rfl)

/-- A core that takes a completion it waits for. -/
theorem take (ch : Chip) (k rd : Nat) {f : Completion → Bool} {x : Completion} {c : Core} (h : (ch.core k).pop f = some (x, c)) :
    ch.KeepsWork ((ch.modCore k fun _ => c.setS rd x.word).retire k) := by
  have hc : c.rows = (ch.core k).rows := by
    unfold Core.pop at h
    split at h <;> cases h
    rfl
  refine (modCore ch k ?_).trans (retire ..)
  rw [← hc, Core.rows, Core.setS_rowq, Core.setS_rowStatus, Core.rows]

theorem settle (ch : Chip) (k : Nat) : ch.KeepsWork (ch.settle k) := by
  unfold Chip.settle
  dsimp only
  split
  · exact .refl ch
  · split
    · split
      · exact take ch k _ ‹_›
      · exact .refl ch
    · split
      · exact take ch k _ ‹_›
      · exact .refl ch
    · exact .refl ch

theorem completeCore (ch : Chip) (u : UnitCmd) (code value : Nat) : ch.KeepsWork (ch.completeCore u code value) := by
  unfold Chip.completeCore
  dsimp only
  split
  · exact modCore ch u.core (by rfl)
  · split
    · exact modCore ch u.core (by rfl)
    · exact (modCore ch u.core (by rfl)).trans (settle ..)

theorem chainDone (ch : Chip) (p x id stage code : Nat) : ch.KeepsWork (ch.chainDone p x id stage code) := by
  unfold Chip.chainDone
  split
  · dsimp only
    split
    · exact .refl ch
    · split
      · exact (modCtx ch p x _).trans (completeCore ..)
      · exact modCtx ch p x _
  · exact .refl ch

/-- A command that completes, to its core or to its chain, leaves the row commands that are accepted, and moves nothing. -/
theorem complete (ch : Chip) (u : UnitCmd) (code value : Nat) : ch.KeepsWork (ch.complete u code value) := by
  unfold Chip.complete
  split
  · exact completeCore ..
  · exact chainDone ..

end Chip.KeepsWork

/-! ### The oldest row command completes (R511, R523, R566) -/

/-- A transfer whose last line has tokens leaves its chip, but for the buckets of its partition and what `keep` notes. -/
theorem Chip.paced_affords {ch after : Chip} {p : Nat} {paid : List Nat} (h : ch.affords p paid after = true) (keep : List Nat → Chip → Chip) :
    ∃ l f, ch.paced p paid keep after = keep l (after.modPart p f) := by
  rw [Chip.paced, if_pos h]
  exact ⟨_, _, rfl⟩

/-- What a transfer costs depends on the bytes that its chip has moved alone. -/
theorem Chip.affords_congr (ch : Chip) {a b : Chip} (p : Nat) (paid : List Nat) (h : ∀ i, (b.part p).tel.moved i = (a.part p).tel.moved i) :
    ch.affords p paid b = ch.affords p paid a := by
  simp only [Chip.affords, Chip.linesTo, h]

/-- A row command that has run leaves its core the commands after it and its status word; it moves nothing and writes nothing. -/
theorem Chip.rowEnd_result {ch : Chip} {k : Nat} (hk : k < ch.cores.length) (u : UnitCmd) (rest : List UnitCmd) (st code : Nat) :
    let ch' := ch.rowEnd k u rest st code
    (ch'.core k).rows = (rest, if reports u (RowCmd.of u).report then st else 0) ∧ ch'.cores.length = ch.cores.length ∧ ch'.mem = ch.mem ∧
      ∀ p i, (ch'.part p).tel.moved i = (ch.part p).tel.moved i := by
  obtain ⟨hrows, hmoved⟩ := KeepsWork.complete (ch.modCore k fun y =>
    { y with rowq := rest, rowPaid := [], rowStatus := if reports u (RowCmd.of u).report then st else 0 }) u code
    (if reports u (RowCmd.of u).report then st else 0)
  refine ⟨?_, ?_, (KeepsBanks.complete ..).1, hmoved⟩
  · exact (hrows.core k).trans (by rw [Chip.core_modCore_self hk, Core.rows])
  · exact hrows.length.trans (Chip.modCore_cores_length ..)

/-- The oldest row command of core `k`, while the units of its partition work: it waits for its tokens, or completes. -/
theorem rowCmdComplete_eq {s : State} {c k : Nat} {ch : Chip} {u : UnitCmd} {rest : List UnitCmd} (hc : s.chips[c]? = some ch)
    (hq : (ch.core k).rowq = u :: rest) (hgo : ch.unitsGo (ch.partNo k) = true) (far : FarAns) :
    let r := Chip.rowsRun u (ch.partNo k) far (RowCmd.of u) (RowCmd.of u).rows 0 ch 0
    exec (.rowCmdComplete c k far) s = .next (s.withChip c (ch.paced (ch.partNo k) (ch.core k).rowPaid
      (fun l b => b.modCore k fun y => { y with rowPaid := l }) (r.1.rowEnd k u rest r.2.1 r.2.2))) := by
  change unitOn c _ _ s = _
  rw [unitOn_eq hc, if_pos hgo]
  simp only [hq]

/-- It has its tokens: the rows have been run, and its core has its status word and the commands after it. -/
theorem rowCmdComplete_affords {s : State} {c k : Nat} {ch : Chip} {u : UnitCmd} {rest : List UnitCmd} (hc : s.chips[c]? = some ch)
    (hq : (ch.core k).rowq = u :: rest) (hgo : ch.unitsGo (ch.partNo k) = true) (far : FarAns) (hk : k < ch.cores.length) :
    let r := Chip.rowsRun u (ch.partNo k) far (RowCmd.of u) (RowCmd.of u).rows 0 ch 0
    ch.affords (ch.partNo k) (ch.core k).rowPaid r.1 = true →
      ∃ ch', exec (.rowCmdComplete c k far) s = .next (s.withChip c ch') ∧
        (ch'.core k).rows = (rest, if reports u (RowCmd.of u).report then r.2.1 else 0) ∧ ch'.mem = r.1.mem := by
  intro r hpaid
  have hlen : r.1.cores.length = ch.cores.length := (Chip.KeepsRows.rowsRun ..).length
  obtain ⟨hrows, hcores, hmem, hmoved⟩ := r.1.rowEnd_result (hlen ▸ hk) u rest r.2.1 r.2.2
  rw [← ch.affords_congr (ch.partNo k) _ (hmoved _)] at hpaid
  obtain ⟨l, f, hpaced⟩ := Chip.paced_affords hpaid fun l b => b.modCore k fun y => { y with rowPaid := l }
  refine ⟨_, rowCmdComplete_eq hc hq hgo far, ?_⟩
  rw [hpaced]
  refine ⟨?_, hmem⟩
  rw [Chip.core_modCore_self (by rwa [Chip.modPart_cores, hcores, hlen])]
  exact hrows

end Sys2Proof.Machine

/-! SUPPORT. FP32 values that round to themselves, and the built-in functions at the arguments for which the rules state a value
(R246, R265, R489 to R497). -/
namespace Sys2Proof.Machine

/-! ### FP32 values by the fields of their bits (R246) -/

/-- An FP32 value by its exponent field, its fraction and its sign. -/
theorem f32_eq (x : Nat) : f32 x =
    if bitsOf x 23 8 = 255 then (if x % 2 ^ 23 = 0 then .inf (bitOf x 31) else .nan (decide (x % 2 ^ 23 < 2 ^ 22)))
    else if bitsOf x 23 8 = 0 then .fin (bitOf x 31) (x % 2 ^ 23) (-149)
    else .fin (bitOf x 31) (x % 2 ^ 23 + 2 ^ 23) (bitsOf x 23 8 - 150) := by
  have hinfo : fmtInfo fFP32 = ⟨24, 8, 127, 32⟩ := rfl
  have hint : fmtIsInt fFP32 = false := rfl
  have hscale : (fFP32 == fE8M0) = false := rfl
  have hnarrow : (fFP32 == fE4M3) = false ∧ (fFP32 != fE4M3) = true ∧ (fFP32 != fE2M1) = true := ⟨rfl, rfl, rfl⟩
  have hemin : FmtInfo.emin ⟨24, 8, 127, 32⟩ - ((24 - 1 : Nat) : Int) = -149 := rfl
  have hwide : decide (32 > 8) = true := rfl
  have hexp : ((bitsOf x 23 8 : Nat) : Int) - 127 - 23 = bitsOf x 23 8 - 150 := by omega
  unfold f32 decodeFl
  simp only [hinfo, hint, hscale, hnarrow, hemin, hwide, Bool.false_and, Bool.true_and, Bool.and_true, Bool.false_eq_true, if_false, beq_iff_eq]
  rw [← hexp]
  rfl

theorem isNan32_iff {x : Nat} : isNan32 x = true ↔ ∃ s, f32 x = .nan s := by
  unfold isNan32
  split <;> simp_all

/-- An exponent field that is not all ones is a finite value. -/
theorem f32_finite {x : Nat} (h : bitsOf x 23 8 ≠ 255) : ∃ n m e, f32 x = .fin n m e := by
  rw [f32_eq, if_neg h]
  split <;> exact ⟨_, _, _, rfl⟩

/-- The range of a finite value: a significand of 24 bits, and the least and the greatest exponent. -/
theorem f32_bounds {x m : Nat} {n : Bool} {e : Int} (h : f32 x = .fin n m e) : m < 2 ^ 24 ∧ -149 ≤ e ∧ expo m e ≤ 127 := by
  have hfield : bitsOf x 23 8 < 256 := Nat.mod_lt _ (by decide)
  have hfrac : x % 2 ^ 23 < 2 ^ 23 := Nat.mod_lt _ (by decide)
  have hlog : m < 2 ^ 24 → Nat.log2 m < 24 := fun hm => by
    rcases Nat.eq_zero_or_pos m with rfl | hpos
    · decide
    · exact (Nat.log2_lt (Nat.ne_of_gt hpos)).2 hm
  rw [f32_eq] at h
  split at h
  · split at h <;> cases h
  · split at h <;> cases h
    · have := hlog (by omega)
      exact ⟨by omega, by omega, by unfold expo; omega⟩
    · have := hlog (by omega)
      exact ⟨by omega, by omega, by unfold expo; omega⟩

/-- A negative value that is no NaN and no zero. -/
theorem f32_negative {x : Nat} (hx : x < 2 ^ 32) (hneg : 0x80000000 < x) (hnan : isNan32 x = false) :
    f32 x = .inf true ∨ ∃ m e, f32 x = .fin true m e ∧ m ≠ 0 := by
  have hsign : bitOf x 31 = true := by
    rw [bitOf, Nat.testBit_eq_decide_div_mod_eq, decide_eq_true_eq]
    omega
  have hfields : bitsOf x 23 8 = x / 2 ^ 23 % 2 ^ 8 := by rw [bitsOf, Nat.shiftRight_eq_div_pow]
  have hx' := f32_eq x
  rw [hsign] at hx'
  split at hx'
  · split at hx'
    · exact .inl hx'
    · rw [isNan32_iff.2 ⟨_, hx'⟩] at hnan
      cases hnan
  · right
    split at hx'
    · exact ⟨_, _, hx', by omega⟩
    · exact ⟨_, _, hx', by omega⟩

/-! ### Rounding of a value that FP32 holds (R265) -/

theorem log2_mul_two_pow {m : Nat} (hm : m ≠ 0) (j : Nat) : Nat.log2 (m * 2 ^ j) = Nat.log2 m + j := by
  induction j with
  | zero => rw [Nat.pow_zero, Nat.mul_one, Nat.add_zero]
  | succ j ih =>
    have hpos : m * 2 ^ j ≠ 0 := Nat.mul_ne_zero hm (Nat.ne_of_gt (Nat.two_pow_pos j))
    rw [Nat.pow_succ', Nat.mul_left_comm, Nat.log2_two_mul hpos, ih, Nat.add_assoc]

/-- The exponent of a value, its significand written with `j` more zeros. -/
theorem expo_scaled {m : Nat} (hm : m ≠ 0) (e : Int) (j : Nat) : expo (m * 2 ^ j) (e - j) = expo m e := by
  rw [expo, expo, log2_mul_two_pow hm]
  omega

/-- A division by a power of 2 that leaves no remainder. -/
theorem roundShift_exact (mode : Nat) (neg : Bool) (m : Nat) {i j : Nat} (h : i ≤ j) :
    roundShift mode neg (m * 2 ^ j) i = (m * 2 ^ (j - i), false) := by
  have hsplit : m * 2 ^ j = m * 2 ^ (j - i) * 2 ^ i := by rw [Nat.mul_assoc, ← Nat.pow_add, Nat.sub_add_cancel h]
  rw [roundShift, hsplit, Nat.mul_mod_left, Nat.shiftRight_eq_div_pow, Nat.mul_div_cancel _ (Nat.two_pow_pos i)]
  rfl

/-- The exponent of the last place of an FP32 value of exponent `k`. -/
def ulp32 (k : Int) : Int := max (k - 23) (-149)

/-- FP32 has the place of the last bit of a value of 24 bits. -/
theorem ulp32_le {m : Nat} {e : Int} (hm : m ≠ 0) (h24 : m < 2 ^ 24) (he : -149 ≤ e) : ulp32 (expo m e) ≤ e := by
  have hlog : Nat.log2 m < 24 := (Nat.log2_lt hm).2 h24
  unfold ulp32 expo
  omega

/-- The significand of a value in units of its last place. -/
def sig32 (m : Nat) (e : Int) : Nat := m * 2 ^ (e - ulp32 (expo m e)).toNat

/-- Rounding to FP32 leaves a value that it holds, however many zeros its significand is written with. -/
theorem roundAt_exact (mode : Nat) (neg : Bool) {m : Nat} {e : Int} (hm : m ≠ 0) (hulp : ulp32 (expo m e) ≤ e) (j : Nat) :
    roundAt mode neg 24 (some (-149)) (m * 2 ^ j) (e - j) = (sig32 m e, ulp32 (expo m e), false) := by
  have hq : max (expo m e - ((24 : Nat) - 1 : Int)) (-149) = ulp32 (expo m e) := rfl
  unfold roundAt sig32
  dsimp only
  rw [expo_scaled hm, hq]
  generalize ulp32 (expo m e) = q at hulp
  split
  · have hzeros : (e - q).toNat = j + (e - j - q).toNat := by omega
    rw [hzeros, Nat.pow_add, Nat.mul_assoc]
  · have hzeros : (e - q).toNat = j - (q - (e - j)).toNat := by omega
    rw [hzeros, roundShift_exact mode neg m (by omega)]

/-- The bits of a value that FP32 holds. -/
theorem packFl32_eq (neg : Bool) {m : Nat} {e : Int} (hm : m ≠ 0) (hulp : ulp32 (expo m e) ≤ e) :
    packFl fFP32 neg m e = b2n neg * 2 ^ 31 +
      if expo m e < -126 then sig32 m e else (expo m e + 127).toNat * 2 ^ 23 + (sig32 m e - 2 ^ 23) := by
  have hinfo : fmtInfo fFP32 = ⟨24, 8, 127, 32⟩ := rfl
  have hemin : FmtInfo.emin ⟨24, 8, 127, 32⟩ = -126 := rfl
  have hzero : (m == 0) = false := beq_false_of_ne hm
  unfold packFl
  simp only [hinfo, hemin, hzero, Bool.false_eq_true, if_false]
  unfold sig32
  generalize hk : expo m e = k at hulp ⊢
  split
  · have hplace : ulp32 k = -149 := by unfold ulp32; omega
    rw [hplace] at hulp ⊢
    rw [if_pos (by omega)]
    rfl
  · have hplace : ulp32 k = k - 23 := by unfold ulp32; omega
    rw [hplace] at hulp ⊢
    rw [if_pos (by omega), Nat.add_assoc]
    rfl

/-- The same value with its significand in units of its last place. -/
theorem expo_sig32 {m : Nat} {e : Int} (hm : m ≠ 0) (hulp : ulp32 (expo m e) ≤ e) : expo (sig32 m e) (ulp32 (expo m e)) = expo m e := by
  have hplace := expo_scaled hm e (e - ulp32 (expo m e)).toNat
  rwa [show e - (e - ulp32 (expo m e)).toNat = ulp32 (expo m e) by omega] at hplace

theorem packFl32_sig32 (neg : Bool) {m : Nat} {e : Int} (hm : m ≠ 0) (hulp : ulp32 (expo m e) ≤ e) :
    packFl fFP32 neg (sig32 m e) (ulp32 (expo m e)) = packFl fFP32 neg m e := by
  have hexpo := expo_sig32 hm hulp
  have hsig : sig32 (sig32 m e) (ulp32 (expo m e)) = sig32 m e := by
    rw [sig32, hexpo, Int.sub_self]
    exact Nat.mul_one _
  have hpos : sig32 m e ≠ 0 := Nat.mul_ne_zero hm (Nat.ne_of_gt (Nat.two_pow_pos _))
  rw [packFl32_eq neg hpos (Int.le_of_eq (congrArg ulp32 hexpo)), packFl32_eq neg hm hulp, hexpo, hsig]

/-- The significand in units of the last place is below each power of 2 that the exponent says. -/
theorem sig32_lt {m : Nat} {e : Int} (hm : m ≠ 0) (hulp : ulp32 (expo m e) ≤ e) {p : Nat} (hp : expo m e - ulp32 (expo m e) < p) :
    sig32 m e < 2 ^ p := by
  have hpos : sig32 m e ≠ 0 := Nat.mul_ne_zero hm (Nat.ne_of_gt (Nat.two_pow_pos _))
  have hlog : (Nat.log2 (sig32 m e) : Int) + ulp32 (expo m e) = expo m e := expo_sig32 hm hulp
  exact (Nat.log2_lt hpos).1 (by omega)

theorem ulp32_bounds (k : Int) : k - ulp32 k < 24 ∧ (k < -126 → k - ulp32 k < 23) ∧ (k ≤ 127 → ulp32 k ≤ 104) := by
  unfold ulp32
  omega

/-- A value of exponent 127 or less is not beyond the largest FP32 value. -/
theorem cmpMag_max32 {m : Nat} {e : Int} (hm : m ≠ 0) (hulp : ulp32 (expo m e) ≤ e) (hmax : expo m e ≤ 127) :
    (cmpMag (sig32 m e) (ulp32 (expo m e)) (2 ^ 24 - 1) 104 == .gt) = false := by
  obtain ⟨hplaces, -, htop⟩ := ulp32_bounds (expo m e)
  have hsig : sig32 m e ≤ 2 ^ 24 - 1 := Nat.le_sub_one_of_lt (sig32_lt hm hulp hplaces)
  have htop := htop hmax
  unfold cmpMag
  refine beq_false_of_ne ?_
  dsimp only
  split
  · have hshift : (ulp32 (expo m e) - 104).toNat = 0 := by omega
    rw [hshift, Nat.pow_zero, Nat.mul_one]
    exact Nat.compare_ne_gt.2 hsig
  · exact Nat.compare_ne_gt.2 (Nat.le_trans hsig (Nat.le_mul_of_pos_right _ (Nat.two_pow_pos _)))

/-- Rounding to FP32 leaves a value that it holds, and raises no flag. -/
theorem roundFl32_exact (mode : Nat) (sat neg : Bool) {m : Nat} {e : Int} (h24 : m < 2 ^ 24) (he : -149 ≤ e) (hmax : expo m e ≤ 127) (j : Nat) :
    roundFl fFP32 mode sat neg (m * 2 ^ j) (e - j) = (packFl fFP32 neg m e, 0) := by
  have hinfo : fmtInfo fFP32 = ⟨24, 8, 127, 32⟩ := rfl
  rcases Nat.eq_zero_or_pos m with rfl | hpos
  · simp [roundFl, packFl]
  have hm : m ≠ 0 := Nat.ne_of_gt hpos
  have hulp := ulp32_le hm h24 he
  have hround := roundAt_exact mode neg hm hulp j
  have hscaled : (m * 2 ^ j == 0) = false := beq_false_of_ne (Nat.mul_ne_zero hm (Nat.ne_of_gt (Nat.two_pow_pos j)))
  have hlo : some (FmtInfo.emin ⟨24, 8, 127, 32⟩ - (((24 : Nat) : Int) - 1)) = some (-149) := rfl
  have hmm : fmtMax fFP32 = (2 ^ 24 - 1, 104) := rfl
  unfold roundFl
  simp only [hinfo, hscaled, hlo, hround, hmm, cmpMag_max32 hm hulp hmax, Bool.and_false, Bool.false_eq_true, if_false, packFl32_sig32 neg hm hulp]

/-- The bits of a value that FP32 holds are those of a finite value. -/
theorem f32_packFl32 (neg : Bool) {m : Nat} {e : Int} (h24 : m < 2 ^ 24) (he : -149 ≤ e) (hmax : expo m e ≤ 127) :
    ∃ n' m' e', f32 (packFl fFP32 neg m e) = .fin n' m' e' := by
  refine f32_finite ?_
  have hsign : b2n neg < 2 := by cases neg <;> decide
  rw [bitsOf, Nat.shiftRight_eq_div_pow]
  rcases Nat.eq_zero_or_pos m with rfl | hpos
  · have hpack : packFl fFP32 neg 0 e = b2n neg * 2 ^ 31 := by simp [packFl, fmtInfo]
    rw [hpack]
    omega
  have hm : m ≠ 0 := Nat.ne_of_gt hpos
  have hulp := ulp32_le hm h24 he
  obtain ⟨hnormal, hsub, -⟩ := ulp32_bounds (expo m e)
  rw [packFl32_eq neg hm hulp]
  split
  · have hsig : sig32 m e < 2 ^ 23 := sig32_lt hm hulp (hsub ‹_›)
    omega
  · have hsig : sig32 m e < 2 ^ 24 := sig32_lt hm hulp hnormal
    omega

/-! ### A product with +0 does not count in a sum (R261) -/

/-- A number of units that is not 0 tells its sign and its magnitude. -/
theorem flUnits_of_pos (n : Bool) {a : Nat} (h : 0 < a) : flUnits n a ≠ 0 ∧ decide (flUnits n a < 0) = n ∧ (flUnits n a).natAbs = a := by
  cases n <;> simp only [flUnits, if_true, Bool.false_eq_true, if_false, decide_eq_true_eq, decide_eq_false_iff_not] <;> omega

/-- The sum of a zero and a value: the value, its significand written with more zeros; two zeros are -0 where both are. -/
theorem addFin_zero (n1 : Bool) (e1 : Int) (n : Bool) (m : Nat) (e : Int) : addFin rmRNE n1 0 e1 n m e =
    if m = 0 then .fin (n1 && n) 0 0 else .fin n (m * 2 ^ (e - min e1 e).toNat) (e - ((e - min e1 e).toNat : Int)) := by
  have hplace : e - ((e - min e1 e).toNat : Int) = min e1 e := by omega
  have hzero : ∀ n, flUnits n 0 = 0 := fun n => by cases n <;> rfl
  rw [hplace]
  unfold addFin
  dsimp only
  rw [Nat.zero_mul, hzero, Int.zero_add]
  by_cases hm : m = 0
  · subst hm
    rw [Nat.zero_mul, hzero]
    cases n1 <;> cases n <;> rfl
  · rw [if_neg hm]
    obtain ⟨hne, hsign, hmag⟩ := flUnits_of_pos n (Nat.mul_pos (Nat.pos_of_ne_zero hm) (Nat.two_pow_pos (e - min e1 e).toNat))
    rw [if_neg hne, hsign, hmag]

/-- A value plus the product of a finite value and +0 is the value; two zeros are +0 but where both are -0. -/
theorem fma32_zero {y z m : Nat} {n : Bool} {e : Int} (hy : ∃ ny my ey, f32 y = .fin ny my ey) (hz : f32 z = .fin n m e) :
    ∃ n', fma32 y 0 z = packFl fFP32 n' m e ∧ (m ≠ 0 ∨ n = false → n' = n) := by
  obtain ⟨ny, my, ey, hy⟩ := hy
  obtain ⟨h24, he, hmax⟩ := f32_bounds hz
  have h0 : f32 0 = .fin false 0 (-149) := rfl
  have hmul : mulFl (.fin ny my ey) (.fin false 0 (-149)) = (.fin ny 0 (ey + -149), 0) := by simp [mulFl]
  unfold fma32 fmaFl finish
  rw [hy, hz, h0, hmul]
  dsimp only [addFl]
  rw [addFin_zero]
  split
  · rename_i hm
    subst hm
    refine ⟨ny && n, by simp [toFmt, roundFl, packFl], fun h => ?_⟩
    rw [h.resolve_left fun h => h rfl, Bool.and_false]
  · exact ⟨n, congrArg Prod.fst (roundFl32_exact rmRNE false n h24 he hmax _), fun _ => rfl⟩

/-! ### Segments at offset 0 (R489, R496) -/

/-- A segment at offset 0 is its constant term, when that is no negative zero. -/
theorem evalSeg_zero {c0 c1 c2 m : Nat} {n : Bool} {e : Int} (h0 : f32 c0 = .fin n m e) (hn : m ≠ 0 ∨ n = false)
    (h1 : ∃ n m e, f32 c1 = .fin n m e) (h2 : ∃ n m e, f32 c2 = .fin n m e) : evalSeg c0 c1 c2 0 = packFl fFP32 n m e := by
  obtain ⟨n1, m1, e1, h1⟩ := h1
  obtain ⟨h24, he, hmax⟩ := f32_bounds h1
  obtain ⟨n1', hinner, -⟩ := fma32_zero h2 h1
  obtain ⟨n', houter, hsign⟩ := fma32_zero (f32_packFl32 n1' h24 he hmax) h0
  rw [evalSeg, hinner, houter, hsign hn]

/-- Coefficients are finite. -/
theorem f32_builtinCoef (id seg i : Nat) : ∃ n m e, f32 (builtinCoef id seg i) = .fin n m e := by
  refine f32_finite ?_
  unfold builtinCoef
  split
  · decide
  split
  · decide
  split
  · decide
  dsimp only
  have hfields : ∀ v, bitsOf v 23 8 = v / 2 ^ 23 % 2 ^ 8 := fun v => by rw [bitsOf, Nat.shiftRight_eq_div_pow]
  split
  · rename_i h
    rw [beq_iff_eq, hfields] at h
    rw [hfields]
    omega
  · rename_i h
    exact fun h' => h (beq_iff_eq.2 h')

theorem f32_one : f32 one32 = .fin false (2 ^ 23) (-23) := by decide

/-- What EXP is at segment 128, and RCP and RSQ at segment 0, at offset 0 (R496). -/
theorem evalBuiltin_one {id seg : Nat} (h : builtinCoef id seg 0 = one32) : evalBuiltin id seg 0 = one32 := by
  rw [evalBuiltin, h, evalSeg_zero f32_one (.inr rfl) (f32_builtinCoef ..) (f32_builtinCoef ..)]
  decide

/-- What LOG is at segment 0, at offset 0 (R496). -/
theorem evalBuiltin_log : evalBuiltin 1 0 0 = 0 := by
  have h : f32 (builtinCoef 1 0 0) = .fin false 0 (-149) := by decide
  rw [evalBuiltin, evalSeg_zero h (.inr rfl) (f32_builtinCoef ..) (f32_builtinCoef ..)]
  decide

/-! ### Powers of 2 (R491, R492, R497) -/

theorem expo_one (k : Int) : expo 1 k = k := Int.zero_add k

/-- FP32 bits of 2^k: the exponent field holds k + 127. -/
theorem packFl32_pow {k : Int} (h : -126 ≤ k) (neg : Bool) : packFl fFP32 neg 1 k = b2n neg * 2 ^ 31 + (k + 127).toNat * 2 ^ 23 := by
  have hexpo := expo_one k
  have hplace : ulp32 k = k - 23 := by unfold ulp32; omega
  have hsig : sig32 1 k = 2 ^ 23 := by
    rw [sig32, hexpo, hplace, Nat.one_mul]
    congr 1
    omega
  rw [packFl32_eq neg Nat.one_ne_zero (by rw [hexpo, hplace]; omega), hexpo, hsig, if_neg (by omega), Nat.sub_self, Nat.add_zero]

/-- 2^k, its significand written with `j` zeros, rounds to itself. -/
theorem roundFl32_pow (mode : Nat) (sat neg : Bool) {k : Int} (hk : -126 ≤ k) (hk' : k ≤ 127) (j : Nat) :
    (roundFl fFP32 mode sat neg (2 ^ j) (k - j)).1 = packFl fFP32 neg 1 k := by
  have hexact := roundFl32_exact mode sat neg (m := 1) (e := k) (by decide) (by omega) (by rwa [expo_one]) j
  rw [Nat.one_mul] at hexact
  rw [hexact]

/-- A power of 2 by its exponent field. -/
theorem f32_pow {n : Bool} {e : Nat} (h1 : 1 ≤ e) (h254 : e ≤ 254) : f32 (b2n n * 2 ^ 31 + e * 2 ^ 23) = .fin n (2 ^ 23) (e - 150) := by
  have hsign : b2n n < 2 := by cases n <;> decide
  have hfield : bitsOf (b2n n * 2 ^ 31 + e * 2 ^ 23) 23 8 = e := by
    rw [bitsOf, Nat.shiftRight_eq_div_pow]
    omega
  have hfrac : (b2n n * 2 ^ 31 + e * 2 ^ 23) % 2 ^ 23 = 0 := by omega
  have hneg : bitOf (b2n n * 2 ^ 31 + e * 2 ^ 23) 31 = n := by
    rw [bitOf, Nat.testBit_eq_decide_div_mod_eq]
    cases n <;> simp only [b2n, if_true, Bool.false_eq_true, if_false, decide_eq_true_eq, decide_eq_false_iff_not] <;> omega
  rw [f32_eq, hfield, hfrac, hneg, if_neg (by omega), if_neg (by omega), Nat.zero_add]

/-- 1 scaled by 2^k. -/
theorem scale32_one {k : Int} (hk : -126 ≤ k) (hk' : k ≤ 127) : scale32 one32 k = packFl fFP32 false 1 k := by
  have hclamp : max (-20000) (min 20000 k) = k := by omega
  have hone : decodeFl fFP32 one32 = .fin false (2 ^ 23) (-23) := f32_one
  unfold scale32 fscaleB
  rw [hone]
  dsimp only
  rw [hclamp, if_neg (by decide), Int.add_comm]
  exact roundFl32_pow rmRNE false false hk hk' 23

/-- A result that is the exact one, a power of 2, stands. -/
theorem within497_pow {id x m t : Nat} {neg n : Bool} {e : Int} (hx : f32 x = .fin neg m e)
    (hexact : exactFix id neg m e = (if n then -1 else 1) * ((2 ^ t : Nat) : Int)) (ht : 274 ≤ t) (ht' : t ≤ 527) :
    within497 id x (packFl fFP32 n 1 (t - 400)) = packFl fFP32 n 1 (t - 400) := by
  have hpos := Nat.two_pow_pos t
  have hsign : decide (exactFix id neg m e < 0) = n := by
    rw [hexact]
    cases n <;> simp only [if_true, Bool.false_eq_true, if_false, decide_eq_true_eq, decide_eq_false_iff_not] <;> omega
  have hmag : (exactFix id neg m e).natAbs = 2 ^ t := by
    rw [hexact, Int.natAbs_mul, Int.natAbs_natCast]
    cases n <;> exact Nat.one_mul _
  have hwant : (toFmt fFP32 rmRNE false (.fin n (2 ^ t) (-400))).1 = packFl fFP32 n 1 (t - 400) := by
    have hround := roundFl32_pow rmRNE false n (k := t - 400) (by omega) (by omega) t
    rwa [show (t : Int) - 400 - t = -400 by omega] at hround
  unfold within497
  rw [hx]
  dsimp only
  rw [hsign, hmag, hwant]
  exact ite_self _

/-- The significand of a power of 2 (R491). -/
theorem mantissa_pow (e : Int) : mantissa (2 ^ 23) e = (23 + e, 0) := by
  have hlog : Nat.log2 (2 ^ 23) = 23 := Nat.log2_two_pow
  unfold mantissa
  rw [hlog]
  rfl

/-- RCP of a finite value that is not 0, by its exponent and its fraction (R491). -/
theorem sfuRcp_fin {x m f : Nat} {n : Bool} {e ex : Int} (hx : f32 x = .fin n m e) (hm : (m == 0) = false) (hmant : mantissa m e = (ex, f)) :
    sfuRcp x = within497 2 x (if n then neg32 (scale32 (evalBuiltin 2 (f >>> 15) (exact32 (f % 2 ^ 15) (-15))) (-ex))
      else scale32 (evalBuiltin 2 (f >>> 15) (exact32 (f % 2 ^ 15) (-15))) (-ex)) := by
  unfold sfuRcp
  simp only [hx, hm, hmant, Bool.false_eq_true, if_false]

/-- RSQ of a positive finite value, by its exponent and its fraction (R492). -/
theorem sfuRsq_fin {x m f : Nat} {e ex : Int} (hx : f32 x = .fin false m e) (hm : (m == 0) = false) (hmant : mantissa m e = (ex, f)) :
    sfuRsq x = within497 3 x (scale32 (evalBuiltin 3 ((ex % 2).toNat * 128 + (f >>> 16)) (exact32 (f % 2 ^ 16) (-16)))
      (-((ex - (ex % 2).toNat) / 2))) := by
  unfold sfuRsq
  simp only [hx, hm, hmant, Bool.false_eq_true, if_false]

/-- The offset of a power of 2 in its segment. -/
theorem exact32_zero (e : Int) : exact32 0 e = 0 := by simp [exact32, packFl, b2n]

/-- RCP of a power of 2 is exact (R491, R496). -/
theorem sfuRcp_pow (n : Bool) {e : Nat} (h1 : 1 ≤ e) (h253 : e ≤ 253) :
    sfuRcp (b2n n * 2 ^ 31 + e * 2 ^ 23) = b2n n * 2 ^ 31 + (254 - e) * 2 ^ 23 := by
  have hx := f32_pow (n := n) h1 (by omega : e ≤ 254)
  have hbits : ∀ n, b2n n * 2 ^ 31 + (254 - e) * 2 ^ 23 = packFl fFP32 n 1 ((527 - e : Nat) - 400 : Int) := fun n => by
    rw [packFl32_pow (by omega)]
    congr 2
    omega
  have hscale : scale32 one32 (-(23 + ((e : Int) - 150))) = (254 - e) * 2 ^ 23 := by
    rw [scale32_one (by omega) (by omega), packFl32_pow (by omega), b2n, if_neg Bool.false_ne_true, Nat.zero_mul, Nat.zero_add]
    congr 1
    omega
  have hsign : (if n then neg32 ((254 - e) * 2 ^ 23) else (254 - e) * 2 ^ 23) = b2n n * 2 ^ 31 + (254 - e) * 2 ^ 23 := by
    have hpos : bitOf ((254 - e) * 2 ^ 23) 31 = false := Nat.testBit_lt_two_pow (by omega)
    cases n
    · simp [b2n]
    · simp only [if_true, neg32, hpos, b2n, Bool.false_eq_true, if_false]
      omega
  have hexact : exactFix 2 n (2 ^ 23) (e - 150) = (if n then -1 else 1) * ((2 ^ (527 - e) : Nat) : Int) := by
    have hdiv : 2 ^ (400 - ((e : Int) - 150)).toNat / 2 ^ 23 = 2 ^ (527 - e) := by
      rw [Nat.pow_div (by omega) (by decide)]
      congr 1
      omega
    rw [← hdiv]
    rfl
  rw [sfuRcp_fin hx (by decide) (mantissa_pow _), Nat.zero_shiftRight, Nat.zero_mod, exact32_zero, evalBuiltin_one (by decide), hscale, hsign,
    hbits, within497_pow hx hexact (by omega) (by omega)]

/-- The square root of an even power of 2. -/
theorem isqrt_pow (t : Nat) : isqrt (2 ^ (2 * t)) = 2 ^ t := by
  have hsquare : 2 ^ (2 * t) = 2 ^ t * 2 ^ t := by rw [← Nat.pow_add, Nat.two_mul]
  unfold isqrt
  rw [Nat.log2_two_pow, Nat.mul_div_cancel_left _ (by decide), List.range_succ, List.reverse_append, List.reverse_singleton,
    List.singleton_append, List.foldl_cons, Nat.zero_add, if_pos (Nat.le_of_eq hsquare.symm)]
  refine List.foldlRecOn (motive := (· = 2 ^ t)) _ _ rfl fun r hr i _ => ?_
  have hlt : 2 ^ t < 2 ^ t + 2 ^ i := Nat.lt_add_of_pos_right (Nat.two_pow_pos i)
  rw [hr, if_neg]
  rw [hsquare]
  exact Nat.not_le_of_lt (Nat.mul_lt_mul'' hlt hlt)

/-- RSQ of an even power of 2 is exact (R492, R496). -/
theorem sfuRsq_pow {e : Nat} (h1 : 1 ≤ e) (h127 : e ≤ 127) : sfuRsq ((2 * e - 1) * 2 ^ 23) = (127 + 64 - e) * 2 ^ 23 := by
  have hx := f32_pow (n := false) (e := 2 * e - 1) (by omega) (by omega)
  have hplus : ∀ v, b2n false * 2 ^ 31 + v = v := fun v => by rw [b2n, if_neg Bool.false_ne_true, Nat.zero_mul, Nat.zero_add]
  rw [hplus] at hx
  have heven : (23 + (((2 * e - 1 : Nat) : Int) - 150)) % 2 = 0 := by omega
  have hscale : scale32 one32 (-((23 + (((2 * e - 1 : Nat) : Int) - 150) - (0 : Nat)) / 2)) = packFl fFP32 false 1 ((464 - e : Nat) - 400) := by
    rw [scale32_one (by omega) (by omega)]
    congr 1
    omega
  have hexact : exactFix 3 false (2 ^ 23) ((2 * e - 1 : Nat) - 150) = (if false then -1 else 1) * ((2 ^ (464 - e) : Nat) : Int) := by
    have hroot : 2 ^ (800 - (((2 * e - 1 : Nat) : Int) - 150)).toNat / 2 ^ 23 = 2 ^ (2 * (464 - e)) := by
      rw [Nat.pow_div (by omega) (by decide)]
      congr 1
      omega
    rw [if_neg Bool.false_ne_true, Int.one_mul, ← isqrt_pow (464 - e), ← hroot]
    rfl
  rw [sfuRsq_fin hx (by decide) (mantissa_pow _), heven, Int.toNat_zero, Nat.zero_mul, Nat.zero_add, Nat.zero_shiftRight, Nat.zero_mod,
    exact32_zero, evalBuiltin_one (by decide), hscale, within497_pow hx hexact (by omega) (by omega), packFl32_pow (by omega), hplus]
  congr 1
  omega

/-! ### EXP at zeros and LOG at 1 (R493, R494, R496) -/

theorem expSeries_zero (n k : Nat) (x s : Int) : expSeries n k x 0 s = s := by
  induction n generalizing k s with
  | zero => rfl
  | succ n ih => rw [expSeries, Int.zero_mul, Int.zero_ediv, ih, Int.add_zero]

/-- EXP of 0 is 1. -/
theorem exactFix_exp_zero (neg : Bool) (e : Int) : exactFix 0 neg 0 e = ((2 ^ 400 : Nat) : Int) := by
  have hx : (if neg then -1 else 1) * ((0 : Nat) : Int) * 2 ^ (e + 149).toNat = 0 := by rw [Int.natCast_zero, Int.mul_zero, Int.zero_mul]
  rw [Int.natCast_pow, exactFix, hx, expSeries, Int.mul_zero, Int.zero_ediv, expSeries_zero, Int.zero_add]
  rfl

theorem artanhSeries_zero (n k zz s : Nat) : artanhSeries n k zz 0 s = s := by
  induction n generalizing k s with
  | zero => rfl
  | succ n ih => rw [artanhSeries, Nat.zero_mul, Nat.zero_div, Nat.zero_div, ih, Nat.add_zero]

/-- ln 1 is 0. -/
theorem lnFix_self (a : Nat) : lnFix a a = 0 := by
  simp only [lnFix, Nat.sub_self, Nat.zero_mul, Nat.zero_div, artanhSeries_zero, Nat.mul_zero]

/-- LOG of a positive finite value, by its exponent and its fraction (R493). -/
theorem sfuLog_fin {x m f : Nat} {e ex : Int} (hx : f32 x = .fin false m e) (hm : (m == 0) = false) (hmant : mantissa m e = (ex, f)) :
    sfuLog x = within497 1 x (fma32 (int32f ex) 0x3F317218 (evalBuiltin 1 (f >>> 15) (exact32 (f % 2 ^ 15) (-15)))) := by
  unfold sfuLog
  simp only [hx, hm, hmant, Bool.false_eq_true, if_false]

/-- LOG of 1 is +0. -/
theorem sfuLog_one : sfuLog one32 = 0 := by
  have hmant : mantissa (2 ^ 23) (-23) = (0, 0) := mantissa_pow (-23)
  have hexact : exactFix 1 false (2 ^ 23) (-23) = 0 := by
    unfold exactFix
    rw [hmant]
    dsimp only
    rw [Nat.add_zero, lnFix_self, Int.zero_mul]
    rfl
  have hsum : fma32 (int32f 0) 0x3F317218 0 = 0 := by decide
  have hwant : (toFmt fFP32 rmRNE false (.fin false 0 (-400))).1 = 0 := by decide
  rw [sfuLog_fin f32_one (by decide) hmant, Nat.zero_shiftRight, Nat.zero_mod, exact32_zero, evalBuiltin_log, hsum]
  unfold within497
  rw [f32_one]
  dsimp only
  rw [hexact, Int.natAbs_zero, decide_eq_false (Int.lt_irrefl 0), hwant]
  exact ite_self _

/-- EXP of either zero is 1: n, the reduced argument and its offset are 0, and the segment is 128 (R494, R496). -/
theorem sfuExp_zero {x : Nat} (hx : x = 0 ∨ x = 0x80000000) : sfuExp x = one32 := by
  obtain ⟨neg, hfin⟩ : ∃ neg, f32 x = .fin neg 0 (-149) := by
    rcases hx with rfl | rfl
    · exact ⟨false, by decide⟩
    · exact ⟨true, by decide⟩
  have hhigh : lt32 x 0x42B20000 = true := by rcases hx with rfl | rfl <;> decide
  have hlow : lt32 0xC2D00000 x = true := by rcases hx with rfl | rfl <;> decide
  have hn : sgn 32 (toIntW 32 true rmRNE (f32 (mul32 x 0x3FB8AA3B))).1 = 0 := by rcases hx with rfl | rfl <;> decide
  have hnn : int32f (-0) = 0 := by decide
  have hr : fma32 0 0x35BFBE8E (fma32 0 0x3F317200 x) = 0 := by rcases hx with rfl | rfl <;> decide
  have hu : mul32 0 0x43800000 = 0 := by decide
  have hq : (frnd fFP32 rmRDN 0).1 = 0 := by decide
  have ht : sub32 0 0 = 0 := by decide
  have hs : (sgn 32 (toIntW 32 true rmRTZ (f32 0)).1 + 128).toNat = 128 := by decide
  have hscale : scale32 one32 0 = one32 := by decide
  have hone : one32 = packFl fFP32 false 1 ((400 : Nat) - 400) := by decide
  have hexact : exactFix 0 neg 0 (-149) = (if false then -1 else 1) * ((2 ^ 400 : Nat) : Int) := by
    rw [exactFix_exp_zero, if_neg Bool.false_ne_true, Int.one_mul]
  unfold sfuExp
  simp only [hfin, hhigh, hlow, hn, hnn, hr, hu, hq, ht, hs, Bool.not_true, Bool.false_eq_true, if_false]
  rw [evalBuiltin_one (by decide), hscale, hone, within497_pow hfin hexact (by decide) (by decide)]

/-! ### Results that no table decides (R491 to R495) -/

theorem sfuRcp_nan {x : Nat} {s : Bool} (h : f32 x = .nan s) : sfuRcp x = nan32 := by rw [sfuRcp, h]

theorem sfuRsq_nan {x : Nat} {s : Bool} (h : f32 x = .nan s) : sfuRsq x = nan32 := by rw [sfuRsq, h]

theorem sfuLog_nan {x : Nat} {s : Bool} (h : f32 x = .nan s) : sfuLog x = nan32 := by rw [sfuLog, h]

theorem sfuExp_nan {x : Nat} {s : Bool} (h : f32 x = .nan s) : sfuExp x = nan32 := by rw [sfuExp, h]

/-- Every built-in function of a NaN is the canonical NaN. -/
theorem sfuBuiltin_nan (id : Nat) {x : Nat} (h : isNan32 x = true) : sfuBuiltin id x = nan32 := by
  obtain ⟨s, hs⟩ := isNan32_iff.1 h
  unfold sfuBuiltin
  split
  · exact sfuExp_nan hs
  · exact sfuLog_nan hs
  · exact sfuRcp_nan hs
  · exact sfuRsq_nan hs

/-- RSQ and LOG of a negative argument, -infinity included, are NaN. -/
theorem sfuRsq_sfuLog_negative {x : Nat} (hx : x < 2 ^ 32) (hnan : isNan32 x = false) (hneg : 0x80000000 < x) :
    sfuRsq x = nan32 ∧ sfuLog x = nan32 := by
  unfold sfuRsq sfuLog
  rcases f32_negative hx hneg hnan with h | ⟨m, e, h, hm⟩ <;> rw [h]
  · exact ⟨rfl, rfl⟩
  · have hm : (m == 0) = false := beq_false_of_ne hm
    simp only [hm, Bool.false_eq_true, if_false, if_true, and_self]

/-- A negative value is less than a positive one. -/
theorem lt32_of_signs {x y m1 m2 : Nat} {e1 e2 : Int} (hx : f32 x = .fin true m1 e1) (hy : f32 y = .fin false m2 e2) (h : m1 ≠ 0 ∨ m2 ≠ 0) :
    lt32 x y = true := by
  unfold lt32
  rw [hx, hy]
  have hpos : 0 < m1 * 2 ^ (e1 - min e1 e2).toNat ∨ 0 < m2 * 2 ^ (e2 - min e1 e2).toNat :=
    h.imp (fun h => Nat.mul_pos (Nat.pos_of_ne_zero h) (Nat.two_pow_pos _)) fun h => Nat.mul_pos (Nat.pos_of_ne_zero h) (Nat.two_pow_pos _)
  have hlt : flUnits true (m1 * 2 ^ (e1 - min e1 e2).toNat) < flUnits false (m2 * 2 ^ (e2 - min e1 e2).toNat) := by
    simp only [flUnits, if_true, Bool.false_eq_true, if_false]
    omega
  have hcmp : cmpFl (.fin true m1 e1) (.fin false m2 e2) = .lt := if_pos hlt
  rw [hcmp]
  rfl

/-- 89.0, the limit of EXP from which on it is +infinity (R494). -/
theorem f32_expHigh : f32 0x42B20000 = .fin false 0xB20000 (-17) := by decide

/-- -104.0, the limit of EXP up to which it is +0 (R494). -/
theorem f32_expLow : f32 0xC2D00000 = .fin true 0xD00000 (-17) := by decide

/-- EXP of 89.0 or more is +infinity. -/
theorem sfuExp_high {x : Nat} (hnan : isNan32 x = false) (h : lt32 x 0x42B20000 = false) : sfuExp x = inf32 := by
  unfold sfuExp
  cases hx : f32 x with
  | nan s =>
    rw [isNan32_iff.2 ⟨s, hx⟩] at hnan
    cases hnan
  | inf n =>
    cases n with
    | false => rfl
    | true =>
      rw [lt32, hx, f32_expHigh] at h
      cases h
  | fin n m e => simp only [h, Bool.not_false, if_true]

/-- EXP of -104.0 or less is +0. -/
theorem sfuExp_low {x : Nat} (hnan : isNan32 x = false) (h : lt32 0xC2D00000 x = false) : sfuExp x = 0 := by
  unfold sfuExp
  cases hx : f32 x with
  | nan s =>
    rw [isNan32_iff.2 ⟨s, hx⟩] at hnan
    cases hnan
  | inf n =>
    cases n with
    | true => rfl
    | false =>
      rw [lt32, hx, f32_expLow] at h
      cases h
  | fin n m e =>
    cases n with
    | true => simp only [h, lt32_of_signs hx f32_expHigh (.inr (by decide)), Bool.not_true, Bool.not_false, Bool.false_eq_true, if_false, if_true]
    | false =>
      rw [lt32_of_signs f32_expLow hx (.inl (by decide))] at h
      cases h

end Sys2Proof.Machine

/-! SUPPORT. The rows of a soft maximum that are not ordinary (R519, R522). -/
namespace Sys2Proof.Machine

/-! ### Rows of a soft maximum that are not ordinary (R519, R522) -/

/-- Element `j` of a row is live: it is not masked, and not -infinity (R519). -/
def RowCmd.live (x : RowCmd) (l : List Nat) (mask : Nat → Bool) (j : Nat) : Bool := !(x.mask && mask j) && l.getD j 0 != ninf32

/-- The elements of a row, each with its index and with what `g` says of it. -/
theorem indexed_zip_map (l : List Nat) (g : Nat × Nat → Bool) :
    (indexed l).zip ((indexed l).map g) = (List.range l.length).map fun j => ((j, l.getD j 0), g (j, l.getD j 0)) := by
  have hindexed : indexed l = (List.range l.length).map fun j => (j, l.getD j 0) := by
    refine List.ext_getElem (by simp [indexed]) fun j hj _ => ?_
    simp only [indexed, List.length_zip, List.length_range, Nat.min_self] at hj
    simp [indexed, hj]
  rw [hindexed, List.map_map, List.zip_map']
  rfl

/-- A live element of the row of which `v` holds. -/
def RowCmd.anyLive (x : RowCmd) (l : List Nat) (mask : Nat → Bool) (v : Nat → Bool) : Bool :=
  (List.range l.length).any fun j => x.live l mask j && v (l.getD j 0)

theorem RowCmd.anyLive_iff (x : RowCmd) (l : List Nat) (mask v : Nat → Bool) :
    x.anyLive l mask v = true ↔ ∃ j, j < l.length ∧ x.live l mask j = true ∧ v (l.getD j 0) = true := by
  simp only [RowCmd.anyLive, List.any_eq_true, List.mem_range, Bool.and_eq_true]

/-- How many live elements are at +infinity. -/
def RowCmd.infinite (x : RowCmd) (l : List Nat) (mask : Nat → Bool) : Nat :=
  ((List.range l.length).filter fun j => x.live l mask j && l.getD j 0 == inf32).length

theorem RowCmd.infinite_pos_iff (x : RowCmd) (l : List Nat) (mask : Nat → Bool) :
    0 < x.infinite l mask ↔ x.anyLive l mask (· == inf32) = true := by
  rw [RowCmd.infinite, List.length_filter_pos_iff, RowCmd.anyLive, List.any_eq_true]

/-- What share of 1 each of `n` elements has, in the output format of the command. -/
def RowCmd.share (x : RowCmd) (n : Nat) : Nat := (toFmt x.ofmt rmRNE false (divFl (flInt 1) (flInt n)).1).1

/-- The cases of a row in their order: a live NaN, a live +infinity, no live finite element, an ordinary row (R522). -/
theorem rowSoftmax_cases (x : RowCmd) (l : List Nat) (mask : Nat → Bool) : ∃ ordinary, rowSoftmax x l mask =
    if x.anyLive l mask isNan32 then (rowPack x.ofmt (List.replicate l.length (canonNan x.ofmt)), { nan := true })
    else if 0 < x.infinite l mask then
      (rowPack x.ofmt ((List.range l.length).map fun j =>
        if x.live l mask j && l.getD j 0 == inf32 then x.share (x.infinite l mask) else 0), { inf := true })
    else if !x.anyLive l mask fun v => !isNan32 v && v != inf32 then (rowPack x.ofmt (List.replicate l.length 0), { masked := true })
    else ordinary := by
  unfold rowSoftmax
  extract_lets live il finite hasNan kInf enc
  have hil : il = (List.range l.length).map fun j => ((j, l.getD j 0), x.live l mask j) := indexed_zip_map l _
  have hnan : hasNan = x.anyLive l mask isNan32 := by
    simp only [hasNan, hil, List.any_map]
    rfl
  have hinf : kInf = x.infinite l mask := by
    simp only [kInf, hil, List.filter_map, List.length_map]
    rfl
  have hfin : finite.isEmpty = !x.anyLive l mask fun v => !isNan32 v && v != inf32 := by
    rw [Bool.eq_iff_iff, List.isEmpty_iff]
    simp only [finite, hil, List.filter_map, List.map_eq_nil_iff, List.filter_eq_nil_iff, RowCmd.anyLive, Bool.not_eq_true',
      List.any_eq_false, Bool.and_assoc]
    rfl
  rw [hnan, hinf, hfin, List.map_const', List.map_const', hil, List.map_map]
  exact ⟨_, rfl⟩

/-- A live NaN makes every output the canonical NaN. -/
theorem rowSoftmax_nan {x : RowCmd} {l : List Nat} {mask : Nat → Bool} (h : x.anyLive l mask isNan32 = true) :
    rowSoftmax x l mask = (rowPack x.ofmt (List.replicate l.length (canonNan x.ofmt)), { nan := true }) := by
  obtain ⟨_, hcases⟩ := rowSoftmax_cases x l mask
  rw [hcases, if_pos h]

/-- Live elements at +infinity share 1 equally. -/
theorem rowSoftmax_inf {x : RowCmd} {l : List Nat} {mask : Nat → Bool} (hnan : ¬ x.anyLive l mask isNan32 = true)
    (hinf : x.anyLive l mask (· == inf32) = true) :
    rowSoftmax x l mask = (rowPack x.ofmt ((List.range l.length).map fun j =>
      if x.live l mask j && l.getD j 0 == inf32 then x.share (x.infinite l mask) else 0), { inf := true }) := by
  obtain ⟨_, hcases⟩ := rowSoftmax_cases x l mask
  rw [hcases, if_neg hnan, if_pos ((x.infinite_pos_iff l mask).2 hinf)]

/-- A row with no live element is 0. -/
theorem rowSoftmax_masked {x : RowCmd} {l : List Nat} {mask : Nat → Bool} (h : ∀ j, j < l.length → x.live l mask j = false) :
    rowSoftmax x l mask = (rowPack x.ofmt (List.replicate l.length 0), { masked := true }) := by
  have hnone : ∀ v, x.anyLive l mask v = false := fun v => by
    refine List.any_eq_false.2 fun j hj => ?_
    rw [h j (List.mem_range.1 hj), Bool.false_and]
    exact Bool.false_ne_true
  have hzero : x.infinite l mask = 0 := Nat.eq_zero_of_not_pos fun hpos => by
    rw [x.infinite_pos_iff, hnone] at hpos
    exact Bool.false_ne_true hpos
  obtain ⟨_, hcases⟩ := rowSoftmax_cases x l mask
  rw [hcases, hnone, hnone, hzero]
  rfl

/-! ### The statement -/

/-- What the functions are at zeros and infinities. -/
theorem sfu_zeros_infinities : sfuRcp 0 = inf32 ∧ sfuRcp 0x80000000 = ninf32 ∧ sfuRcp inf32 = 0 ∧ sfuRcp ninf32 = 0x80000000 ∧
    sfuRsq 0 = inf32 ∧ sfuRsq 0x80000000 = ninf32 ∧ sfuRsq inf32 = 0 ∧ sfuLog 0 = ninf32 ∧ sfuLog 0x80000000 = ninf32 ∧ sfuLog inf32 = inf32 := by
  decide

/-- Settles O16: the completion by what its rows and the completion itself leave of its core, the rows of a soft maximum by the first case that
matches, and the functions by the class of their argument, or by rounding a power of 2 exactly. -/
theorem rowAndFunctionResults : Obligations.RowAndFunctionResults := by
  unfold Obligations.RowAndFunctionResults
  obtain ⟨hrcp0, hrcpn0, hrcpinf, hrcpninf, hrsq0, hrsqn0, hrsqinf, hlog0, hlogn0, hloginf⟩ := sfu_zeros_infinities
  refine ⟨⟨?complete, ?softmax⟩, fun id x hnan _ => sfuBuiltin_nan id hnan, hrcp0, hrcpn0, hrcpinf, hrcpninf, hrsq0, hrsqn0, hrsqinf,
    hlog0, hlogn0, hloginf, fun x hx hnan hneg => sfuRsq_sfuLog_negative hx hnan hneg, fun x _ hnan h => sfuExp_high hnan h,
    fun x _ hnan h => sfuExp_low hnan h, sfuExp_zero (.inl rfl), sfuExp_zero (.inr rfl), sfuLog_one, fun e h1 h253 => ?rcp,
    fun e h1 h127 => sfuRsq_pow h1 h127⟩
  case complete =>
    intro s c k far ch u rest hc hq hgo x p paid r word
    refine ⟨rowCmdComplete_eq hc hq hgo far, fun hpaid hk => ?_⟩
    obtain ⟨ch', hexec, hrows, hmem⟩ := rowCmdComplete_affords hc hq hgo far hk hpaid
    exact ⟨ch', hexec, congrArg Prod.fst hrows, congrArg Prod.snd hrows, hmem⟩
  case softmax =>
    intro x l mask live isLive r
    have hlive : ∀ v, x.anyLive l mask v = true ↔ isLive v := x.anyLive_iff l mask
    refine ⟨fun hnan => rowSoftmax_nan ((hlive _).2 hnan), fun hnan hinf => ?_, fun hnone => rowSoftmax_masked hnone⟩
    exact rowSoftmax_inf (fun h => hnan ((hlive _).1 h)) ((hlive _).2 hinf)
  case rcp =>
    have hpos := sfuRcp_pow false h1 h253
    have hneg := sfuRcp_pow true h1 h253
    simp only [b2n, Bool.false_eq_true, if_false, if_true, Nat.zero_mul, Nat.zero_add, Nat.one_mul] at hpos hneg
    exact ⟨hpos, hneg⟩

end Sys2Proof.Machine

/-! SUPPORT. The starts of a chain's stages, the token buckets of a partition, and what its carousel does with a command and a transfer (R342,
R557 to R567, R573 to R579). -/
namespace Sys2Proof.Machine

/-! ### What a completion can do (R342, R562) -/

/-- A property of a chip that the parts of every completion keep: a change of a core, a change of a stream context, an event. -/
structure Chip.KeptByReports (P : Chip → Prop) : Prop where
  core : ∀ (a : Chip) (k : Nat) (f : Core → Core), P a → P (a.modCore k f)
  ctx : ∀ (a : Chip) (p x : Nat) (f : SeCtx → SeCtx), P a → P (a.modCtx p x f)
  event : ∀ (a : Chip) (id cls agent part code arg0 arg1 level : Nat), P a → P (a.ev id cls agent part code arg0 arg1 level)

namespace Chip.KeptByReports

variable {P : Chip → Prop} {ch : Chip} (h : Chip.KeptByReports P)

include h

theorem debugHalt (k reason index : Nat) (hch : P ch) : P (ch.debugHalt k reason index) := by
  unfold Chip.debugHalt
  dsimp only
  split
  · exact hch
  · exact h.event _ _ _ _ _ _ _ _ _ (h.core _ _ _ hch)

theorem haltCore (k reason index : Nat) (hch : P ch) : P (ch.haltCore k reason index) := by
  have hhalt := h.debugHalt k reason index hch
  unfold Chip.haltCore
  dsimp only
  split
  · exact List.foldlRecOn _ _ hhalt fun a ha j _ => h.debugHalt j 2 0 ha
  · exact hhalt

theorem retire (k : Nat) (hch : P ch) : P (ch.retire k) := by
  unfold Chip.retire Chip.retireTo
  dsimp only
  split
  · exact h.haltCore _ _ _ (h.core _ _ _ hch)
  · exact h.core _ _ _ hch

theorem settle (k : Nat) (hch : P ch) : P (ch.settle k) := by
  unfold Chip.settle
  dsimp only
  split
  · exact hch
  · split
    · split
      · exact h.retire k (h.core _ _ _ hch)
      · exact hch
    · split
      · exact h.retire k (h.core _ _ _ hch)
      · exact hch
    · exact hch

theorem completeCore (u : UnitCmd) (code value : Nat) (hch : P ch) : P (ch.completeCore u code value) := by
  unfold Chip.completeCore
  dsimp only
  split
  · exact h.core _ _ _ hch
  · split
    · exact h.core _ _ _ hch
    · exact h.settle _ (h.core _ _ _ hch)

theorem chainDone (p x id stage code : Nat) (hch : P ch) : P (ch.chainDone p x id stage code) := by
  unfold Chip.chainDone
  split
  · dsimp only
    split
    · exact hch
    · split
      · exact h.completeCore _ _ _ (h.ctx _ _ _ _ hch)
      · exact h.ctx _ _ _ _ hch
  · exact hch

/-- A completion, to a core or to a chain, keeps the property. -/
theorem complete (u : UnitCmd) (code value : Nat) (hch : P ch) : P (ch.complete u code value) := by
  unfold Chip.complete
  split
  · exact h.completeCore _ _ _ hch
  · exact h.chainDone _ _ _ _ _ hch

end Chip.KeptByReports

/-! ### Carousels are kept, and the bytes that a partition moves are counted (R566) -/

/-- Every partition and its carousel stay, and each of its buckets has let at most `n` lines pass. -/
structure Chip.Moves (n : Nat) (ch ch' : Chip) : Prop where
  length : ch'.parts.length = ch.parts.length
  carousel : ∀ p, (ch'.part p).carousel = (ch.part p).carousel
  moved : ∀ p b, (ch'.part p).tel.moved b ≤ (ch.part p).tel.moved b + 64 * n

namespace Chip.Moves

variable {ch a b : Chip} {n : Nat}

theorem refl (n : Nat) (ch : Chip) : ch.Moves n ch := ⟨rfl, fun _ => rfl, fun _ _ => Nat.le_add_right ..⟩

theorem of_parts (h : ch.Moves n a) (hb : b.parts = a.parts) : ch.Moves n b := by
  have hpart : ∀ p, b.part p = a.part p := fun p => by rw [Chip.part, hb, Chip.part]
  exact ⟨by rw [hb, h.length], fun p => by rw [hpart, h.carousel], fun p i => by rw [hpart]; exact h.moved p i⟩

/-- What moves nothing more. -/
theorem trans (hab : ch.Moves n a) (hbc : a.Moves 0 b) : ch.Moves n b :=
  ⟨hbc.length.trans hab.length, fun p => (hbc.carousel p).trans (hab.carousel p), fun p i => (hbc.moved p i).trans (hab.moved p i)⟩

theorem ev (h : ch.Moves n a) (id cls agent part code arg0 arg1 level : Nat) :
    ch.Moves n (a.ev id cls agent part code arg0 arg1 level) := by
  refine h.trans ⟨?_, fun p => ?_, fun p i => ((KeepsWork.ev ..).moved p i).le⟩
  · rw [Chip.ev, Chip.event, Chip.modPart_parts_length]
    obtain ⟨_, _, hwork⟩ := a.lerWork_cases (a.ler.raise _)
    rw [hwork]
  · obtain ⟨_, hpart⟩ := a.event_part { id := id, cls := cls, agent := agent, part := part, code := code, arg0 := arg0, arg1 := arg1, level := level } p
    rw [Chip.ev, hpart]

theorem keptByReports (n : Nat) (ch : Chip) : Chip.KeptByReports (ch.Moves n) where
  core _ _ _ h := h.of_parts rfl
  ctx _ _ _ _ h := h.of_parts rfl
  event _ _ _ _ _ _ _ _ _ h := h.ev ..

theorem complete (h : ch.Moves n a) (u : UnitCmd) (code value : Nat) : ch.Moves n (a.complete u code value) :=
  (keptByReports n ch).complete u code value h

/-- The lines that a bucket lets pass are counted in it. -/
theorem payLines (ch : Chip) (p b n : Nat) : ch.Moves n (ch.payLines p b n) := by
  unfold Chip.payLines
  dsimp only
  refine ⟨Chip.modPart_parts_length .., fun q => ?_, fun q i => ?_⟩ <;>
    (rw [Chip.modPart_part]; split)
  · rename_i hq
    rw [hq.1]
    split <;> rfl
  · rfl
  · rename_i hq
    rw [hq.1]
    split <;>
      · unfold TickRec.moved
        split <;> simp only [Nat.le_refl, Nat.le_add_right]
  · exact Nat.le_add_right ..

theorem pay (ch : Chip) (p : Nat) (pl : Place) (write : Bool) (a n : Nat) : ch.Moves (linesOf a n).length (ch.pay p pl write a n) := by
  unfold Chip.pay
  split
  · exact payLines ..
  · exact refl ..

theorem countSoft (h : ch.Moves n a) (at' m : Nat) : ch.Moves n (a.countSoft at' m) :=
  List.foldlRecOn (motive := fun b => ch.Moves n b) _ _ h fun b hb l _ => by
    unfold Chip.countLine
    split
    · exact hb.of_parts rfl
    · split
      · exact hb.of_parts rfl
      · exact hb

theorem fetchPiece (ch : Chip) (p : Nat) (far : FarAns) (a n : Nat) : ch.Moves (linesOf a n).length (ch.fetchPiece p far a n).1 := by
  unfold Chip.fetchPiece
  split
  · exact refl ..
  · exact refl ..
  · rename_i pl _ _
    have hpay := pay ch p pl false a n
    dsimp only
    split
    · split
      · exact hpay
      · exact hpay.countSoft ..
    · split
      · dsimp only
        split
        · exact hpay.of_parts rfl
        · exact hpay
      · dsimp only
        split
        · split
          · exact hpay.of_parts rfl
          · exact hpay
        · exact hpay
      · exact hpay

theorem hostFault (h : ch.Moves n a) (p at' code : Nat) : ch.Moves n (a.hostFault p at' code) := by
  rcases a.hostFault_cases p at' code with heq | ⟨fn, o, heq⟩ <;> rw [heq]
  · exact h
  · exact h.ev ..

/-- A piece of a range costs its lines, whatever answers it. -/
theorem readPiece (ch : Chip) (p : Nat) (far : FarAns) (a n : Nat) : ch.Moves (linesOf a n).length (ch.readPiece p far a n).1 :=
  (fetchPiece ch p far a n).hostFault ..

end Chip.Moves

/-- A range at the start of a line that does not go past it is one line. -/
theorem linesOf_line {a n : Nat} (ha : a % 64 = 0) (hpos : 0 < n) (hn : n ≤ 64) : linesOf a n = [a] := by
  have hlo : lineOf a = a := by simp only [lineOf]; omega
  have hhi : lineOf (a + n - 1) = a := by simp only [lineOf]; omega
  rw [linesOf, if_neg (Nat.pos_iff_ne_zero.1 hpos), hhi, hlo, Nat.sub_self]
  rfl

theorem pieces_line {a n : Nat} (ha : a % 64 = 0) (hpos : 0 < n) (hn : n ≤ 64) : pieces a n = [(a, n)] := by
  have hend : min (a + 64) (a + n) - a = n := by omega
  simp only [pieces, linesOf_line ha hpos hn, List.map_cons, List.map_nil, Nat.max_self, hend]

/-- A read within one line lets one line pass. -/
theorem Chip.Moves.uread_line {a n : Nat} (ha : a % 64 = 0) (hpos : 0 < n) (hn : n ≤ 64) (ch : Chip) (p : Nat) (far : FarAns) :
    ch.Moves 1 (ch.uread p far a n).1 := by
  have hpiece := readPiece ch p far a n
  rw [linesOf_line ha hpos hn] at hpiece
  rw [Chip.uread, pieces_line ha hpos hn, List.foldl_cons, List.foldl_nil]
  dsimp only
  split
  · exact refl ..
  · exact hpiece

/-- Completions, one after the other, keep memory and the carousels. -/
theorem Chip.completeAll_keeps {α : Type} (l : List α) (cmd : α → UnitCmd) (code : Nat) (ch : Chip) :
    (l.foldl (fun a e => a.complete (cmd e) code 0) ch).mem = ch.mem ∧ ch.Moves 0 (l.foldl (fun a e => a.complete (cmd e) code 0) ch) :=
  List.foldlRecOn (motive := fun a => a.mem = ch.mem ∧ ch.Moves 0 a) l _ ⟨rfl, .refl 0 ch⟩ fun _ ha _ _ =>
    ⟨(Chip.KeepsBanks.complete ..).1.trans ha.1, ha.2.complete ..⟩

/-! ### Stream contexts -/

/-- A context with work is one of its pod. -/
theorem Chip.ctx_exists {ch : Chip} {p x : Nat} (h : (ch.ctx p x).q ≠ []) : p < ch.pods.length ∧ x < (ch.pod p).ctxs.length := by
  have hx : x < (ch.pod p).ctxs.length := Nat.lt_of_not_le fun hle => h (by rw [Chip.ctx, List.getD_eq_default _ _ hle])
  refine ⟨Nat.lt_of_not_le fun hle => h ?_, hx⟩
  have hpod : ch.pod p = {} := List.getD_eq_default _ _ hle
  rw [Chip.ctx, hpod, List.getD_eq_getElem?_getD, List.getElem?_replicate]
  split <;> rfl

theorem Chip.ctx_modCtx_self {ch : Chip} {p x : Nat} (hp : p < ch.pods.length) (hx : x < (ch.pod p).ctxs.length) (f : SeCtx → SeCtx) :
    (ch.modCtx p x f).ctx p x = f (ch.ctx p x) := by
  rw [Chip.ctx, Chip.modCtx, Chip.modPod_pod, if_pos ⟨rfl, hp⟩, List.getD_eq_getElem?_getD, List.getElem?_modify_eq,
    List.getElem?_eq_getElem hx, Chip.ctx, List.getD_eq_getElem _ _ hx]
  rfl

/-! ### Stages of a chain (R560 to R563) -/

/-- What has come before a stage that may start: its input has been read, its group multiplied, its tile drained, and the buffer that a
READ fills is free; no stage has failed. -/
theorem ChainRun.ready_before {r : ChainRun} {stage : Nat} (h : r.ready stage = true) :
    r.fail = none ∧ (stage = 1 → r.has 0 = true → r.started.getD 1 0 < r.done.getD 0 0) ∧
      (stage = 2 → (r.started.getD 2 0 + 1) * r.kgroup ≤ r.done.getD 1 0) ∧ (stage = 3 → r.started.getD 3 0 < r.done.getD 2 0) ∧
      (stage = 0 → r.started.getD 0 0 < 2 ∨ r.started.getD 0 0 - 2 < r.done.getD 1 0) := by
  unfold ChainRun.ready at h
  obtain ⟨hfail, hstage⟩ := Bool.and_eq_true_iff.1 h
  refine ⟨Option.isNone_iff_eq_none.1 hfail, ?_, ?_, ?_, ?_⟩ <;> rintro rfl <;>
    simp only [Bool.and_eq_true, Bool.or_eq_true, Bool.not_eq_true', decide_eq_true_eq] at hstage
  · exact fun hread => hstage.2.resolve_left (by rw [hread]; decide)
  · exact hstage.1.2
  · exact hstage.2
  · exact hstage.2

/-- A command of the array that a chain starts: its stage counts as started, and the command joins the queue of its pod's array. -/
def Chip.chainIssue (ch : Chip) (p x stage : Nat) (r : ChainRun) (rest : List SeItem) (u : UnitCmd) : Chip :=
  { ((ch.modCtx p x fun z => { z with q := .chain { r with started := r.started.modify stage fun k => k + 1 } :: rest }).modPod p fun d =>
      { d with arrq := d.arrq ++ [({ u with id := ch.nextReq }, false)] }) with nextReq := ch.nextReq + 1 }

theorem Chip.chainIssue_result {ch : Chip} {p x : Nat} (hctx : (ch.ctx p x).q ≠ []) (stage : Nat) (r : ChainRun) (rest : List SeItem)
    (u : UnitCmd) :
    ((ch.chainIssue p x stage r rest u).pod p).arrq = (ch.pod p).arrq ++ [({ u with id := ch.nextReq }, false)] ∧
    ((ch.chainIssue p x stage r rest u).ctx p x).q = .chain { r with started := r.started.modify stage fun k => k + 1 } :: rest := by
  obtain ⟨hp, hx⟩ := Chip.ctx_exists hctx
  let a := ch.modCtx p x fun z => { z with q := .chain { r with started := r.started.modify stage fun k => k + 1 } :: rest }
  have hpod : (ch.chainIssue p x stage r rest u).pod p = { a.pod p with arrq := (a.pod p).arrq ++ [({ u with id := ch.nextReq }, false)] } := by
    refine (Chip.modPod_pod a p p _).trans (if_pos ⟨rfl, ?_⟩)
    exact (Chip.modPod_pods_length ..).symm ▸ hp
  have hq : (a.ctx p x).q = _ := congrArg SeCtx.q (Chip.ctx_modCtx_self hp hx _)
  constructor
  · rw [hpod]
    dsimp only [a]
    rw [Chip.modCtx, Chip.modPod_pod, if_pos ⟨rfl, hp⟩]
  · rw [Chip.ctx, hpod]
    exact hq

/-- A stage of a running chain that may start, where the array of the pod has room: MMA (1) or DRAIN (2). -/
theorem chainStageStart_array {s : State} {c p x : Nat} {ch : Chip} {r : ChainRun} {rest : List SeItem} (hc : s.chips[c]? = some ch)
    (hgo : ch.unitsGo (ch.podPart p) = true) (hq : (ch.ctx p x).q = .chain r :: rest) (hruns : (ch.ctx p x).chainRuns r = true)
    (hroom : (ch.pod p).arrq.length < 64) (far : FarAns) :
    (r.ready 1 = true → exec (.chainStageStart c p x 1 far) s =
      .next (s.withChip c (ch.chainIssue p x 1 r rest (r.mma x (r.started.getD 1 0))))) ∧
    (r.ready 2 = true → exec (.chainStageStart c p x 2 far) s =
      .next (s.withChip c (ch.chainIssue p x 2 r rest (r.drain x (r.started.getD 2 0))))) := by
  have hfull : decide (64 ≤ (ch.pod p).arrq.length) = false := decide_eq_false (Nat.not_le_of_lt hroom)
  constructor <;>
    · intro hready
      change unitOn c _ _ s = _
      rw [unitOn_eq hc, if_pos hgo]
      simp only [hq, hruns, hready, hfull, Bool.not_true, Bool.and_false, Bool.or_false, Bool.false_eq_true, if_false, Chip.chainIssue]

/-! ### Token buckets (R565, R566) -/

theorem Chip.tokens_setTokens {ch : Chip} {p b : Nat} (hp : p < ch.parts.length) (hb : b < 4) (f : Nat → Nat) :
    (ch.modPart p fun q => q.setTokens f).tokens p b = f b := by
  unfold Chip.tokens
  rw [Chip.modPart_part, if_pos ⟨rfl, hp⟩]
  match b, hb with
  | 0, _ => rfl
  | 1, _ => rfl
  | 2, _ => rfl
  | 3, _ => rfl

/-- The buckets of a defined partition are filled (R565). -/
def Chip.refill (p : Nat) (a : Chip) : Chip := a.modPart p fun q => if q.isDefined then q.setTokens (a.fill p) else q

theorem Chip.refill_part {a : Chip} {p : Nat} (hp : p < a.parts.length) (hdef : (a.part p).isDefined = true) (i : Nat) :
    (a.refill i).part p = if p = i then (a.part p).setTokens (a.fill p) else a.part p := by
  rw [Chip.refill, Chip.modPart_part]
  by_cases hi : p = i
  · subst hi
    rw [if_pos ⟨rfl, hp⟩, if_pos rfl, if_pos hdef]
  · rw [if_neg (fun h => hi h.1), if_neg hi]

theorem Chip.refill_fill (a : Chip) (i p : Nat) : (a.refill i).fill p = a.fill p := by
  have hplate : ((a.refill i).part p).plate = (a.part p).plate := by
    rw [Chip.refill, Chip.modPart_part]
    split
    · rename_i h
      rw [h.1]
      split <;> rfl
    · rfl
  have hvariant : (a.refill i).variant = a.variant := rfl
  funext b
  simp only [Chip.fill, hplate, hvariant]

/-- Filling a partition twice is filling it once, and filling others does not touch it. -/
theorem Chip.refillAll_part {a : Chip} {p : Nat} (hp : p < a.parts.length) (hdef : (a.part p).isDefined = true) (l : List Nat) :
    (a.forEach l Chip.refill).part p = if p ∈ l then (a.part p).setTokens (a.fill p) else a.part p := by
  induction l generalizing a with
  | nil => rfl
  | cons i l ih =>
    have hnext := Chip.refill_part hp hdef i
    have hdef' : ((a.refill i).part p).isDefined = true := by
      rw [hnext]
      split <;> exact hdef
    have hrest := ih (a := a.refill i) (by rwa [Chip.refill, Chip.modPart_parts_length]) hdef'
    rw [Chip.refill_fill, hnext] at hrest
    by_cases hi : p = i
    · rw [if_pos hi] at hrest
      rw [if_pos (List.mem_cons.2 (.inl hi))]
      exact hrest.trans (ite_self _)
    · rw [if_neg hi] at hrest
      simp only [List.mem_cons, hi, false_or]
      exact hrest

/-- At a window's start the partitions are filled one after the other, once the pods have counted the window that ends. -/
theorem bucketRefill_eq {s : State} {c : Nat} {ch : Chip} (hc : s.chips[c]? = some ch) (ht : ch.time % 1000 = 0) :
    exec (.bucketRefill c) s =
      .next (s.withChip c (({ ch with pods := ch.pods.map Pod.windowEnd } : Chip).forEach (List.range 8) Chip.refill)) := by
  have htime : (ch.time % 1000 != 0) = false := by rw [ht]; rfl
  change onChip c _ s = _
  rw [onChip_some hc, htime]
  rfl

theorem Chip.refillAll_mem (a : Chip) (l : List Nat) : (a.forEach l Chip.refill).mem = a.mem :=
  List.foldlRecOn (motive := fun (b : Chip) => b.mem = a.mem) l _ rfl fun _ hb _ _ => hb

/-- A transfer whose last line has tokens happens, and takes those that were not taken before (R566). -/
theorem Chip.paced_happens {ch after : Chip} {p : Nat} {paid : List Nat} (h : ch.affords p paid after = true) :
    ch.paced p paid (fun _ b => b) after =
      after.modPart p fun q => q.setTokens fun b => ch.tokens p b - 64 * (ch.linesTo after p b - paid.getD b 0) := by
  rw [Chip.paced, if_pos h]

/-- A transfer that waits takes the whole lines of the buckets that lack some (R566; log entry 14). -/
theorem Chip.paced_waits {ch after : Chip} {p : Nat} {paid : List Nat} (h : ¬ ch.affords p paid after = true) :
    ch.paced p paid (fun _ b => b) after = ch.modPart p fun q => q.setTokens fun b => ch.tokens p b -
      64 * (if ch.starvedLines p b (ch.linesTo after p b - paid.getD b 0) then ch.tokens p b / 64 else 0) := by
  rw [Chip.paced, if_neg h]

theorem Chip.affords_iff {ch after : Chip} {p : Nat} {paid : List Nat} :
    ch.affords p paid after = true ↔ ∀ b, b < 4 → 64 * (ch.linesTo after p b - paid.getD b 0) ≤ ch.tokens p b := by
  simp only [Chip.affords, Chip.starvedLines, List.all_eq_true, List.mem_range, Bool.not_eq_true', decide_eq_false_iff_not, Nat.not_lt]

/-- The tokens and the memory after a transfer, which happens or waits. -/
theorem Chip.paced_result {ch after : Chip} {p : Nat} {paid : List Nat} (hp : p < ch.parts.length) (hafter : p < after.parts.length) :
    let a := ch.paced p paid (fun _ b => b) after
    if ch.affords p paid after = true then
      a.mem = after.mem ∧ ∀ b, b < 4 → a.tokens p b + 64 * (ch.linesTo after p b - paid.getD b 0) = ch.tokens p b
    else a.mem = ch.mem ∧ ∀ b, b < 4 → a.tokens p b =
      if ch.starvedLines p b (ch.linesTo after p b - paid.getD b 0) = true then ch.tokens p b % 64 else ch.tokens p b := by
  intro a
  by_cases h : ch.affords p paid after = true
  · rw [if_pos h]
    dsimp only [a]
    rw [Chip.paced_happens h]
    refine ⟨rfl, fun b hb => ?_⟩
    rw [Chip.tokens_setTokens hafter hb]
    exact Nat.sub_add_cancel (Chip.affords_iff.1 h b hb)
  · rw [if_neg h]
    dsimp only [a]
    rw [Chip.paced_waits h]
    refine ⟨rfl, fun b hb => ?_⟩
    rw [Chip.tokens_setTokens hp hb]
    split <;> omega

/-- A transfer that lets one line of each bucket pass at most has its tokens where each bucket holds a line's. -/
theorem Chip.affords_line {ch after : Chip} {p : Nat} (hmoved : ∀ b, (after.part p).tel.moved b ≤ (ch.part p).tel.moved b + 64)
    (ht : ∀ b, b < 4 → 64 ≤ ch.tokens p b) : ch.affords p [] after = true := Chip.affords_iff.2 fun b hb => by
  have hmoved := hmoved b
  have htokens := ht b hb
  have hlines : ch.linesTo after p b ≤ 1 := by
    rw [Chip.linesTo]
    omega
  omega

/-! ### What a unit accepts (R347, R360) -/

/-- The oldest command that has arrived for a unit that is not fenced, its core's stores performed: the unit takes it. -/
theorem Chip.accept_taken {ch : Chip} {sel : UnitCmd → Bool} {u : UnitCmd} (hu : ch.arriving.find? sel = some u)
    (hstores : ch.storesDone u = true) (hfence : ch.unitFenced u = false) {op : Nat} (hop : u.op = op) (f : UnitCmd → Chip → Chip) :
    ch.accept sel op f = f u { ch with arriving := ch.arriving.erase u } := by
  simp only [Chip.accept, hu, hop, hstores, hfence, beq_self_eq_true, Bool.and_self, Bool.false_eq_true, if_false, if_true]

/-- One whose acceptance moves lines waits for their tokens. -/
theorem Chip.pacedAccept_taken {ch : Chip} {sel : UnitCmd → Bool} {u : UnitCmd} (hu : ch.arriving.find? sel = some u)
    (hstores : ch.storesDone u = true) (hfence : ch.unitFenced u = false) {op : Nat} (hop : u.op = op) (f : UnitCmd → Chip → Chip) :
    ch.pacedAccept sel op f =
      ch.paced (ch.partNo u.core) [] (fun _ a => a) (f u { ch with arriving := ch.arriving.erase u }) := by
  simp only [Chip.pacedAccept, hu, Chip.accept_taken hu hstores hfence hop]

theorem chk_true (code : Nat) : chk code true = cOK := rfl

theorem firstCode_nil : firstCode [] = cOK := rfl

theorem firstCode_ok (l : List Nat) : firstCode (cOK :: l) = firstCode l := rfl

/-! ### The carousel (R573 to R579) -/

/-- A list without a number twice. -/
theorem eraseDups_of_nodup {l : List Nat} (h : l.Nodup) : l.eraseDups = l := by
  induction l with
  | nil => rfl
  | cons a l ih =>
    obtain ⟨ha, hl⟩ := List.nodup_cons.1 h
    have hkeep : (l.filter fun b => !b == a) = l := List.filter_eq_self.2 fun b hb => by
      simpa using fun e : b = a => ha (e ▸ hb)
    rw [List.eraseDups_cons, hkeep, ih hl]

theorem Chip.modCar_carousel {ch : Chip} {p : Nat} (hp : p < ch.parts.length) (f : Carousel → Carousel) :
    ((ch.modCar p f).part p).carousel = f (ch.part p).carousel := by
  rw [Chip.modCar, Chip.modPart_part, if_pos ⟨rfl, hp⟩]

theorem Chip.modCar_tel (ch : Chip) (p q : Nat) (f : Carousel → Carousel) : ((ch.modCar p f).part q).tel = (ch.part q).tel := by
  rw [Chip.modCar, Chip.modPart_part]
  split
  · rename_i h
    rw [h.1]
  · rfl

/-- A ROTATE may complete at step 0, or once the shard of the step before has come (R577). -/
theorem Carousel.may_iff (x : Carousel) (st i : Nat) : x.may st i = true ↔ st = 0 ∨ x.done.contains (st - 1, x.before i) = true := by
  rw [Carousel.may, Bool.or_eq_true, beq_iff_eq]

/-- The partition of an armed carousel is one of the chip. -/
theorem Chip.part_of_armed {ch : Chip} {p : Nat} (h : (ch.part p).carousel.armed = true) : p < ch.parts.length :=
  Nat.lt_of_not_le fun hle => by
    have hnone : ch.part p = {} := List.getD_eq_default _ _ hle
    rw [hnone] at h
    cases h

/-- The fields of a CAROUSEL_ARM and the ring that it has read pass every check (R573, R574). -/
structure Chip.ArmOk (ch : Chip) (part : Nat) (u : UnitCmd) (ring : List Nat) : Prop where
  idle : (ch.part part).carousel.armed = false
  flags : u.flagsOk = true
  context : u.ctxOk = true
  byte5 : u.byte 5 = 0
  two : 2 ≤ u.byte 16
  sixtyFour : u.byte 16 ≤ 64
  zero17 : u.zero 17 19 = true
  zero32 : u.zero 32 63 = true
  bytes : u.le 28 4 % 64 = 0
  table : u.le 8 8 % 64 = 0
  slot0 : u.le 20 4 % 64 = 0
  slot1 : u.le 24 4 % 64 = 0
  usable : ch.usable part (u.le 8 8) (u.byte 16) = cOK
  members : ∀ k ∈ ring, k < ch.cores.length ∧ ch.partNo k = part
  nodup : ring.Nodup
  fits0 : u.le 20 4 + u.le 28 4 ≤ 0x200000
  fits1 : u.le 24 4 + u.le 28 4 ≤ 0x200000
  apart : overlaps (u.le 20 4) (u.le 28 4) (u.le 24 4) (u.le 28 4) = false

/-- The carousel that a CAROUSEL_ARM with a ring arms; its generation stays. -/
def Carousel.arm (x : Carousel) (u : UnitCmd) (ring : List Nat) : Carousel :=
  { x with
    armed := true, ring := ring, slot0 := u.le 20 4, slot1 := u.le 24 4, bytes := u.le 28 4, last := ring.map (fun _ => none), done := [],
    moving := [], waiting := [] }

/-- The step that a ROTATE of position `i` has to announce (R575). -/
def Carousel.nextStep (x : Carousel) (i : Nat) : Nat :=
  match x.last.getD i none with
  | none => 0
  | some l => l + 1

/-- The fields of a ROTATE pass every check of the carousel of its core's partition (R575). -/
structure Carousel.RotateOk (x : Carousel) (u : UnitCmd) : Prop where
  flags : u.flagsOk = true
  context : u.ctxOk = true
  byte5 : u.byte 5 = 0
  zero12 : u.zero 12 63 = true
  member : x.ring.contains u.core = true
  armed : x.armed = true
  gen : x.gen = u.le 6 2
  step : u.le 8 4 = x.nextStep (x.ring.idxOf u.core)

theorem Chip.ureadFor_ok {ch b : Chip} {p a n : Nat} {far : FarAns} {l : List Nat} (h : ch.uread p far a n = (b, cOK, l)) (u : UnitCmd) :
    ch.ureadFor u p far a n = (b, cOK, l) := by
  rw [Chip.ureadFor, h]
  rfl

/-- Bytes left undefined touch no partition. -/
theorem Chip.Moves.storeFree {ch a : Chip} {n : Nat} (h : ch.Moves n a) (at' m : Nat) : ch.Moves n (a.storeFree at' m) := h.of_parts rfl

/-- A carousel that is disarmed has a new generation and no ROTATE that waits (R579). -/
def Carousel.disarm (x : Carousel) : Carousel := { x with armed := false, gen := inc16 x.gen, waiting := [] }

theorem Chip.carDisarm_moves {ch : Chip} {p : Nat} (harmed : (ch.part p).carousel.armed = true) :
    (ch.modCar p Carousel.disarm).Moves 0 (ch.carDisarm p) := by
  have hstale := (Chip.completeAll_keeps (ch.part p).carousel.waiting (fun e => e.1) cGENSTALE (ch.modCar p Carousel.disarm)).2
  unfold Chip.carDisarm
  simp only [harmed, Bool.not_true, Bool.false_eq_true, if_false]
  exact List.foldlRecOn (motive := fun b => (ch.modCar p Carousel.disarm).Moves 0 b) _ _ hstale fun b hb k _ =>
    (hb.storeFree _ _).storeFree _ _

section

variable {s : State} {c p part : Nat} {ch a : Chip} {u : UnitCmd} (hc : s.chips[c]? = some ch) (hu : ch.arriving.find? (forSe p) = some u)
  (hstores : ch.storesDone u = true) (hfence : ch.unitFenced u = false) (hpart : ch.partNo u.core = part)
  (ha : a = { ch with arriving := ch.arriving.erase u })

include hc hu hstores hfence hpart ha

/-- A CAROUSEL_ARM that passes its checks arms the carousel of its core's partition, once the read of the ring has its tokens. -/
theorem carouselArm_eq (hop : u.op = 0x20) {far : FarAns} {b : Chip} {ring : List Nat} (hok : a.ArmOk part u ring)
    (hread : a.uread part far (u.le 8 8) (u.byte 16) = (b, cOK, ring)) :
    exec (.carouselArm c p far) s = .next (s.withChip c (ch.paced part [] (fun _ a => a)
      ((b.modCar part fun x => x.arm u ring).complete u cOK (a.part part).carousel.gen))) := by
  obtain ⟨hidle, hflags, hcontext, h5, h2, h64, hz17, hz32, hbytes, htable, hs0, hs1, husable, hmembers, hnodup, hfits0, hfits1, hapart⟩ := hok
  have hring : (ring.all fun k => decide (k < a.cores.length) && (a.partNo k == part)) = true :=
    List.all_eq_true.2 fun k hk => by
      simp only [hmembers k hk, decide_true, beq_self_eq_true, Bool.and_self]
  have hpart' : a.partNo u.core = part := by rw [ha]; exact hpart
  change onChip c _ s = _
  rw [onChip_some hc, Chip.pacedAccept_taken hu hstores hfence hop, ← ha]
  simp only [hpart, hpart', Chip.ureadFor_ok hread, hidle, hflags, hcontext, h5, h2, h64, hz17, hz32, hbytes, htable, hs0, hs1, husable, hring,
    eraseDups_of_nodup hnodup, hfits0, hfits1, hapart, decide_true, beq_self_eq_true, Bool.and_self, Bool.not_false, chk_true, firstCode_ok,
    bne_self_eq_false, Bool.false_eq_true, if_false, firstCode_nil, Carousel.arm]

/-- The tokens of one line of each bucket suffice for it, as the ring lies in one line. -/
theorem carouselArm_arms (hop : u.op = 0x20) (hp : part < ch.parts.length) (htokens : ∀ b, b < 4 → 64 ≤ ch.tokens part b) {b : Chip}
    {far : FarAns} {ring : List Nat} (hok : a.ArmOk part u ring) (hread : a.uread part far (u.le 8 8) (u.byte 16) = (b, cOK, ring)) :
    ∃ (b : Chip) (f : Nat → Nat),
      exec (.carouselArm c p far) s = .next (s.withChip c ((b.complete u cOK (ch.part part).carousel.gen).modPart part fun q => q.setTokens f)) ∧
        (b.part part).carousel = (ch.part part).carousel.arm u ring := by
  have hparts : a.parts = ch.parts := by rw [ha]
  have hsame : a.part part = ch.part part := by rw [Chip.part, hparts, Chip.part]
  have hexec := carouselArm_eq hc hu hstores hfence hpart ha hop hok hread
  have hmoves := Chip.Moves.uread_line hok.table (Nat.lt_of_lt_of_le Nat.zero_lt_two hok.two) hok.sixtyFour a part far
  rw [hread] at hmoves
  rw [hsame] at hexec
  have hmoved : ∀ i, (((b.modCar part fun x => x.arm u ring).complete u cOK (ch.part part).carousel.gen).part part).tel.moved i ≤
      (ch.part part).tel.moved i + 64 := fun i => by
    rw [(Chip.KeepsWork.complete ..).moved, Chip.modCar_tel, ← hsame]
    exact hmoves.moved ..
  rw [Chip.paced_happens (Chip.affords_line hmoved htokens)] at hexec
  refine ⟨_, _, hexec, ?_⟩
  rw [Chip.modCar_carousel (by rwa [hmoves.length, hparts]), hmoves.carousel, hsame]

/-- ROTATE of the next step of its position is noted; it completes, or waits for its shard (R575, R577). -/
theorem rotate_eq (hop : u.op = 0x21) {x : Carousel} (hx : (ch.part part).carousel = x) (hok : x.RotateOk u) :
    let i := x.ring.idxOf u.core
    let st := u.le 8 4
    let b := a.modCar part fun y => { y with last := y.last.set i (some st) }
    exec (.rotate c p) s = .next (s.withChip c (if st = 0 ∨ x.done.contains (st - 1, x.before i) = true then b.complete u cOK 0
      else b.modCar part fun y => { y with waiting := y.waiting ++ [(u, i, st)] })) := by
  obtain ⟨hflags, hcontext, h5, hz12, hmember, harmed, hgen, hstep⟩ := hok
  have hpart' : a.partNo u.core = part := by rw [ha]; exact hpart
  have hx' : (a.part part).carousel = x := by rw [ha]; exact hx
  change onChip c _ s = _
  rw [onChip_some hc, Chip.accept_taken hu hstores hfence hop, ← ha]
  unfold Carousel.nextStep at hstep
  cases hlast : x.last.getD (x.ring.idxOf u.core) none <;>
    · have hnext := beq_iff_eq.2 hstep
      simp only [hlast] at hnext
      simp only [hpart', hx', hlast, hnext, hflags, hcontext, h5, hz12, hmember, harmed, hgen, beq_self_eq_true, Bool.and_self, chk_true,
        firstCode_ok, bne_self_eq_false, Bool.false_eq_true, if_false, firstCode_nil, Carousel.may_iff]

/-- The DISARM of an armed carousel: it completes, or waits for the transfers in flight; the carousel is disarmed at once (R579). -/
theorem carouselDisarm_disarms (hop : u.op = 0x22) (hcontext : u.ctxOk = true) (hflags : u.flagsOk = true) (h5 : u.byte 5 = 0)
    (hz8 : u.zero 8 63 = true) (harmed : (a.part part).carousel.armed = true) :
    ∃ ch' l, exec (.carouselDisarm c p) s = .next (s.withChip c ch') ∧
      (ch'.part part).carousel = { (a.part part).carousel.disarm with disarms := l } := by
  have hpart' : a.partNo u.core = part := by rw [ha]; exact hpart
  have hmoves := Chip.carDisarm_moves harmed
  have hcarousel : ((a.carDisarm part).part part).carousel = (a.part part).carousel.disarm :=
    (hmoves.carousel _).trans (Chip.modCar_carousel (Chip.part_of_armed harmed) _)
  have hexec : exec (.carouselDisarm c p) s = .next (s.withChip c (if ((a.carDisarm part).part part).carousel.moving.isEmpty = true then
      (a.carDisarm part).complete u cOK 0 else (a.carDisarm part).modCar part fun y => { y with disarms := y.disarms ++ [u] })) := by
    change onChip c _ s = _
    rw [onChip_some hc, Chip.accept_taken hu hstores hfence hop, ← ha]
    simp only [hpart', hflags, hcontext, h5, hz8, beq_self_eq_true, Bool.and_self, Bool.not_true, Bool.false_eq_true, if_false]
  by_cases hstill : ((a.carDisarm part).part part).carousel.moving.isEmpty = true
  · rw [if_pos hstill] at hexec
    refine ⟨_, (a.part part).carousel.disarms, hexec, ?_⟩
    rw [((Chip.Moves.refl 0 _).complete ..).carousel, hcarousel]
    rfl
  · rw [if_neg hstill] at hexec
    refine ⟨_, (a.part part).carousel.disarms ++ [u], hexec, ?_⟩
    rw [Chip.modCar_carousel (hmoves.length.trans (Chip.modPart_parts_length ..) ▸ Chip.part_of_armed harmed), hcarousel]
    rfl

end

/-- A transfer that R576 allows begins. -/
theorem carouselTransfer_eq {s : State} {c p st i : Nat} {ch : Chip} (hc : s.chips[c]? = some ch) :
    let x := (ch.part p).carousel
    x.armed = true → i < x.size → (∃ l, x.last.getD ((i + 1) % x.size) none = some l ∧ st ≤ l) → x.may st i = true →
    (st, i) ∉ x.done → (st, i) ∉ x.moving →
    exec (.carouselTransfer c p st i) s = .next (s.withChip c (ch.modCar p fun y => { y with moving := y.moving ++ [(st, i)] })) := by
  rintro x harmed hi ⟨l, hl, hst⟩ hmay hdone hmoving
  change onChip c _ s = _
  rw [onChip_some hc]
  have hdone' : x.done.contains (st, i) = false := by rwa [List.contains_eq_mem, decide_eq_false_iff_not]
  have hmoving' : x.moving.contains (st, i) = false := by rwa [List.contains_eq_mem, decide_eq_false_iff_not]
  dsimp only [x] at *
  simp only [harmed, hi, hl, hst, hmay, hdone', hmoving', decide_true, Bool.not_false, Bool.and_self, if_true]

/-- Bytes that are stored stand in memory, and every other byte is as it was. -/
theorem stored_write {m : List Host.Cell} (h : Memory.wf m = true) (a : Nat) (l : List Nat) : Stored m (Memory.write m a l) a l := by
  refine ⟨Memory.write_wf h a l, fun i hi => ?_, fun b hb => ?_⟩
  · rw [Memory.get_write h, if_pos (by omega), Nat.add_sub_cancel_left]
    exact BitVec.toNat_ofNat ..
  · rw [Memory.get_write h, if_neg (by omega)]

@[simp] theorem Chip.see_length (ch : Chip) (own : Option Nat) (a n : Nat) : (ch.see own a n).length = n := by
  rw [Chip.see_eq_view, Memory.bytes_length]

/-- A plain store that meets no open epoch is a store (R438). -/
theorem Chip.plainStore_of_clash {ch : Chip} {a : Nat} {l : List Nat} (h : ch.clash a l.length = none) : ch.plainStore a l = ch.store a l := by
  rw [Chip.plainStore, h]

/-- The chip once transfer T(st, i) has carried its shard to `dst`, before the ROTATEs that waited for it go on. -/
def Chip.carried (ch : Chip) (p st i src dst : Nat) : Chip :=
  let ch1 := ch.modCar p fun y => { y with moving := y.moving.erase (st, i) }
  (ch1.plainStore dst (ch1.see none src (ch.part p).carousel.bytes)).modCar p fun y => { y with done := y.done ++ [(st, i)] }

/-- The shard of `src` stands at `dst`, the rest of memory is as it was, and the transfer is done. -/
theorem Chip.carried_result {ch : Chip} {p dst : Nat} (harmed : (ch.part p).carousel.armed = true) (hwf : Memory.wf ch.mem = true)
    (hclash : ch.clash dst (ch.part p).carousel.bytes = none) (st i src : Nat) :
    Stored ch.mem (ch.carried p st i src dst).mem dst (ch.see none src (ch.part p).carousel.bytes) ∧
      p < (ch.carried p st i src dst).parts.length ∧ (st, i) ∈ ((ch.carried p st i src dst).part p).carousel.done := by
  let a := ch.modCar p fun y => { y with moving := y.moving.erase (st, i) }
  have hsee : a.see none src (ch.part p).carousel.bytes = ch.see none src (ch.part p).carousel.bytes := Chip.see_congr rfl rfl ..
  have hfree : a.clash dst (ch.see none src (ch.part p).carousel.bytes).length = none := by
    rw [Chip.see_length, ← hclash]
    exact Chip.clash_congr rfl ..
  have hcarried : ch.carried p st i src dst =
      (a.store dst (ch.see none src (ch.part p).carousel.bytes)).modCar p fun y => { y with done := y.done ++ [(st, i)] } := by
    rw [← Chip.plainStore_of_clash hfree, ← hsee, Chip.carried]
  have hp : p < (a.store dst (ch.see none src (ch.part p).carousel.bytes)).parts.length :=
    (Chip.modPart_parts_length ch p _).symm ▸ Chip.part_of_armed harmed
  rw [hcarried]
  refine ⟨stored_write hwf dst _, (Chip.modPart_parts_length ..).symm ▸ hp, ?_⟩
  rw [Chip.modCar_carousel hp]
  exact List.mem_append_right _ (List.mem_singleton.2 rfl)

/-- The ROTATEs of partition `p` that wait and may go on complete (R577). -/
def Chip.resumeRotates (a : Chip) (p : Nat) : Chip :=
  let y := (a.part p).carousel
  (y.waiting.filter fun e => y.may e.2.2 e.2.1).foldl (fun a e => a.complete e.1 cOK 0)
    (a.modCar p fun z => { z with waiting := z.waiting.filter fun e => !y.may e.2.2 e.2.1 })

theorem Chip.resumeRotates_keeps {a : Chip} {p : Nat} (hp : p < a.parts.length) :
    (a.resumeRotates p).mem = a.mem ∧ ((a.resumeRotates p).part p).carousel.done = (a.part p).carousel.done := by
  unfold Chip.resumeRotates
  extract_lets y
  obtain ⟨hmem, hmoves⟩ := Chip.completeAll_keeps (y.waiting.filter fun e => y.may e.2.2 e.2.1) (fun e => e.1) cOK
    (a.modCar p fun z => { z with waiting := z.waiting.filter fun e => !y.may e.2.2 e.2.1 })
  exact ⟨hmem, by rw [hmoves.carousel, Chip.modCar_carousel hp]⟩

/-- A transfer in flight is made: its shard is carried, and the ROTATEs that may go on complete (R576, R577). -/
theorem carouselTransferDone_eq {s : State} {c p st i : Nat} {ch : Chip} (hc : s.chips[c]? = some ch)
    (hmoving : (ch.part p).carousel.moving.contains (st, i) = true) (harmed : (ch.part p).carousel.armed = true) :
    let x := (ch.part p).carousel
    exec (.carouselTransferDone c p st i) s = .next (s.withChip c ((ch.carried p st i (coreBase (x.ring.getD i 0) + x.slot st)
      (coreBase (x.ring.getD ((i + 1) % x.size) 0) + x.slot (st + 1))).resumeRotates p)) := by
  change onChip c _ s = _
  rw [onChip_some hc]
  simp only [hmoving, harmed, Bool.not_true, Bool.false_eq_true, if_false, if_true, Chip.carried, Chip.resumeRotates]

/-! ### The statement -/

/-- Settles O19: the stages of a chain by what must come before each, the buckets by what a window's start and a transfer leave in them, and the
carousel by the checks that each of its commands passes. The ring that CAROUSEL_ARM reads lies in one line, so the tokens of a line suffice. -/
theorem chainAndCarouselResults : Obligations.ChainAndCarouselResults := by
  unfold Obligations.ChainAndCarouselResults
  refine ⟨?chain, ?refill, fun ch after p paid hp hafter => Chip.paced_result hp hafter, fun s c p ch hc =>
    ⟨fun far u hu hstores hfence hchain hcontext => ⟨?arm, ?rotate, ?disarm⟩, fun st i => carouselTransfer_eq hc, ?made⟩⟩
  case chain =>
    intro s c p x stage far ch r rest hc hgo hq hruns st dn
    have hctx : (ch.ctx p x).q ≠ [] := hq ▸ List.cons_ne_nil _ _
    refine ⟨fun hready => r.ready_before hready, fun hready hroom => ?_, fun hready hroom => ?_⟩
    · obtain ⟨harrq, hrun⟩ := Chip.chainIssue_result hctx 1 r rest (r.mma x (st 1))
      exact ⟨_, _, (chainStageStart_array hc hgo hq hruns hroom far).1 hready, harrq, rfl, rfl, rfl, hrun⟩
    · obtain ⟨harrq, hrun⟩ := Chip.chainIssue_result hctx 2 r rest (r.drain x (st 2))
      exact ⟨_, _, (chainStageStart_array hc hgo hq hruns hroom far).2 hready, harrq, rfl, rfl, hrun⟩
  case refill =>
    intro s c ch hc ht hlen
    refine ⟨_, bucketRefill_eq hc ht, Chip.refillAll_mem .., fun p hp hdef => ?_⟩
    have hpart := Chip.refillAll_part (a := { ch with pods := ch.pods.map Pod.windowEnd }) (hlen ▸ hp) hdef (List.range 8)
    rw [hpart, if_pos (List.mem_range.2 hp)]
    exact ⟨rfl, rfl, rfl, rfl⟩
  case arm =>
    intro hop hidle hpart htokens r ring hflags h5 h2 h64 hz17 hz32 hbytes htable hs0 hs1 husable hcode hmembers hnodup hfits0 hfits1 hapart
    have hread : r = (r.1, cOK, ring) := by rw [← hcode]
    obtain ⟨b, f, hexec, hcarousel⟩ := carouselArm_arms hc hu hstores hfence rfl rfl hop hpart htokens
      ⟨hidle, hflags, hcontext, h5, h2, h64, hz17, hz32, hbytes, htable, hs0, hs1, husable, hmembers, hnodup, hfits0, hfits1, hapart⟩ hread
    refine ⟨b, f, hexec, ?_⟩
    rw [hcarousel]
    exact ⟨rfl, rfl, rfl, rfl, rfl, rfl, rfl⟩
  case rotate =>
    intro hop harmed hmember hgen hflags h5 hz12 i st hstep
    exact rotate_eq hc hu hstores hfence rfl rfl hop rfl ⟨hflags, hcontext, h5, hz12, hmember, harmed, hgen, hstep⟩
  case disarm =>
    intro hop harmed hflags h5 hz8
    obtain ⟨ch', l, hexec, hcarousel⟩ := carouselDisarm_disarms hc hu hstores hfence rfl rfl hop hcontext hflags h5 hz8 harmed
    refine ⟨ch', hexec, ?_⟩
    rw [hcarousel]
    exact ⟨rfl, rfl, rfl⟩
  case made =>
    intro st i x src dst hmoving harmed hclash hwf
    obtain ⟨hstored, hp, hdone⟩ := Chip.carried_result harmed hwf hclash st i src
    obtain ⟨hmem, hkept⟩ := Chip.resumeRotates_keeps hp
    exact ⟨_, carouselTransferDone_eq hc hmoving harmed, hkept ▸ hdone, hmem ▸ hstored⟩

end Sys2Proof.Machine
